-- ==== Sys2Proof/Word.lean ====
section
/-! DEFINITION. The word types of the HX9 and the fields of a slot word (spec 00 R5, 02 R26, R38). -/

namespace Sys2Proof

/-- A byte of memory (R5). -/
abbrev Byte := BitVec 8

/-- A 64-bit scalar, address or control register (R38, R41). -/
abbrev Word := BitVec 64

/-- A vector register of 4,096 bits (R38). -/
abbrev Vec := BitVec 4096

/-- The bits `[lo + n - 1 : lo]` of a number (R7's `x<hi:lo>`). -/
def bits (x lo n : Nat) : Nat := x / 2 ^ lo % 2 ^ n

/-- A field of a slot word as a bit vector of its width. -/
def fld (w lo n : Nat) : BitVec n := BitVec.ofNat n (bits w lo n)

/-- What every non-K slot carries besides its operands: the duplicate bit D and the guard PG (R26). -/
structure Head where
  /-- D, bit [21]: this slot is a duplicate (R34). -/
  d : Bool
  /-- PG, bits [20:17]: the guard predicate (R29). -/
  g : BitVec 4
  deriving DecidableEq, Repr

end Sys2Proof
end

