-- ==== Sys2Proof/Syntax.lean ====
section
/-! DEFINITION. The syntax of the machine: one constructor for each row of the opcode table. 235 rows are slot
words, whose constructors hold the guard and duplicate bit (`Head`), the operand fields as the table lays them
out, and the payloads of the K slots the instruction owns (02 R26, R30 to R33). 104 rows are steps that no slot
word encodes: events of the agents of the package, whose arguments say which object acts (95). -/

namespace Sys2Proof

/-- The device registers that a plain write replaces (00 R6, 18 R378): named, since the manual places few of them
inside their window blocks (log 21). -/
inductive RegName where
  /-- LSPSWZ0 to LSPSWZ11 of a core (06 R103); index core * 12 + i. -/
  | lspswz
  /-- RINGT0 to RINGT31 of a core (11 R236); index core * 32 + i; 128 bits. -/
  | ringt
  /-- AINJ of a core (20 R401). -/
  | ainj
  /-- SCRB of a core's LSP (17 R372). -/
  | scrbLsp
  /-- SCRB of a core's accumulator store (17 R372). -/
  | scrbAcc
  /-- SCRB of a memory unit (17 R372). -/
  | scrbUnit
  /-- LKCM0 to LKCM3 of an LKM (13 R270); index lkm * 4 + class. -/
  | lkcm
  /-- MXLEASE of an LKM (13 R270). -/
  | mxlease
  /-- SUSTH of the MSC (15 R334). -/
  | susth
  /-- QTB of an IOC (14 R288). -/
  | qtb
  /-- QSWC of a hardware queue slot (14 R290). -/
  | qswc
  /-- QSLICE of an IOC (14 R297). -/
  | qslice
  /-- GSLT0 to GSLT15 of an IOC (14 R311); index ioc * 16 + i. -/
  | gslt
  /-- GSLN0 to GSLN15 of an IOC (14 R311); index ioc * 16 + i. -/
  | gsln
  /-- GSPER of an IOC (14 R311). -/
  | gsper
  /-- PREDL of an IOC (16 R347). -/
  | predl
  /-- SVPB of an IOC (16 R347). -/
  | svpb
  /-- SVPS of an IOC (16 R347). -/
  | svps
  /-- HIRB of an IOC (18 R380). -/
  | hirb
  /-- HIRS of an IOC (18 R380). -/
  | hirs
  /-- GRTB of an IOC (18 R382). -/
  | grtb
  /-- HAPB of IOC 0 (18 R379). -/
  | hapb
  /-- HAPR of IOC 0 (18 R379). -/
  | hapr
  /-- SYSRT (18 R421). -/
  | sysrt
  /-- HPMCFG of a CUP, LPMCFG of an LP6 controller (17 R365). -/
  | hpmcfg
  /-- HREFCFG of a CUP (17 R365). -/
  | hrefcfg
  /-- HOTCFG of a memory unit (17 R375). -/
  | hotcfg
  /-- HNRB of a memory unit (17 R375). -/
  | hnrb
  /-- HNRS of a memory unit (17 R375). -/
  | hnrs
  /-- HNRC of a memory unit (17 R375). -/
  | hnrc
  /-- ATNC0 to ATNC3 of the MSC (18 R386). -/
  | atnc
  /-- ATBUF of the MSC (18 R386). -/
  | atbuf
  /-- UVCFG of the MSC (18 R387). -/
  | uvcfg
  /-- The injector of a link (18 R389). -/
  | linj
  deriving DecidableEq, Repr

/-- What the scrubber finds in the ECC word it reads (17 R370, R373). -/
inductive EccErr where
  /-- No error. -/
  | clean
  /-- An error that the code corrects. -/
  | corrected
  /-- An error that the code only detects; `parity` says that the array holds check bits of parity alone. -/
  | uncorrectable
  deriving DecidableEq, Repr

/-- The instructions and events of the HX9, one constructor for each row of the opcode table. -/
inductive Instr where
  /-- NOP_C (R28): C-class no-operation; it has no effect and is the word eprun-as pads with. -/
  | nopC
  /-- NOP_S (R28): S-class no-operation with no effect. -/
  | nopS
  /-- NOP_M (R28): M-class no-operation with no effect. -/
  | nopM
  /-- NOP_V (R28): V-class no-operation with no effect. -/
  | nopV
  /-- NOP_X (R28): X-class no-operation with no effect. -/
  | nopX
  /-- NOP_Q (R28): Q-class no-operation with no effect. -/
  | nopQ
  /-- NOP_G (R28): G-class no-operation with no effect. -/
  | nopG
  /-- BR (R73): Branches PC-relative by a long-immediate offset in 4-byte units. -/
  | br (h : Head) (i : BitVec 17) (ks : List (BitVec 28))
  /-- BRI (R73): Branches to a register plus a signed 7-bit offset in 4-byte units. -/
  | bri (h : Head) (a : BitVec 5) (i : BitVec 7)
  /-- CALL (R73): Branches PC-relative and writes the fall-through address to s31. -/
  | call (h : Head) (i : BitVec 17) (ks : List (BitVec 28))
  /-- CALLI (R73): Branches to a register plus an offset and writes the link to s31. -/
  | calli (h : Head) (a : BitVec 5) (i : BitVec 7)
  /-- RET (R73): Transfers control to the address held in s31. -/
  | ret (h : Head)
  /-- LOOPI (R76): Initialises a modulo-scheduled loop counter, the stage base and the rotating predicates. -/
  | loopi (h : Head) (d a : BitVec 5) (i : BitVec 7)
  /-- LOOPB (R77): Counts down a pipelined loop, rotates the stage predicates and branches while passes remain. -/
  | loopb (h : Head) (d : BitVec 5) (i : BitVec 7) (ks : List (BitVec 28))
  /-- YIELD (R79): Ends the run at the end of the bundle and requeues the context as READY. -/
  | yield (h : Head)
  /-- WAITF (R80): Waits until any or all masked flags are set, or ERRF is set, and clears the flags it consumes. -/
  | waitf (h : Head) (l : BitVec 1) (k : BitVec 16)
  /-- TEND (R81): Ends the task: the interval closes and the context waits in ENDING until agreement and completions, then frees its resources. -/
  | tend (h : Head)
  /-- TRAP (R356): Makes a checkpoint bundle and then takes SWTRAP with its code in TRAPC. -/
  | trap (h : Head) (i : BitVec 12)
  /-- ADD (R87): Writes the 64-bit sum of two registers. -/
  | add (h : Head) (d a b : BitVec 5)
  /-- SUB (R87): Writes the 64-bit difference of two registers. -/
  | sub (h : Head) (d a b : BitVec 5)
  /-- ADDI (R87): Adds a sign-extended (long) immediate to a register. -/
  | addi (h : Head) (d a : BitVec 5) (i : BitVec 7) (ks : List (BitVec 28))
  /-- MUL (R88): Writes the low 64 bits of a product, landing after 3 bundles. -/
  | mul (h : Head) (d a b : BitVec 5)
  /-- MULH (R88): Writes the high 64 bits of the signed product. -/
  | mulh (h : Head) (d a b : BitVec 5)
  /-- MULHN (R88): Writes the high 64 bits of the unsigned product. -/
  | mulhn (h : Head) (d a b : BitVec 5)
  /-- DIV (R89): Signed division, interlocked, with defined results for zero divisors and overflow. -/
  | div (h : Head) (d a b : BitVec 5)
  /-- DIVN (R89): Unsigned division, interlocked. -/
  | divn (h : Head) (d a b : BitVec 5)
  /-- REM (R89): Signed remainder, interlocked. -/
  | rem (h : Head) (d a b : BitVec 5)
  /-- REMN (R89): Unsigned remainder, interlocked. -/
  | remn (h : Head) (d a b : BitVec 5)
  /-- AND (R87): Bitwise AND of two registers. -/
  | and (h : Head) (d a b : BitVec 5)
  /-- OR (R87): Bitwise OR of two registers. -/
  | or (h : Head) (d a b : BitVec 5)
  /-- XOR (R87): Bitwise XOR of two registers. -/
  | xor (h : Head) (d a b : BitVec 5)
  /-- ANDN (R87): Writes x AND NOT y. -/
  | andn (h : Head) (d a b : BitVec 5)
  /-- ANDI (R87): Bitwise AND with a sign-extended immediate. -/
  | andi (h : Head) (d a : BitVec 5) (i : BitVec 7) (ks : List (BitVec 28))
  /-- ORI (R87): Bitwise OR with a sign-extended immediate. -/
  | ori (h : Head) (d a : BitVec 5) (i : BitVec 7) (ks : List (BitVec 28))
  /-- XORI (R87): Bitwise XOR with a sign-extended immediate. -/
  | xori (h : Head) (d a : BitVec 5) (i : BitVec 7) (ks : List (BitVec 28))
  /-- SHL (R87): Shifts left by the low 6 bits of a register. -/
  | shl (h : Head) (d a b : BitVec 5)
  /-- SHR (R87): Shifts right logically by the low 6 bits of a register. -/
  | shr (h : Head) (d a b : BitVec 5)
  /-- SRA (R87): Shifts right arithmetically by the low 6 bits of a register. -/
  | sra (h : Head) (d a b : BitVec 5)
  /-- SHLI (R87): Shifts left by an immediate 0-63. -/
  | shli (h : Head) (d a : BitVec 5) (i : BitVec 7)
  /-- SHRI (R87): Shifts right logically by an immediate 0-63. -/
  | shri (h : Head) (d a : BitVec 5) (i : BitVec 7)
  /-- SRAI (R87): Shifts right arithmetically by an immediate 0-63. -/
  | srai (h : Head) (d a : BitVec 5) (i : BitVec 7)
  /-- ROTL (R87): Rotates left by the low 6 bits of a register. -/
  | rotl (h : Head) (d a b : BitVec 5)
  /-- CLZ (R87): Counts leading zero bits. -/
  | clz (h : Head) (d a : BitVec 5)
  /-- CTZ (R87): Counts trailing zero bits. -/
  | ctz (h : Head) (d a : BitVec 5)
  /-- POPC (R87): Counts one bits. -/
  | popc (h : Head) (d a : BitVec 5)
  /-- MIN (R87): Signed minimum. -/
  | min (h : Head) (d a b : BitVec 5)
  /-- MAX (R87): Signed maximum. -/
  | max (h : Head) (d a b : BitVec 5)
  /-- MINN (R87): Unsigned minimum. -/
  | minn (h : Head) (d a b : BitVec 5)
  /-- MAXN (R87): Unsigned maximum. -/
  | maxn (h : Head) (d a b : BitVec 5)
  /-- SEL (R87): Selects one of two registers by predicate p(4+m). -/
  | sel (h : Head) (d a b : BitVec 5) (m : BitVec 2)
  /-- CMPEQ (R91): Compares for equality into a predicate, optionally ANDed or ORed with it. -/
  | cmpeq (h : Head) (d a b : BitVec 5) (m : BitVec 2)
  /-- CMPNE (R91): Compares for inequality into a predicate. -/
  | cmpne (h : Head) (d a b : BitVec 5) (m : BitVec 2)
  /-- CMPLT (R91): Signed less-than compare into a predicate. -/
  | cmplt (h : Head) (d a b : BitVec 5) (m : BitVec 2)
  /-- CMPLTN (R91): Unsigned less-than compare into a predicate. -/
  | cmpltn (h : Head) (d a b : BitVec 5) (m : BitVec 2)
  /-- CMPGE (R91): Signed greater-or-equal compare into a predicate. -/
  | cmpge (h : Head) (d a b : BitVec 5) (m : BitVec 2)
  /-- CMPGEN (R91): Unsigned greater-or-equal compare into a predicate. -/
  | cmpgen (h : Head) (d a b : BitVec 5) (m : BitVec 2)
  /-- CMPEQI (R91): Compares a register with an immediate for equality into a predicate. -/
  | cmpeqi (h : Head) (d a : BitVec 5) (i : BitVec 7) (ks : List (BitVec 28))
  /-- CMPLTI (R91): Signed less-than compare with an immediate into a predicate. -/
  | cmplti (h : Head) (d a : BitVec 5) (i : BitVec 7) (ks : List (BitVec 28))
  /-- MOVI (R93): Writes a sign-extended long immediate. -/
  | movi (h : Head) (d : BitVec 5) (i : BitVec 12) (ks : List (BitVec 28))
  /-- MOVHI (R93): Writes the low 32 bits of an immediate into the upper half of a register. -/
  | movhi (h : Head) (d : BitVec 5) (i : BitVec 12) (ks : List (BitVec 28))
  /-- MADD (R88): Multiply-accumulates into the destination register. -/
  | madd (h : Head) (d a b : BitVec 5)
  /-- BFX (R90): Extracts a bit field, zero- or sign-extended. -/
  | bfx (h : Head) (d a b : BitVec 5) (m : BitVec 2)
  /-- BFI (R90): Inserts a bit field into the destination register. -/
  | bfi (h : Head) (d a b : BitVec 5)
  /-- SEXT (R87): Sign-extends from an immediate width. -/
  | sext (h : Head) (d a : BitVec 5) (i : BitVec 7)
  /-- ZEXT (R87): Zero-extends from an immediate width. -/
  | zext (h : Head) (d a : BitVec 5) (i : BitVec 7)
  /-- PAND (R92): AND of two predicates. -/
  | pand (h : Head) (d a b : BitVec 5)
  /-- POR (R92): OR of two predicates. -/
  | por (h : Head) (d a b : BitVec 5)
  /-- PXOR (R92): XOR of two predicates. -/
  | pxor (h : Head) (d a b : BitVec 5)
  /-- PANDN (R92): AND NOT of two predicates. -/
  | pandn (h : Head) (d a b : BitVec 5)
  /-- PMOV (R92): Copies or inverts a predicate. -/
  | pmov (h : Head) (d a : BitVec 5) (m : BitVec 2)
  /-- NSET (R94): Writes selected fields of a tensor handle from a register. -/
  | nset (h : Head) (d a : BitVec 5) (i : BitVec 7)
  /-- NADV (R94): Advances tensor-handle coordinates by STEP and by a register. -/
  | nadv (h : Head) (d a : BitVec 5) (i : BitVec 7)
  /-- NGET (R94): Reads selected tensor-handle fields into a register. -/
  | nget (h : Head) (d a : BitVec 5) (i : BitVec 7)
  /-- CNTRD (R95): Reads a cycle, bundle, time, run-limit or stall counter. -/
  | cntrd (h : Head) (d : BitVec 5) (i : BitVec 7)
  /-- MOVS_S_FROM_F (R96): Copies the flag register into a scalar register. -/
  | movsSFromF (h : Head) (d : BitVec 5)
  /-- MOVS_F_FROM_S (R96): Writes the flag register from a scalar register. -/
  | movsFFromS (h : Head) (a : BitVec 5)
  /-- MOVS_S_FROM_P (R96): Copies the predicates into a scalar register. -/
  | movsSFromP (h : Head) (d : BitVec 5)
  /-- MOVS_P_FROM_S (R96): Writes predicates 1-15 from a scalar register. -/
  | movsPFromS (h : Head) (a : BitVec 5)
  /-- MOVS_S_FROM_L_LO (R96): Copies the low half of a lane mask to a scalar register. -/
  | movsSFromLLo (h : Head) (d a : BitVec 5)
  /-- MOVS_S_FROM_L_HI (R96): Copies the high half of a lane mask to a scalar register. -/
  | movsSFromLHi (h : Head) (d a : BitVec 5)
  /-- MOVS_L_LO_FROM_S (R96): Writes the low half of a lane mask from a scalar register. -/
  | movsLLoFromS (h : Head) (d a : BitVec 5)
  /-- MOVS_L_HI_FROM_S (R96): Writes the high half of a lane mask from a scalar register. -/
  | movsLHiFromS (h : Head) (d a : BitVec 5)
  /-- LDB (R112): Loads a zero-extended byte. -/
  | ldb (h : Head) (d a : BitVec 5) (i : BitVec 7) (ks : List (BitVec 28))
  /-- LDH (R112): Loads a zero-extended halfword. -/
  | ldh (h : Head) (d a : BitVec 5) (i : BitVec 7) (ks : List (BitVec 28))
  /-- LDW (R112): Loads a zero-extended word. -/
  | ldw (h : Head) (d a : BitVec 5) (i : BitVec 7) (ks : List (BitVec 28))
  /-- LDD (R112): Loads a doubleword. -/
  | ldd (h : Head) (d a : BitVec 5) (i : BitVec 7) (ks : List (BitVec 28))
  /-- STB (R112): Stores a byte into the SCB. -/
  | stb (h : Head) (d a : BitVec 5) (i : BitVec 7) (ks : List (BitVec 28))
  /-- STH (R112): Stores a halfword into the SCB. -/
  | sth (h : Head) (d a : BitVec 5) (i : BitVec 7) (ks : List (BitVec 28))
  /-- STW (R112): Stores a word into the SCB. -/
  | stw (h : Head) (d a : BitVec 5) (i : BitVec 7) (ks : List (BitVec 28))
  /-- STD (R112): Stores a doubleword into the SCB. -/
  | std (h : Head) (d a : BitVec 5) (i : BitVec 7) (ks : List (BitVec 28))
  /-- LDV (R115): Loads 512 contiguous bytes into a vector register. -/
  | ldv (h : Head) (d a : BitVec 5) (i : BitVec 7) (md : Option (BitVec 28))
  /-- STV (R115): Stores a vector register to 512 contiguous bytes. -/
  | stv (h : Head) (d a : BitVec 5) (i : BitVec 7) (md : Option (BitVec 28))
  /-- LDVS (R116): Strided vector load of 32- or 64-bit elements. -/
  | ldvs (h : Head) (d a b : BitVec 5) (m : BitVec 2) (md : Option (BitVec 28))
  /-- STVS (R116): Strided vector store. -/
  | stvs (h : Head) (d a b : BitVec 5) (m : BitVec 2) (md : Option (BitVec 28))
  /-- LDVG (R116): Vector gather using vector indices. -/
  | ldvg (h : Head) (d a b : BitVec 5) (m : BitVec 2) (md : Option (BitVec 28))
  /-- STVG (R116): Vector scatter using vector indices. -/
  | stvg (h : Head) (d a b : BitVec 5) (m : BitVec 2) (md : Option (BitVec 28))
  /-- LDQ (R117): Loads 512 bytes of own LSP into a scale register. -/
  | ldq (h : Head) (d a : BitVec 5) (i : BitVec 7)
  /-- TLD (R118): Loads tensor elements along dimension 0 from the handle's coordinates. -/
  | tld (h : Head) (d a : BitVec 5) (md : Option (BitVec 28))
  /-- TST (R118): Stores tensor elements, through a shadow frame where protection or an X/SIX grant requires. -/
  | tst (h : Head) (d a : BitVec 5) (md : Option (BitVec 28))
  /-- PREF_ADDRESS (R119): Prefetches the translation of an address and wakes its memory unit. -/
  | prefAddress (h : Head) (a : BitVec 5) (i : BitVec 7) (ks : List (BitVec 28))
  /-- PREF_HANDLE (R119): Prefetches the translation of a tensor handle's element. -/
  | prefHandle (h : Head) (a : BitVec 5)
  /-- FENCE (R139): Places an SCB marker ordering later accesses on the AFT paths after earlier accesses on the BEF paths. -/
  | fence (h : Head) (b f : BitVec 6)
  /-- DRAIN (R142): In a checkpoint bundle, stalls until the context's writes on the named paths are visible at the named scope. -/
  | drain (h : Head) (p : BitVec 6) (s : BitVec 3)
  /-- AADD (R255): Atomic add at the home, returning the old value when d is nonzero. -/
  | aadd (h : Head) (d a b : BitVec 5) (m : BitVec 2)
  /-- AAND (R255): Atomic AND at the home. -/
  | aand (h : Head) (d a b : BitVec 5) (m : BitVec 2)
  /-- AOR (R255): Atomic OR at the home. -/
  | aor (h : Head) (d a b : BitVec 5) (m : BitVec 2)
  /-- AXOR (R255): Atomic XOR at the home. -/
  | axor (h : Head) (d a b : BitVec 5) (m : BitVec 2)
  /-- AMIN (R255): Atomic signed minimum at the home. -/
  | amin (h : Head) (d a b : BitVec 5) (m : BitVec 2)
  /-- AMAX (R255): Atomic signed maximum at the home. -/
  | amax (h : Head) (d a b : BitVec 5) (m : BitVec 2)
  /-- AMINN (R255): Atomic unsigned minimum at the home. -/
  | aminn (h : Head) (d a b : BitVec 5) (m : BitVec 2)
  /-- AMAXN (R255): Atomic unsigned maximum at the home. -/
  | amaxn (h : Head) (d a b : BitVec 5) (m : BitVec 2)
  /-- AXCHG (R255): Atomic exchange at the home. -/
  | axchg (h : Head) (d a b : BitVec 5) (m : BitVec 2)
  /-- ACAS (R255): Atomic compare-and-swap at the home, returning the old value. -/
  | acas (h : Head) (d a b : BitVec 5) (m : BitVec 2)
  /-- VAADD (R257): Contained per-lane atomic add to gathered addresses. -/
  | vaadd (h : Head) (d a b : BitVec 5) (m : BitVec 2) (md : Option (BitVec 28))
  /-- VAOR (R257): Contained per-lane atomic OR to gathered addresses. -/
  | vaor (h : Head) (d a b : BitVec 5) (m : BitVec 2) (md : Option (BitVec 28))
  /-- VAMAX (R257): Contained per-lane atomic maximum to gathered addresses. -/
  | vamax (h : Head) (d a b : BitVec 5) (m : BitVec 2) (md : Option (BitVec 28))
  /-- CADD (R258): Contained saturating add to a monotonic counter; a release of the CORE path. -/
  | cadd (h : Head) (a b : BitVec 5)
  /-- WAITGE (R259): Waits until a counter at its home reaches a threshold; an acquire. -/
  | waitge (h : Head) (d a b : BitVec 5)
  /-- BINIT (R261): Contained reinitialisation of a barrier object's expected count, clearing arrivals, break and overrun. -/
  | binit (h : Head) (a b : BitVec 5)
  /-- BARV (R262): Arrives at a barrier with a count, completing a phase when arrivals reach the expected number. -/
  | barv (h : Head) (d a : BitVec 5) (i : BitVec 7)
  /-- BWAIT (R263): Waits for a barrier phase change, with an optional bound, returning a status. -/
  | bwait (h : Head) (d a b : BitVec 5)
  /-- OBRK_BARRIER (R264): Contained break of a barrier object, waking its waiters with status 3. -/
  | obrkBarrier (h : Head) (a : BitVec 5)
  /-- OBRK_RING (R264): Contained break of the ring of a handle, waking waiters and stopping subscriptions. -/
  | obrkRing (h : Head) (a : BitVec 5)
  /-- LKREQ (R283): Requests a lock mode at the home LKM, queuing and parking when it cannot be granted. -/
  | lkreq (h : Head) (d a b : BitVec 5)
  /-- LKTRY (R283): Requests a lock mode without queuing, returning BUSY when not grantable. -/
  | lktry (h : Head) (d a b : BitVec 5)
  /-- LKESC (R283): Escalates a held lock mode along a permitted path, waiting ahead of waiters. -/
  | lkesc (h : Head) (d a b : BitVec 5)
  /-- LKDWN (R284): Contained downgrade of a held lock mode, committing shadow frames when write coverage is lost. -/
  | lkdwn (h : Head) (a b : BitVec 5)
  /-- LKREL (R284): Contained release of one lock and its descendants, committing their shadow frames. -/
  | lkrel (h : Head) (a b : BitVec 5)
  /-- LKREL_ALL (R284): Contained release of every grant and waiting request of the context. -/
  | lkrelAll (h : Head)
  /-- LKQRY (R283): Queries a lock object's holders, waiters and the context's mode. -/
  | lkqry (h : Head) (d a b : BitVec 5)
  /-- VADD (R163): Floating-point vector add. -/
  | vadd (h : Head) (d a b : BitVec 5) (m : BitVec 2) (md : Option (BitVec 28))
  /-- VSUB (R163): Floating-point vector subtract. -/
  | vsub (h : Head) (d a b : BitVec 5) (m : BitVec 2) (md : Option (BitVec 28))
  /-- VMUL (R163): Floating-point vector multiply. -/
  | vmul (h : Head) (d a b : BitVec 5) (m : BitVec 2) (md : Option (BitVec 28))
  /-- VFMA (R163): Fused multiply-add into the destination. -/
  | vfma (h : Head) (d a b : BitVec 5) (m : BitVec 2) (md : Option (BitVec 28))
  /-- VFMS (R163): Fused multiply-subtract. -/
  | vfms (h : Head) (d a b : BitVec 5) (m : BitVec 2) (md : Option (BitVec 28))
  /-- VFNMA (R163): Fused negated multiply-add. -/
  | vfnma (h : Head) (d a b : BitVec 5) (m : BitVec 2) (md : Option (BitVec 28))
  /-- VMIN (R163): Floating-point minimum, exact. -/
  | vmin (h : Head) (d a b : BitVec 5) (m : BitVec 2) (md : Option (BitVec 28))
  /-- VMAX (R163): Floating-point maximum, exact. -/
  | vmax (h : Head) (d a b : BitVec 5) (m : BitVec 2) (md : Option (BitVec 28))
  /-- VABS (R163): Clears the sign of each element. -/
  | vabs (h : Head) (d a : BitVec 5) (m : BitVec 2) (md : Option (BitVec 28))
  /-- VNEG (R163): Inverts the sign of each element. -/
  | vneg (h : Head) (d a : BitVec 5) (m : BitVec 2) (md : Option (BitVec 28))
  /-- VDIV (R163): Interlocked floating-point divide. -/
  | vdiv (h : Head) (d a b : BitVec 5) (m : BitVec 2) (md : Option (BitVec 28))
  /-- VSQRT (R163): Interlocked square root. -/
  | vsqrt (h : Head) (d a : BitVec 5) (m : BitVec 2) (md : Option (BitVec 28))
  /-- VRCP (R163): Interlocked reciprocal. -/
  | vrcp (h : Head) (d a : BitVec 5) (m : BitVec 2) (md : Option (BitVec 28))
  /-- VRSQ (R163): Interlocked reciprocal square root. -/
  | vrsq (h : Head) (d a : BitVec 5) (m : BitVec 2) (md : Option (BitVec 28))
  /-- VEXP (R163): Interlocked correctly rounded exponential. -/
  | vexp (h : Head) (d a : BitVec 5) (m : BitVec 2) (md : Option (BitVec 28))
  /-- VLOG (R163): Interlocked correctly rounded natural logarithm. -/
  | vlog (h : Head) (d a : BitVec 5) (m : BitVec 2) (md : Option (BitVec 28))
  /-- VTANH (R163): Interlocked correctly rounded hyperbolic tangent. -/
  | vtanh (h : Head) (d a : BitVec 5) (m : BitVec 2) (md : Option (BitVec 28))
  /-- VCVT (R167): Converts elements between a format and a pivot format, with saturation and flush counting. -/
  | vcvt (h : Head) (d a : BitVec 5) (x : BitVec 4) (p : BitVec 2) (r : BitVec 1) (md : Option (BitVec 28))
  /-- VCMP (R168): Compares elements and writes the result to lane mask FM. -/
  | vcmp (h : Head) (c : BitVec 3) (f : BitVec 1) (a b : BitVec 5) (m : BitVec 2) (md : BitVec 28)
  /-- VSEL (R169): Selects lanes of two vectors by a lane mask. -/
  | vsel (h : Head) (d a b : BitVec 5) (md : Option (BitVec 28))
  /-- VIADD (R165): Integer vector add, wrapping or saturating. -/
  | viadd (h : Head) (d a b : BitVec 5) (m : BitVec 2) (md : Option (BitVec 28))
  /-- VISUB (R165): Integer vector subtract. -/
  | visub (h : Head) (d a b : BitVec 5) (m : BitVec 2) (md : Option (BitVec 28))
  /-- VIMUL (R165): Integer vector multiply. -/
  | vimul (h : Head) (d a b : BitVec 5) (m : BitVec 2) (md : Option (BitVec 28))
  /-- VIMULH (R165): High half of the integer vector product. -/
  | vimulh (h : Head) (d a b : BitVec 5) (m : BitVec 2) (md : Option (BitVec 28))
  /-- VAND (R165): Bitwise vector AND. -/
  | vand (h : Head) (d a b : BitVec 5) (md : Option (BitVec 28))
  /-- VOR (R165): Bitwise vector OR. -/
  | vor (h : Head) (d a b : BitVec 5) (md : Option (BitVec 28))
  /-- VXOR (R165): Bitwise vector XOR. -/
  | vxor (h : Head) (d a b : BitVec 5) (md : Option (BitVec 28))
  /-- VSHL (R165): Per-element left shift. -/
  | vshl (h : Head) (d a b : BitVec 5) (m : BitVec 2) (md : Option (BitVec 28))
  /-- VSHR (R165): Per-element logical right shift. -/
  | vshr (h : Head) (d a b : BitVec 5) (m : BitVec 2) (md : Option (BitVec 28))
  /-- VSRA (R165): Per-element arithmetic right shift. -/
  | vsra (h : Head) (d a b : BitVec 5) (m : BitVec 2) (md : Option (BitVec 28))
  /-- VIMIN (R165): Integer vector minimum. -/
  | vimin (h : Head) (d a b : BitVec 5) (m : BitVec 2) (md : Option (BitVec 28))
  /-- VIMAX (R165): Integer vector maximum. -/
  | vimax (h : Head) (d a b : BitVec 5) (m : BitVec 2) (md : Option (BitVec 28))
  /-- VPOPC (R165): Per-element population count. -/
  | vpopc (h : Head) (d a : BitVec 5) (m : BitVec 2) (md : Option (BitVec 28))
  /-- VCLZ (R165): Per-element leading-zero count. -/
  | vclz (h : Head) (d a : BitVec 5) (m : BitVec 2) (md : Option (BitVec 28))
  /-- VPERM (R170): Permutes elements by a vector of indices. -/
  | vperm (h : Head) (d a b : BitVec 5) (m : BitVec 2) (md : Option (BitVec 28))
  /-- VBCAST (R170): Broadcasts a scalar into active elements. -/
  | vbcast (h : Head) (d a : BitVec 5) (m : BitVec 2) (md : Option (BitVec 28))
  /-- VEXT (R170): Extracts an element into a scalar register. -/
  | vext (h : Head) (d a b : BitVec 5) (m : BitVec 2)
  /-- VINS (R170): Inserts a scalar into one element. -/
  | vins (h : Head) (d a b : BitVec 5) (m : BitVec 2)
  /-- VIOTA (R170): Writes an arithmetic sequence into active elements. -/
  | viota (h : Head) (d a b : BitVec 5) (m : BitVec 2) (md : Option (BitVec 28))
  /-- VSLIDE (R170): Slides lanes down by an immediate, filling from the old destination. -/
  | vslide (h : Head) (d a : BitVec 5) (i : BitVec 7) (md : Option (BitVec 28))
  /-- VRED (R171): Reduces elements by a fixed tree into element 0. -/
  | vred (h : Head) (d a b : BitVec 5) (m : BitVec 2) (md : Option (BitVec 28))
  /-- VSCAN (R171): Computes an ascending inclusive scan. -/
  | vscan (h : Head) (d a b : BitVec 5) (m : BitVec 2) (md : Option (BitVec 28))
  /-- VMOV (R170): Moves lanes between vector and scale registers. -/
  | vmov (h : Head) (d a : BitVec 5) (m : BitVec 2) (md : Option (BitVec 28))
  /-- VCOMP (R170): Compresses active elements to the low end, zeroing the rest. -/
  | vcomp (h : Head) (d a : BitVec 5) (m : BitVec 2) (md : Option (BitVec 28))
  /-- LMAND (R172): AND of two lane masks. -/
  | lmand (h : Head) (d a b : BitVec 5)
  /-- LMOR (R172): OR of two lane masks. -/
  | lmor (h : Head) (d a b : BitVec 5)
  /-- LMNOT (R172): Inverts a lane mask. -/
  | lmnot (h : Head) (d a : BitVec 5)
  /-- LMPOP (R172): Counts the set bits of a lane mask into a scalar. -/
  | lmpop (h : Head) (d a : BitVec 5)
  /-- VSIG (R173): Folds a vector into a 64-bit signature and, when protected, into SIGHI. -/
  | vsig (h : Head) (d a : BitVec 5)
  /-- LXADD (R186): Level-index addition by the bit-exact reference. -/
  | lxadd (h : Head) (d a b : BitVec 5) (m : BitVec 2) (md : Option (BitVec 28))
  /-- LXSUB (R186): Level-index subtraction by the bit-exact reference. -/
  | lxsub (h : Head) (d a b : BitVec 5) (m : BitVec 2) (md : Option (BitVec 28))
  /-- LXMUL (R187): Level-index multiplication through logarithms. -/
  | lxmul (h : Head) (d a b : BitVec 5) (m : BitVec 2) (md : Option (BitVec 28))
  /-- LXDIV (R187): Level-index division through logarithms. -/
  | lxdiv (h : Head) (d a b : BitVec 5) (m : BitVec 2) (md : Option (BitVec 28))
  /-- LXCVT (R190): Converts between IEEE formats and LX32 or LX16. -/
  | lxcvt (h : Head) (d a : BitVec 5) (x : BitVec 4) (w r : BitVec 1) (md : Option (BitVec 28))
  /-- LXCMP (R191): Compares level-index elements into lane mask FM. -/
  | lxcmp (h : Head) (c : BitVec 3) (a b : BitVec 5) (m : BitVec 2) (md : BitVec 28)
  /-- LXSUM (R192): Tree-reduces all level-index elements into element 0. -/
  | lxsum (h : Head) (d a : BitVec 5) (m : BitVec 2) (md : Option (BitVec 28))
  /-- LXLN (R193): Writes the FP32 natural logarithm of level-index magnitudes. -/
  | lxln (h : Head) (d a : BitVec 5) (m : BitVec 2) (md : Option (BitVec 28))
  /-- XWLD (R212): Loads a weight buffer from an LSP image and forms its checksum column. -/
  | xwld (h : Head) (a b : BitVec 5) (m : BitVec 2)
  /-- XMAC (R213): Accumulates one k-step of A times a weight buffer into initialised rows of a chain. -/
  | xmac (h : Head) (a : BitVec 5) (ds : BitVec 28)
  /-- XMACZ (R213): Performs one k-step that overwrites the named rows. -/
  | xmacz (h : Head) (a : BitVec 5) (ds : BitVec 28)
  /-- XBEGIN (R207): Opens a matrix chain and sets MXCFG.CHN. -/
  | xbegin (h : Head)
  /-- XEND (R207): Closes a matrix chain. -/
  | xend (h : Head)
  /-- XEPI (R215): Checks, scales, activates and converts accumulator rows into an asynchronous store command. -/
  | xepi (h : Head) (a b : BitVec 5) (ds : BitVec 28)
  /-- XACCLD (R214): Loads raw accumulator rows from memory and rebuilds their checksums. -/
  | xaccld (h : Head) (a b : BitVec 5) (ds : BitVec 28)
  /-- XACCST (R214): Stores raw accumulator rows as an asynchronous command after the checksum check. -/
  | xaccst (h : Head) (a b : BitVec 5) (ds : BitVec 28)
  /-- XCHK (R217): Compares accumulator checksums and returns a status word after 40 engine steps. -/
  | xchk (h : Head) (d : BitVec 5) (ds : BitVec 28)
  /-- XFIX (R218): Corrects a single located accumulator entry from the checksum row. -/
  | xfix (h : Head) (d a : BitVec 5)
  /-- XCLR (R219): Zeroes the named accumulator rows and adjusts their checksums. -/
  | xclr (h : Head) (ds : BitVec 28)
  /-- XCFG (R220): Writes MXCFG from a register, landing after 1 bundle. -/
  | xcfg (h : Head) (a : BitVec 5)
  /-- CPY_HANDLE (R231): Copy command moving a tensor box between the tensor and the LSP. -/
  | cpyHandle (h : Head) (d a b : BitVec 5)
  /-- CPY_ADDRESS (R231): Copy command moving bytes between an address and the LSP. -/
  | cpyAddress (h : Head) (d a b : BitVec 5)
  /-- CPYP_HANDLE (R232): Copy command transposing a tensor box to or from plane blocks. -/
  | cpypHandle (h : Head) (d a b : BitVec 5)
  /-- CPYP_ADDRESS (R232): Copy command transposing row-major bytes at an address into plane blocks. -/
  | cpypAddress (h : Head) (d a b : BitVec 5)
  /-- CPYW (R235): Command streaming and decompressing a weight image into a weight buffer. -/
  | cpyw (h : Head) (a b : BitVec 5)
  /-- SUBS_LOAD (R241): Command subscribing a CUP loader to the producer side of a ring. -/
  | subsLoad (h : Head) (d a b : BitVec 5)
  /-- SUBS_STORE (R241): Command subscribing a CUP storer to the consumer side of a ring. -/
  | subsStore (h : Head) (d a b : BitVec 5)
  /-- SUBE (R242): Command stopping every subscription on a ring with a clean completion. -/
  | sube (h : Head) (d : BitVec 5)
  /-- HSET (R238): Binds a ring handle from a ring-table entry, interlocked. -/
  | hset (h : Head) (d a : BitVec 5)
  /-- HWAIT (R239): Waits until a ring has n filled or free slots, or is broken. -/
  | hwait (h : Head) (d a : BitVec 5) (i : BitVec 7)
  /-- HADV (R240): Command advancing the context's ring count by n at the bank unit. -/
  | hadv (h : Head) (a : BitVec 5) (i : BitVec 7)
  /-- TSPAWN (R308): Command queuing a task record on a cluster of the kernel. -/
  | tspawn (h : Head) (d a b : BitVec 5)
  /-- KLAUNCH (R309): Command launching a kernel from a packet in memory ahead of unfetched host packets. -/
  | klaunch (h : Head) (a : BitVec 5)
  /-- COLL (R243): Command joining an all-reduce, all-gather or reduce-scatter of a group. -/
  | coll (h : Head) (d a b : BitVec 5)
  /-- FPUT (R244): Command writing bytes to another package's memory. -/
  | fput (h : Head) (d a b : BitVec 5)
  /-- QSTAT (R245): Reads ring counts or engine-fault queue state; selector 10 removes the head record. -/
  | qstat (h : Head) (d a : BitVec 5) (i : BitVec 7)
  /-- CKPT (R337): Makes its bundle a checkpoint bundle that closes the interval and takes a checkpoint copy. -/
  | ckpt (h : Head)
  /-- CMPT (R338): Compares two registers and raises CMPTFAIL when they differ. -/
  | cmpt (h : Head) (a b : BitVec 5) (m : BitVec 2)
  /-- SIGRD (R339): Reads the current or captured interval signature after all folds are applied. -/
  | sigrd (h : Head) (d : BitVec 5) (m : BitVec 2)
  /-- PHINT (R350): Names a liveness entry and live registers; with a pending pre-emption it is the save point. -/
  | phint (h : Head) (i : BitVec 12) (k1 k2 : BitVec 28)
  /-- CSRR (R354): Reads a CSR into a scalar register. -/
  | csrr (h : Head) (d : BitVec 5) (i : BitVec 12)
  /-- CSRW (R354): Writes a CSR from a scalar register. -/
  | csrw (h : Head) (d : BitVec 5) (i : BitVec 12)
  /-- CSRS (R354): Sets CSR bits from a scalar register. -/
  | csrs (h : Head) (d : BitVec 5) (i : BitVec 12)
  /-- CSRC (R354): Clears CSR bits from a scalar register. -/
  | csrc (h : Head) (d : BitVec 5) (i : BitVec 12)
  /-- ERET_RESTORE (R355): Leaves handler mode, restoring the trap copy after agreement. -/
  | eretRestore (h : Head)
  /-- ERET_CONTINUE (R355): Leaves handler mode at a register target, keeping the handler's registers. -/
  | eretContinue (h : Head) (a : BitVec 5)
  /-- SYSC (R356): Makes a checkpoint bundle and then takes the SYSC trap with its code. -/
  | sysc (h : Head) (i : BitVec 12)
  /-- STEP (R358): Contained raise of STEPNO, reported to the IOC. -/
  | step (h : Head) (a : BitVec 5)
  /-- ABORT (R357): Makes a checkpoint bundle and sends an ABORT token for a collective group. -/
  | abort (h : Head) (a : BitVec 5)
  /-- TTINV_TILE (R359): Drops the cached translation of one tile in the package. -/
  | ttinvTile (h : Head) (a b : BitVec 5)
  /-- TTINV_TENSOR (R359): Drops the cached translations of one tensor. -/
  | ttinvTensor (h : Head) (a : BitVec 5)
  /-- TTINV_ASID (R359): Drops the cached translations of the context's ASID. -/
  | ttinvAsid (h : Head)
  /-- TTINV_ALL (R359): Drops every cached translation of the package. -/
  | ttinvAll (h : Head)
  /-- ICINV_CORE (R360): Drops overlapping instruction-cache lines in the own core. -/
  | icinvCore (h : Head) (a b : BitVec 5)
  /-- ICINV_PKG (R360): Drops overlapping instruction-cache lines in every core of the package. -/
  | icinvPkg (h : Head) (a b : BitVec 5)
  /-- ATTQ (R361): Command asking the MSC for a signed attestation quote, setting a flag on completion. -/
  | attq (h : Head) (d a b : BitVec 5)
  /-- CLOCK_RESTART (R65): A gated core restarts its clock when a context becomes ready and the sorted batch head issues. -/
  | clockRestart (core : Nat)
  /-- RUN_LIMIT_DUE (R66): The run-limit counter falls to RUNLIM/8, so the next checkpoint bundle ends the run. -/
  | runLimitDue (g : Nat)
  /-- RUN_LIMIT_EXPIRY (R66): The run-limit counter reaches 0: an implicit checkpoint in class 0, RUNLIMIT in classes 1 and 2. -/
  | runLimitExpiry (g : Nat)
  /-- EXPOSED_RESULT_LAND (R62): An exposed result lands after its latency, with residue or shadow checks and poisoned-load traps. -/
  | exposedResultLand (g : Nat)
  /-- INTERLOCKED_RESULT_LAND (R63): An interlocked result arrives and clears its scoreboard entry, releasing stalled bundles. -/
  | interlockedResultLand (g k : Nat)
  /-- WAIT_WAKE (R68): A change to a watched object re-evaluates a parked wait and makes the context READY. -/
  | waitWake (g : Nat)
  /-- RETURNING_OP_COMPLETE (R248): A returning atomic or BARV is performed after its interval agrees, its value lands and a new interval opens. -/
  | returningOpComplete (g : Nat)
  /-- DRAIN_COMPLETE (R142): The drain stall ends once every named write is visible at its scope. -/
  | drainComplete (g : Nat)
  /-- TTINV_ACKNOWLEDGE (R359): Every cache acknowledges a TTINV and the stalled bundle continues. -/
  | ttinvAcknowledge (g : Nat)
  /-- ICINV_ACKNOWLEDGE (R360): The instruction-cache drop is acknowledged and the stalled bundle continues. -/
  | icinvAcknowledge (g : Nat)
  /-- LOCK_ANSWER (R283): The home LKM's answer to a lock request arrives and its status lands. -/
  | lockAnswer (g : Nat)
  /-- GRANT_CACHE_REFILL (R279): A grant-cache miss is refilled from the home LKM and the access check is made. -/
  | grantCacheRefill (g : Nat)
  /-- MIGRATION_WALK_RETRY (R109): A walk that found a moving leaf repeats until it finds M clear. -/
  | migrationWalkRetry (g : Nat)
  /-- WEIGHT_BUFFER_CURRENT (R212): A weight buffer becomes current 72 engine steps after XWLD, or raises PERMISSION for a bad 2:4 mask. -/
  | weightBufferCurrent (core k : Nat)
  /-- MATRIX_ROWS_LAND (R221): Rows and checksums of an XMAC, XMACZ or XCLR land and matrix folds are made. -/
  | matrixRowsLand (core k : Nat)
  /-- XACCLD_ROWS_ARRIVE (R214): XACCLD data arrives and replaces the named rows with checksums rebuilt. -/
  | xaccldRowsArrive (core k : Nat)
  /-- XCHK_COMPLETE (R217): The XCHK status lands in its destination after 40 engine steps. -/
  | xchkComplete (core k : Nat)
  /-- XFIX_COMPLETE (R218): XFIX writes its code and any corrected entry after 40 engine steps, raising suspicion by 4. -/
  | xfixComplete (core k : Nat)
  /-- XEPI_CHECK (R215): The automatic checksum check of XEPI or XACCST after reading rows, trapping CHECKSUM on failure. -/
  | xepiCheck (core k : Nat)
  /-- OUTPUT_STAGE_COMPLETE (R214): An XACCST or XEPI payload is visible at PKG scope and its completion flag is set. -/
  | outputStageComplete (c : Nat)
  /-- SCB_RELEASE (R135): An agreed SCB entry is released in entry order and performed at its home or started at its engine. -/
  | scbRelease (g : Nat)
  /-- INTERVAL_AGREEMENT (R327): The CMPE reports that a class 1 interval's checks passed and the interval agrees. -/
  | intervalAgreement (g : Nat)
  /-- SIGNATURE_ARRIVAL (R328): A twin's interval signature reaches the primary's CMPE and is compared with its partner's. -/
  | signatureArrival (g : Nat)
  /-- TWIN_SKEW_EXPIRY (R328): The 2 µs twin-skew bound expires and agreement fails. -/
  | twinSkewExpiry (g : Nat)
  /-- RE_EXECUTION_START (R331): The save engine moves a failed task to a third SPC that fits and it resumes there. -/
  | reExecutionStart (g : Nat)
  /-- VOTE (R331): The third context's signature is voted against the twins' and the loser takes the winner's state. -/
  | vote (g : Nat)
  /-- SCORE_HALVING (R332): Every whole hour the MSC halves every core's suspicion score. -/
  | scoreHalving
  /-- LEASE_EXPIRY (R276): An INC lease expires: the grant is revoked and the holder takes LEASE. -/
  | leaseExpiry (lkm k : Nat)
  /-- BWAIT_BOUND_EXPIRY (R263): A BWAIT bound expires and the wait is evaluated against the object as it stands. -/
  | bwaitBoundExpiry (g : Nat)
  /-- ABSENT_TILE_REWALK (R422): A command waiting on an absent tile walks again after a TTINV or every 10 µs. -/
  | absentTileRewalk (c : Nat)
  /-- COPY_COMPLETE (R229): A copy command finishes, setting its flag and counter or ending with an engine fault. -/
  | copyComplete (c : Nat)
  /-- CPYW_COMPLETE (R235): The decompressor makes the weight buffer current and sets the command's completion. -/
  | cpywComplete (c : Nat)
  /-- LOADER_SLOT_STEP (R241): A loader subscription fills a free ring slot and advances PCNT. -/
  | loaderSlotStep (c : Nat)
  /-- STORER_SLOT_STEP (R241): A storer subscription drains a filled ring slot to the tensor and advances CCNT. -/
  | storerSlotStep (c : Nat)
  /-- KLAUNCH_PACKET_READ (R309): The QSCH reads a released KLAUNCH packet and inserts it into the launching kernel's slot. -/
  | klaunchPacketRead (c : Nat)
  /-- COLL_COMPLETE (R243): A collective finishes and its completion is released at SYS scope. -/
  | collComplete (c : Nat)
  /-- COLL_FLIT_RECEIVE (R382): A collective flit arrives and its group size and peer check are verified. -/
  | collFlitReceive (grp rank seq gsize check op : Nat) (data : List Byte)
  /-- FPUT_COMPLETE (R244): A remote put finishes and its completion is released at SYS scope. -/
  | fputComplete (c : Nat)
  /-- QUOTE_COMPLETE (R361): The MSC writes a signed quote and sets its flag or DONE. -/
  | quoteComplete
  /-- DOORBELL_WRITE (R289): A host doorbell write publishes WC and maps the queue onto a slot or records it as pending. -/
  | doorbellWrite (u : Nat) (wc : Word)
  /-- SLOT_IDLE_TIMEOUT (R289): A slot idle for 100 µs writes back its state to RCWB and becomes FREE. -/
  | slotIdleTimeout (n : Nat)
  /-- QSCH_TURN_END (R297): A slot's scheduling turn ends after QSLICE µs. -/
  | qschTurnEnd (ioc : Nat)
  /-- PACKET_LAUNCH (R295): A fetched LAUNCH packet waits as its flags require and then launches a kernel. -/
  | packetLaunch (n : Nat)
  /-- PACKET_WAIT (R295): A fetched WAIT packet holds its slot until a counter reaches a value. -/
  | packetWait (n : Nat)
  /-- PACKET_SIGNAL (R295): A fetched SIGNAL packet performs a CADD on the signal counter. -/
  | packetSignal (n : Nat)
  /-- PACKET_MARKER (R295): A fetched MARKER packet updates the delta state and waits for earlier kernels. -/
  | packetMarker (n : Nat)
  /-- QSCH_WAIT_SATISFIED (R295): A waiting slot's counter reaches its threshold and the packet continues. -/
  | qschWaitSatisfied (n : Nat)
  /-- MARKER_EFFECT (R295): Once earlier kernels completed, the MARKER's signal CADD and interrupt are performed. -/
  | markerEffect (n : Nat)
  /-- KERNEL_PLACEMENT (R298): Free clusters are found, the spad image copied, rings registered and initial tasks queued. -/
  | kernelPlacement (n : Nat)
  /-- KERNEL_COMPLETE (R301): The last task of a kernel ends and the record, signal, interrupt and cluster release follow. -/
  | kernelComplete (k : Nat)
  /-- QUEUE_RESET (R290): A QSRST write with RST clears WC, RC and the delta state and returns the slot to IDLE. -/
  | queueReset (n : Nat)
  /-- QUEUE_RESET_UNMAP (R290): A QSRST write with RST and UNMAP also frees the slot without saving state. -/
  | queueResetUnmap (n : Nat)
  /-- TASK_DISPATCH (R304): A cluster places a queued task on a fitting core and starts it with its initial state. -/
  | taskDispatch (cl : Nat)
  /-- DEPENDENCE_RELEASE (R303): A pooled record's counter reaches its threshold and the record moves to its FIFO. -/
  | dependenceRelease (cl k : Nat)
  /-- SPILL_BUFFER_DRAIN (R303): A record leaves the package spill buffer for its queue as space frees. -/
  | spillBufferDrain (k : Nat)
  /-- GANG_INSTANT (R312): A slice-table instant arrives and tenants are switched. -/
  | gangInstant (ioc i : Nat)
  /-- PRQ_GO (R347): A PRQ write with GO requests pre-emption of a context. -/
  | prqGo (ioc g : Nat)
  /-- PREEMPT_DEADLINE_FIRST (R348): DL ns after the request, the next checkpoint bundle saves the whole context. -/
  | preemptDeadlineFirst (g : Nat)
  /-- PREEMPT_DEADLINE_SECOND (R348): A further DL ns without a checkpoint takes PREEMPT and saves the rolled-back context. -/
  | preemptDeadlineSecond (g : Nat)
  /-- PARKED_SAVE (R348): A parked context with agreed intervals is saved with its wait. -/
  | parkedSave (g : Nat)
  /-- SAVE_COMPLETE (R349): The save engine finishes writing a context's save slot. -/
  | saveComplete (g : Nat)
  /-- RESTORE (R352): A saved context is restored once its allocation is free. -/
  | restore (k : Nat)
  /-- ABORT_TOKEN_RECEIVE (R346): An IOC receives an ABORT token, ends the group's COLLs and answers peers. -/
  | abortTokenReceive (grp : BitVec 16) (st : Word)
  /-- ABORT_ANSWER (R346): A peer's completed-step answer to an ABORT token arrives. -/
  | abortAnswer (grp : BitVec 16) (st : Word)
  /-- ABORT_ANSWER_WINDOW_EXPIRY (R346): 100 µs after a token, the agreed step is fixed and ABORT delivered to the group's contexts. -/
  | abortAnswerWindowExpiry (grp : BitVec 16)
  /-- LINK_FLIT_RECEIVE (R378): A link flit arrives, is checked by CRC and replayed on error. -/
  | linkFlitReceive (link : Nat) (good : Bool)
  /-- LINK_DEAD (R381): A link is declared dead after failed replays or 10 µs of silence, posting cause 10 and ABORT tokens. -/
  | linkDead (link : Nat)
  /-- PTP_MESSAGE (R381): An IEEE 1588 message arrives and adjusts global time. -/
  | ptpMessage (ns : Nat)
  /-- APERTURE_READ (R379): A host read through window 2 is translated and performed in flat memory. -/
  | apertureRead (o n : Nat)
  /-- APERTURE_WRITE (R379): A host write through window 2 is translated and performed in flat memory. -/
  | apertureWrite (o n x : Nat)
  /-- HIRC_WRITE (R380): The host writes the consumed count of its ring, acknowledging the interrupt. -/
  | hircWrite (ioc : Nat) (x : Word)
  /-- IDROP_READ (R380): A read of IDROP returns and clears the dropped-record count. -/
  | idropRead (ioc : Nat)
  /-- HNDROP_READ (R375): A read of HNDROP returns and clears the dropped-notification count. -/
  | hndropRead (u : Nat)
  /-- ATCTL_GO (R386): A host GO write requests a quote or sets REJ when busy. -/
  | atctlGo (x : Word)
  /-- ATST_READ (R386): A read of ATST returns the status and clears REJ. -/
  | atstRead
  /-- SFTB_WRITE (R324): A write to SFTB takes effect only while no pool frame is in use. -/
  | sftbWrite (spc : Nat) (x : Word)
  /-- REGISTER_WRITE (R6): A write to a device register without behaviour of its own replaces its RW fields. -/
  | registerWrite (r : RegName) (i : Nat) (x : BitVec 64)
  /-- FREEZE_PIN (R388): FREEZE_N held low freezes the package for read-out. -/
  | freezePin (ns : Nat)
  /-- FRZ_WRITE (R388): A host write of FRZ bit 0 freezes the package. -/
  | frzWrite (x : Word)
  /-- MODULE_RESET (R391): A module reset brings the package up through its ordered steps. -/
  | moduleReset
  /-- RETIREMENT_CLEAR (R390): A debug-port command clears the retirement record of a core or SPC. -/
  | retirementClear (spc : Bool) (n : Nat)
  /-- POWER_DOWN_ENTRY (R364): An idle memory unit enters power-down after its idle time. -/
  | powerDownEntry (u j : Nat)
  /-- SELF_REFRESH_ENTRY (R364): An idle memory unit enters self-refresh after SRT. -/
  | selfRefreshEntry (u j : Nat)
  /-- POWER_STATE_EXIT (R364): A memory unit completes its exit from a low-power state. -/
  | powerStateExit (u j : Nat)
  /-- REFRESH_DUE (R366): A refresh falls due and is issued or postponed against the bank's debt. -/
  | refreshDue (u bank : Nat) (busy : Bool)
  /-- REFRESH_COMPLETE (R366): A per-bank refresh completes and the debt falls. -/
  | refreshComplete (u bank : Nat)
  /-- ACTIVATION_ALERT (R367): An activation-count alert blocks a bank for owed refreshes and mitigation. -/
  | activationAlert (u bank : Nat)
  /-- ALERT_BACKOFF_COMPLETE (R367): The alert mitigation finishes and the bank is unblocked. -/
  | alertBackoffComplete (u bank : Nat)
  /-- CRITICAL_TEMP_ASSERT (R368): A stack's critical temperature forces its pseudo-channels into self-refresh. -/
  | criticalTempAssert (u : Nat)
  /-- CRITICAL_TEMP_CLEAR (R368): The critical temperature clears and the stack exits self-refresh and serves queued requests. -/
  | criticalTempClear (u : Nat)
  /-- THERMAL_HOLD_TIMEOUT (R368): A thermal hold reaches 2 ms and a THERMAL-HOLD event is logged. -/
  | thermalHoldTimeout (u : Nat)
  /-- SCRUB_STEP (R373): The scrubber reads the next ECC word, correcting or poisoning it. -/
  | scrubStep (u : Nat) (err : EccErr)
  /-- HOTNESS_DECAY (R375): Every DECAY µs all tile access counts halve. -/
  | hotnessDecay (u : Nat)
  /-- UV_EVALUATE (R387): Every 60 s the MSC lowers or raises domain voltage steps. -/
  | uvEvaluate
  /-- UV_CROSSING_RAISE (R387): An array crossing PFTH raises its domain one step within 1 ms and sets HOLD. -/
  | uvCrossingRaise (dom arr : Nat)
  /-- UV_WINDOW_EXPIRY (R387): At the end of the 600-s window the failing array's row is spared or its core retired. -/
  | uvWindowExpiry (dom : Nat)
  /-- UV_HOLD_EXPIRY (R387): The 24-h hold of a domain ends. -/
  | uvHoldExpiry (dom : Nat)
  /-- ILLEGAL_BUNDLE (R44): A framed bundle whose slot words match no instruction, such as an unassigned OP or a K slot in slot 0, raises ILLEGAL. -/
  | illegalBundle (sl : Nat)
  /-- MATRIX_PART_FREE (R196): The array or row port ends its busy time, and an X operation waiting on it in a matrix stall starts. -/
  | matrixPartFree (core part : Nat)
  /-- ITERATIVE_UNIT_FREE (R189): A pipe's iterative unit ends its occupancy and a stalled LX or interlocked slot may issue. -/
  | iterativeUnitFree (core unit : Nat)
  /-- TILE_WALK_COMPLETE (R108): A tile-table walk finishes, fills the tile caches and releases the accesses waiting on the translation. -/
  | tileWalkComplete (core : Nat) (asid : BitVec 16) (tid : BitVec 20) (tile : Nat)
  /-- SHADOW_FRAME_COPY_COMPLETE (R323): The copy of a committed frame into a new shadow frame finishes and the stalled TST writes. -/
  | shadowFrameCopyComplete (g : Nat)
  /-- FENCE_MARKER_RELEASE (R139): A FENCE marker's condition is met and the SCB entries held behind it may be released. -/
  | fenceMarkerRelease (g : Nat)
  /-- POWER_CEILING_THROTTLE (R18): The MSC starts or stops gating X- and V-class issue in duty cycles to hold module power under 2,800 W. -/
  | powerCeilingThrottle (on : Bool)
  deriving DecidableEq, Repr

end Sys2Proof
end

