-- ==== Sys2Proof/WellFormed.lean ====
section
/-! DEFINITION. The static rules of a slot: field limits, which instructions take a duplicate, and the payloads
of K slots. `wfErr` answers the place of the first offence as the decoder must name it: 0 for the slot itself, k
for its k-th K slot (02 R27 to R34, R38, R40). -/

namespace Sys2Proof

/-- The CSR indexes that R41 lists. -/
def csrListed (i : BitVec 12) : Bool :=
  i.toNat ≤ 0x009 || (0x010 ≤ i.toNat && i.toNat ≤ 0x016) || (0x100 ≤ i.toNat && i.toNat ≤ 0x106)

/-- The owner is at fault unless `ok`. -/
def ownerErr (ok : Bool) : Option Nat := if ok then none else some 0

/-- More long-immediate K slots than the owner takes: the first excess one is at fault (R31, R32). -/
def longErr (n : Nat) (ks : List (BitVec 28)) : Option Nat :=
  if ks.length ≤ n then none else some (n + 1)

/-- Whether a modifier payload keeps R33 for an owner that honours the fields of the mask `honour`. -/
def modOk (honour : Nat) (p : BitVec 28) : Bool :=
  p &&& ~~~(BitVec.ofNat 28 honour) == 0#28 && bits p.toNat 4 3 ≤ 4

/-- A modifier that is present and bad is at fault itself (R31). -/
def modErr (honour : Nat) (md : Option (BitVec 28)) : Option Nat :=
  match md with
  | none => none
  | some p => if modOk honour p then none else some 1

/-- The modifier of VCMP and LXCMP, which must name a destination mask (R31, R168). -/
def modReqErr (honour : Nat) (p : BitVec 28) : Option Nat :=
  if modOk honour p && bits p.toNat 8 3 != 0 then none else some 1

/-- The fields a reduction or a scan honours: RM only for floating sums, SAT only for integer sums (R171). -/
def redHonour (op : Nat) (zi : Nat) : Nat :=
  7 + zi + (if op ≤ 2 then 0x70 else 0) + (if op = 3 then 0x80 else 0)

/-- A descriptor that breaks its layout is at fault itself (R31, R210). -/
def descErr (ok : Bool) : Option Nat := if ok then none else some 1

/-- The offences of a slot, first the owner's, then its K slots' in order. Events have none. -/
def wfErr : Instr → Option Nat
  | .nopC => none
  | .nopS => none
  | .nopM => none
  | .nopV => none
  | .nopX => none
  | .nopQ => none
  | .nopG => none
  | .br _ _ ks => longErr 2 ks
  | .bri _ _ _ => none
  | .call _ _ ks => longErr 2 ks
  | .calli _ _ _ => none
  | .ret _ => none
  | .loopi _ d _ i => ownerErr (d != 0 && i.toNat < 8)
  | .loopb _ d _ ks => ownerErr (d != 0) <|> longErr 2 ks
  | .yield h => ownerErr (!h.d)
  | .waitf h _ k => ownerErr (!h.d && k != 0)
  | .tend h => ownerErr (!h.d)
  | .trap h _ => ownerErr (!h.d)
  | .add _ _ _ _ => none
  | .sub _ _ _ _ => none
  | .addi _ _ _ _ ks => longErr 2 ks
  | .mul _ _ _ _ => none
  | .mulh _ _ _ _ => none
  | .mulhn _ _ _ _ => none
  | .div _ _ _ _ => none
  | .divn _ _ _ _ => none
  | .rem _ _ _ _ => none
  | .remn _ _ _ _ => none
  | .and _ _ _ _ => none
  | .or _ _ _ _ => none
  | .xor _ _ _ _ => none
  | .andn _ _ _ _ => none
  | .andi _ _ _ _ ks => longErr 2 ks
  | .ori _ _ _ _ ks => longErr 2 ks
  | .xori _ _ _ _ ks => longErr 2 ks
  | .shl _ _ _ _ => none
  | .shr _ _ _ _ => none
  | .sra _ _ _ _ => none
  | .shli _ _ _ i => ownerErr (i.toNat < 64)
  | .shri _ _ _ i => ownerErr (i.toNat < 64)
  | .srai _ _ _ i => ownerErr (i.toNat < 64)
  | .rotl _ _ _ _ => none
  | .clz _ _ _ => none
  | .ctz _ _ _ => none
  | .popc _ _ _ => none
  | .min _ _ _ _ => none
  | .max _ _ _ _ => none
  | .minn _ _ _ _ => none
  | .maxn _ _ _ _ => none
  | .sel _ _ _ _ _ => none
  | .cmpeq _ d _ _ m => ownerErr (d.toNat < 16 && m.toNat < 3)
  | .cmpne _ d _ _ m => ownerErr (d.toNat < 16 && m.toNat < 3)
  | .cmplt _ d _ _ m => ownerErr (d.toNat < 16 && m.toNat < 3)
  | .cmpltn _ d _ _ m => ownerErr (d.toNat < 16 && m.toNat < 3)
  | .cmpge _ d _ _ m => ownerErr (d.toNat < 16 && m.toNat < 3)
  | .cmpgen _ d _ _ m => ownerErr (d.toNat < 16 && m.toNat < 3)
  | .cmpeqi _ d _ _ ks => ownerErr (d.toNat < 16) <|> longErr 2 ks
  | .cmplti _ d _ _ ks => ownerErr (d.toNat < 16) <|> longErr 2 ks
  | .movi _ _ _ ks => longErr 2 ks
  | .movhi _ _ _ ks => longErr 1 ks
  | .madd _ _ _ _ => none
  | .bfx _ _ _ _ m => ownerErr (m.toNat < 2)
  | .bfi _ _ _ _ => none
  | .sext _ _ _ i => ownerErr (1 ≤ i.toNat && i.toNat ≤ 64)
  | .zext _ _ _ i => ownerErr (1 ≤ i.toNat && i.toNat ≤ 64)
  | .pand _ d a b => ownerErr (d.toNat < 16 && a.toNat < 16 && b.toNat < 16)
  | .por _ d a b => ownerErr (d.toNat < 16 && a.toNat < 16 && b.toNat < 16)
  | .pxor _ d a b => ownerErr (d.toNat < 16 && a.toNat < 16 && b.toNat < 16)
  | .pandn _ d a b => ownerErr (d.toNat < 16 && a.toNat < 16 && b.toNat < 16)
  | .pmov _ d a m => ownerErr (d.toNat < 16 && a.toNat < 16 && m.toNat < 2)
  | .nset _ d _ i => ownerErr (d.toNat < 16 && i.toNat < 4)
  | .nadv _ d _ i => ownerErr (d.toNat < 16 && i.toNat < 4)
  | .nget _ _ a i => ownerErr (a.toNat < 16 && i.toNat < 4)
  | .cntrd _ _ i => ownerErr (i.toNat < 5)
  | .movsSFromF _ _ => none
  | .movsFFromS _ _ => none
  | .movsSFromP _ _ => none
  | .movsPFromS _ _ => none
  | .movsSFromLLo _ _ a => ownerErr (a.toNat < 8)
  | .movsSFromLHi _ _ a => ownerErr (a.toNat < 8)
  | .movsLLoFromS _ d _ => ownerErr (d.toNat < 8)
  | .movsLHiFromS _ d _ => ownerErr (d.toNat < 8)
  | .ldb _ _ _ _ ks => longErr 2 ks
  | .ldh _ _ _ _ ks => longErr 2 ks
  | .ldw _ _ _ _ ks => longErr 2 ks
  | .ldd _ _ _ _ ks => longErr 2 ks
  | .stb _ _ _ _ ks => longErr 2 ks
  | .sth _ _ _ _ ks => longErr 2 ks
  | .stw _ _ _ _ ks => longErr 2 ks
  | .std _ _ _ _ ks => longErr 2 ks
  | .ldv _ _ _ _ md => modErr 0xf md
  | .stv _ _ _ _ md => modErr 0x7 md
  | .ldvs _ _ _ _ m md => ownerErr (m.toNat < 2) <|> modErr 0xf md
  | .stvs _ _ _ _ m md => ownerErr (m.toNat < 2) <|> modErr 0x7 md
  | .ldvg _ _ _ _ m md => ownerErr (m.toNat < 2) <|> modErr 0xf md
  | .stvg _ _ _ _ m md => ownerErr (m.toNat < 2) <|> modErr 0x7 md
  | .ldq _ d _ _ => ownerErr (d.toNat < 4)
  | .tld _ _ a md => ownerErr (a.toNat < 16) <|> modErr 0xf md
  | .tst _ _ a md => ownerErr (a.toNat < 16) <|> modErr 0x7 md
  | .prefAddress _ _ _ ks => longErr 2 ks
  | .prefHandle _ a => ownerErr (a.toNat < 16)
  | .fence h b f => ownerErr (!h.d && (b != 0 && f != 0))
  | .drain h p s => ownerErr (!h.d && (p != 0 && s.toNat < 6))
  | .aadd _ _ _ _ m => ownerErr (m.toNat < 2)
  | .aand _ _ _ _ m => ownerErr (m.toNat < 2)
  | .aor _ _ _ _ m => ownerErr (m.toNat < 2)
  | .axor _ _ _ _ m => ownerErr (m.toNat < 2)
  | .amin _ _ _ _ m => ownerErr (m.toNat < 2)
  | .amax _ _ _ _ m => ownerErr (m.toNat < 2)
  | .aminn _ _ _ _ m => ownerErr (m.toNat < 2)
  | .amaxn _ _ _ _ m => ownerErr (m.toNat < 2)
  | .axchg _ _ _ _ m => ownerErr (m.toNat < 2)
  | .acas _ _ _ _ m => ownerErr (m.toNat < 2)
  | .vaadd h _ _ _ m md => ownerErr (!h.d && m.toNat < 2) <|> modErr 0x7 md
  | .vaor h _ _ _ m md => ownerErr (!h.d && m == 0) <|> modErr 0x7 md
  | .vamax h _ _ _ m md => ownerErr (!h.d && m.toNat < 3) <|> modErr 0x7 md
  | .cadd _ _ _ => none
  | .waitge h _ _ _ => ownerErr (!h.d)
  | .binit h _ _ => ownerErr (!h.d)
  | .barv h _ _ i => ownerErr (!h.d && (1 ≤ i.toNat && i.toNat ≤ 15))
  | .bwait h _ _ _ => ownerErr (!h.d)
  | .obrkBarrier h _ => ownerErr (!h.d)
  | .obrkRing h a => ownerErr (!h.d && a.toNat < 8)
  | .lkreq h _ _ _ => ownerErr (!h.d)
  | .lktry h _ _ _ => ownerErr (!h.d)
  | .lkesc h _ _ _ => ownerErr (!h.d)
  | .lkdwn h _ _ => ownerErr (!h.d)
  | .lkrel h _ _ => ownerErr (!h.d)
  | .lkrelAll h => ownerErr (!h.d)
  | .lkqry h _ _ _ => ownerErr (!h.d)
  | .vadd _ _ _ _ _ md => modErr 0x7f md
  | .vsub _ _ _ _ _ md => modErr 0x7f md
  | .vmul _ _ _ _ _ md => modErr 0x7f md
  | .vfma _ _ _ _ _ md => modErr 0x7f md
  | .vfms _ _ _ _ _ md => modErr 0x7f md
  | .vfnma _ _ _ _ _ md => modErr 0x7f md
  | .vmin _ _ _ _ _ md => modErr 0xf md
  | .vmax _ _ _ _ _ md => modErr 0xf md
  | .vabs _ _ _ _ md => modErr 0xf md
  | .vneg _ _ _ _ md => modErr 0xf md
  | .vdiv _ _ _ _ _ md => modErr 0x7f md
  | .vsqrt _ _ _ _ md => modErr 0x7f md
  | .vrcp _ _ _ _ md => modErr 0x7f md
  | .vrsq _ _ _ _ md => modErr 0x7f md
  | .vexp _ _ _ _ md => modErr 0x7f md
  | .vlog _ _ _ _ md => modErr 0x7f md
  | .vtanh _ _ _ _ md => modErr 0x7f md
  | .vcvt _ _ _ x _ _ md => ownerErr (x.toNat ≤ 12) <|> modErr 0x7f md
  | .vcmp _ c f _ _ _ md => ownerErr (c.toNat ≤ 4 && (c.toNat != 4 || f == 1)) <|> modReqErr 0x70f md
  | .vsel _ _ _ _ md => modErr 0x7 md
  | .viadd _ _ _ _ _ md => modErr 0x8f md
  | .visub _ _ _ _ _ md => modErr 0x8f md
  | .vimul _ _ _ _ _ md => modErr 0x8f md
  | .vimulh _ _ _ _ _ md => modErr 0xf md
  | .vand _ _ _ _ md => modErr 0xf md
  | .vor _ _ _ _ md => modErr 0xf md
  | .vxor _ _ _ _ md => modErr 0xf md
  | .vshl _ _ _ _ _ md => modErr 0xf md
  | .vshr _ _ _ _ _ md => modErr 0xf md
  | .vsra _ _ _ _ _ md => modErr 0xf md
  | .vimin _ _ _ _ _ md => modErr 0xf md
  | .vimax _ _ _ _ _ md => modErr 0xf md
  | .vpopc _ _ _ _ md => modErr 0xf md
  | .vclz _ _ _ _ md => modErr 0xf md
  | .vperm _ _ _ _ m md => ownerErr (m.toNat < 2) <|> modErr 0xf md
  | .vbcast _ _ _ m md => ownerErr (m.toNat < 2) <|> modErr 0xf md
  | .vext _ _ _ _ m => ownerErr (m.toNat < 3)
  | .vins _ _ _ _ m => ownerErr (m.toNat < 2)
  | .viota _ _ _ _ m md => ownerErr (m.toNat < 2) <|> modErr 0xf md
  | .vslide _ _ _ _ md => modErr 0xf md
  | .vred _ _ _ b _ md => ownerErr (b.toNat ≤ 8) <|> modErr (redHonour b.toNat 0) md
  | .vscan _ _ _ b _ md => ownerErr (b.toNat ≤ 8) <|> modErr (redHonour b.toNat 8) md
  | .vmov _ d a m md => ownerErr (m.toNat < 3 && (m.toNat != 1 || a.toNat < 4) && (m.toNat != 2 || d.toNat < 4)) <|> modErr 0xf md
  | .vcomp _ _ _ m md => ownerErr (m.toNat < 2) <|> modErr 0x7 md
  | .lmand _ d a b => ownerErr (d.toNat < 8 && a.toNat < 8 && b.toNat < 8)
  | .lmor _ d a b => ownerErr (d.toNat < 8 && a.toNat < 8 && b.toNat < 8)
  | .lmnot _ d a => ownerErr (d.toNat < 8 && a.toNat < 8)
  | .lmpop _ _ a => ownerErr (a.toNat < 8)
  | .vsig h _ _ => ownerErr (!h.d)
  | .lxadd h _ _ _ m md => ownerErr (!h.d && m.toNat < 2) <|> modErr 0x70f md
  | .lxsub h _ _ _ m md => ownerErr (!h.d && m.toNat < 2) <|> modErr 0x70f md
  | .lxmul h _ _ _ m md => ownerErr (!h.d && m.toNat < 2) <|> modErr 0x70f md
  | .lxdiv h _ _ _ m md => ownerErr (!h.d && m.toNat < 2) <|> modErr 0x70f md
  | .lxcvt h _ _ x _ r md => ownerErr (!h.d && (x == 0 || x == 1 || x == 3)) <|> modErr (if r == 1 then 0x7F else 0xF) md
  | .lxcmp h c _ _ m md => ownerErr (!h.d && (c.toNat ≤ 4 && m.toNat < 2)) <|> modReqErr 0x70f md
  | .lxsum h _ _ m md => ownerErr (!h.d && m.toNat < 2) <|> modErr 0x7 md
  | .lxln h _ _ m md => ownerErr (!h.d && m.toNat < 2) <|> modErr 0x7f md
  | .xwld h _ _ m => ownerErr (!h.d && m.toNat < 2)
  | .xmac h _ ds => ownerErr (!h.d) <|> descErr (bits ds.toNat 17 11 == 0)
  | .xmacz h _ ds => ownerErr (!h.d) <|> descErr (bits ds.toNat 17 11 == 0)
  | .xbegin h => ownerErr (!h.d)
  | .xend h => ownerErr (!h.d)
  | .xepi h _ _ ds => ownerErr (!h.d) <|> descErr (bits ds.toNat 16 3 ≤ 4 && bits ds.toNat 20 2 ≤ 2)
  | .xaccld h _ _ ds => ownerErr (!h.d) <|> descErr (bits ds.toNat 16 12 == 0)
  | .xaccst h _ _ ds => ownerErr (!h.d) <|> descErr (bits ds.toNat 16 7 == 0)
  | .xchk h _ ds => ownerErr (!h.d) <|> descErr (bits ds.toNat 16 12 == 0)
  | .xfix h _ _ => ownerErr (!h.d)
  | .xclr h ds => ownerErr (!h.d) <|> descErr (bits ds.toNat 16 12 == 0)
  | .xcfg h _ => ownerErr (!h.d)
  | .cpyHandle h _ a _ => ownerErr (!h.d && a.toNat < 16)
  | .cpyAddress h _ _ _ => ownerErr (!h.d)
  | .cpypHandle h _ a _ => ownerErr (!h.d && a.toNat < 16)
  | .cpypAddress h _ _ _ => ownerErr (!h.d)
  | .cpyw h _ _ => ownerErr (!h.d)
  | .subsLoad h d a _ => ownerErr (!h.d && (d.toNat < 8 && a.toNat < 16))
  | .subsStore h d a _ => ownerErr (!h.d && (d.toNat < 8 && a.toNat < 16))
  | .sube h d => ownerErr (!h.d && d.toNat < 8)
  | .hset h d _ => ownerErr (!h.d && d.toNat < 8)
  | .hwait h _ a i => ownerErr (!h.d && (a.toNat < 8 && 1 ≤ i.toNat))
  | .hadv h a i => ownerErr (!h.d && (a.toNat < 8 && 1 ≤ i.toNat))
  | .tspawn h _ _ _ => ownerErr (!h.d)
  | .klaunch h _ => ownerErr (!h.d)
  | .coll h _ _ _ => ownerErr (!h.d)
  | .fput h _ _ _ => ownerErr (!h.d)
  | .qstat h _ a i => ownerErr (!h.d && (i.toNat ≤ 10 && (if i.toNat ≤ 4 then a.toNat < 8 else a == 0)))
  | .ckpt h => ownerErr (!h.d)
  | .cmpt h a b m => ownerErr (!h.d && (m.toNat < 3 && (m.toNat != 2 || (a.toNat < 8 && b.toNat < 8))))
  | .sigrd h _ _ => ownerErr (!h.d)
  | .phint h _ _ _ => ownerErr (!h.d)
  | .csrr h _ i => ownerErr (!h.d && csrListed i)
  | .csrw h _ i => ownerErr (!h.d && csrListed i)
  | .csrs h _ i => ownerErr (!h.d && csrListed i)
  | .csrc h _ i => ownerErr (!h.d && csrListed i)
  | .eretRestore h => ownerErr (!h.d)
  | .eretContinue h _ => ownerErr (!h.d)
  | .sysc h _ => ownerErr (!h.d)
  | .step h _ => ownerErr (!h.d)
  | .abort h _ => ownerErr (!h.d)
  | .ttinvTile h _ _ => ownerErr (!h.d)
  | .ttinvTensor h _ => ownerErr (!h.d)
  | .ttinvAsid h => ownerErr (!h.d)
  | .ttinvAll h => ownerErr (!h.d)
  | .icinvCore h _ _ => ownerErr (!h.d)
  | .icinvPkg h _ _ => ownerErr (!h.d)
  | .attq h d _ _ => ownerErr (!h.d && d.toNat < 16)
  | .clockRestart _ => none
  | .runLimitDue _ => none
  | .runLimitExpiry _ => none
  | .exposedResultLand _ => none
  | .interlockedResultLand _ _ => none
  | .waitWake _ => none
  | .returningOpComplete _ => none
  | .drainComplete _ => none
  | .ttinvAcknowledge _ => none
  | .icinvAcknowledge _ => none
  | .lockAnswer _ => none
  | .grantCacheRefill _ => none
  | .migrationWalkRetry _ => none
  | .weightBufferCurrent _ _ => none
  | .matrixRowsLand _ _ => none
  | .xaccldRowsArrive _ _ => none
  | .xchkComplete _ _ => none
  | .xfixComplete _ _ => none
  | .xepiCheck _ _ => none
  | .outputStageComplete _ => none
  | .scbRelease _ => none
  | .intervalAgreement _ => none
  | .signatureArrival _ => none
  | .twinSkewExpiry _ => none
  | .reExecutionStart _ => none
  | .vote _ => none
  | .scoreHalving => none
  | .leaseExpiry _ _ => none
  | .bwaitBoundExpiry _ => none
  | .absentTileRewalk _ => none
  | .copyComplete _ => none
  | .cpywComplete _ => none
  | .loaderSlotStep _ => none
  | .storerSlotStep _ => none
  | .klaunchPacketRead _ => none
  | .collComplete _ => none
  | .collFlitReceive _ _ _ _ _ _ _ => none
  | .fputComplete _ => none
  | .quoteComplete => none
  | .doorbellWrite _ _ => none
  | .slotIdleTimeout _ => none
  | .qschTurnEnd _ => none
  | .packetLaunch _ => none
  | .packetWait _ => none
  | .packetSignal _ => none
  | .packetMarker _ => none
  | .qschWaitSatisfied _ => none
  | .markerEffect _ => none
  | .kernelPlacement _ => none
  | .kernelComplete _ => none
  | .queueReset _ => none
  | .queueResetUnmap _ => none
  | .taskDispatch _ => none
  | .dependenceRelease _ _ => none
  | .spillBufferDrain _ => none
  | .gangInstant _ _ => none
  | .prqGo _ _ => none
  | .preemptDeadlineFirst _ => none
  | .preemptDeadlineSecond _ => none
  | .parkedSave _ => none
  | .saveComplete _ => none
  | .restore _ => none
  | .abortTokenReceive _ _ => none
  | .abortAnswer _ _ => none
  | .abortAnswerWindowExpiry _ => none
  | .linkFlitReceive _ _ => none
  | .linkDead _ => none
  | .ptpMessage _ => none
  | .apertureRead _ _ => none
  | .apertureWrite _ _ _ => none
  | .hircWrite _ _ => none
  | .idropRead _ => none
  | .hndropRead _ => none
  | .atctlGo _ => none
  | .atstRead => none
  | .sftbWrite _ _ => none
  | .registerWrite _ _ _ => none
  | .freezePin _ => none
  | .frzWrite _ => none
  | .moduleReset => none
  | .retirementClear _ _ => none
  | .powerDownEntry _ _ => none
  | .selfRefreshEntry _ _ => none
  | .powerStateExit _ _ => none
  | .refreshDue _ _ _ => none
  | .refreshComplete _ _ => none
  | .activationAlert _ _ => none
  | .alertBackoffComplete _ _ => none
  | .criticalTempAssert _ => none
  | .criticalTempClear _ => none
  | .thermalHoldTimeout _ => none
  | .scrubStep _ _ => none
  | .hotnessDecay _ => none
  | .uvEvaluate => none
  | .uvCrossingRaise _ _ => none
  | .uvWindowExpiry _ => none
  | .uvHoldExpiry _ => none
  | .illegalBundle _ => none
  | .matrixPartFree _ _ => none
  | .iterativeUnitFree _ _ => none
  | .tileWalkComplete _ _ _ _ => none
  | .shadowFrameCopyComplete _ => none
  | .fenceMarkerRelease _ => none
  | .powerCeilingThrottle _ => none

/-- An instruction that keeps every static rule. -/
abbrev WellFormed (i : Instr) : Prop := wfErr i = none

/-- The v fields of a slot lie below the VREGS of the task (R38). -/
def vregsOk (n : Nat) : Instr → Bool
  | .ldv _ d _ _ _ => d.toNat < n
  | .stv _ d _ _ _ => d.toNat < n
  | .ldvs _ d _ _ _ _ => d.toNat < n
  | .stvs _ d _ _ _ _ => d.toNat < n
  | .ldvg _ d _ b _ _ => d.toNat < n && b.toNat < n
  | .stvg _ d _ b _ _ => d.toNat < n && b.toNat < n
  | .tld _ d _ _ => d.toNat < n
  | .tst _ d _ _ => d.toNat < n
  | .vaadd _ d _ b _ _ => d.toNat < n && b.toNat < n
  | .vaor _ d _ b _ _ => d.toNat < n && b.toNat < n
  | .vamax _ d _ b _ _ => d.toNat < n && b.toNat < n
  | .vadd _ d a b _ _ => d.toNat < n && a.toNat < n && b.toNat < n
  | .vsub _ d a b _ _ => d.toNat < n && a.toNat < n && b.toNat < n
  | .vmul _ d a b _ _ => d.toNat < n && a.toNat < n && b.toNat < n
  | .vfma _ d a b _ _ => d.toNat < n && a.toNat < n && b.toNat < n
  | .vfms _ d a b _ _ => d.toNat < n && a.toNat < n && b.toNat < n
  | .vfnma _ d a b _ _ => d.toNat < n && a.toNat < n && b.toNat < n
  | .vmin _ d a b _ _ => d.toNat < n && a.toNat < n && b.toNat < n
  | .vmax _ d a b _ _ => d.toNat < n && a.toNat < n && b.toNat < n
  | .vabs _ d a _ _ => d.toNat < n && a.toNat < n
  | .vneg _ d a _ _ => d.toNat < n && a.toNat < n
  | .vdiv _ d a b _ _ => d.toNat < n && a.toNat < n && b.toNat < n
  | .vsqrt _ d a _ _ => d.toNat < n && a.toNat < n
  | .vrcp _ d a _ _ => d.toNat < n && a.toNat < n
  | .vrsq _ d a _ _ => d.toNat < n && a.toNat < n
  | .vexp _ d a _ _ => d.toNat < n && a.toNat < n
  | .vlog _ d a _ _ => d.toNat < n && a.toNat < n
  | .vtanh _ d a _ _ => d.toNat < n && a.toNat < n
  | .vcvt _ d a _ _ _ _ => d.toNat < n && a.toNat < n
  | .vcmp _ _ _ a b _ _ => a.toNat < n && b.toNat < n
  | .vsel _ d a b _ => d.toNat < n && a.toNat < n && b.toNat < n
  | .viadd _ d a b _ _ => d.toNat < n && a.toNat < n && b.toNat < n
  | .visub _ d a b _ _ => d.toNat < n && a.toNat < n && b.toNat < n
  | .vimul _ d a b _ _ => d.toNat < n && a.toNat < n && b.toNat < n
  | .vimulh _ d a b _ _ => d.toNat < n && a.toNat < n && b.toNat < n
  | .vand _ d a b _ => d.toNat < n && a.toNat < n && b.toNat < n
  | .vor _ d a b _ => d.toNat < n && a.toNat < n && b.toNat < n
  | .vxor _ d a b _ => d.toNat < n && a.toNat < n && b.toNat < n
  | .vshl _ d a b _ _ => d.toNat < n && a.toNat < n && b.toNat < n
  | .vshr _ d a b _ _ => d.toNat < n && a.toNat < n && b.toNat < n
  | .vsra _ d a b _ _ => d.toNat < n && a.toNat < n && b.toNat < n
  | .vimin _ d a b _ _ => d.toNat < n && a.toNat < n && b.toNat < n
  | .vimax _ d a b _ _ => d.toNat < n && a.toNat < n && b.toNat < n
  | .vpopc _ d a _ _ => d.toNat < n && a.toNat < n
  | .vclz _ d a _ _ => d.toNat < n && a.toNat < n
  | .vperm _ d a b _ _ => d.toNat < n && a.toNat < n && b.toNat < n
  | .vbcast _ d _ _ _ => d.toNat < n
  | .vext _ _ a _ _ => a.toNat < n
  | .vins _ d _ _ _ => d.toNat < n
  | .viota _ d _ _ _ _ => d.toNat < n
  | .vslide _ d a _ _ => d.toNat < n && a.toNat < n
  | .vred _ d a _ _ _ => d.toNat < n && a.toNat < n
  | .vscan _ d a _ _ _ => d.toNat < n && a.toNat < n
  | .vmov _ d a m _ => (m == 2 || d.toNat < n) && (m == 1 || a.toNat < n)
  | .vcomp _ d a _ _ => d.toNat < n && a.toNat < n
  | .vsig _ _ a => a.toNat < n
  | .cmpt _ a b m => m != 1 || (a.toNat < n && b.toNat < n)
  | .lxadd _ d a b _ _ => d.toNat < n && a.toNat < n && b.toNat < n
  | .lxsub _ d a b _ _ => d.toNat < n && a.toNat < n && b.toNat < n
  | .lxmul _ d a b _ _ => d.toNat < n && a.toNat < n && b.toNat < n
  | .lxdiv _ d a b _ _ => d.toNat < n && a.toNat < n && b.toNat < n
  | .lxcvt _ d a _ _ _ _ => d.toNat < n && a.toNat < n
  | .lxcmp _ _ a b _ _ => a.toNat < n && b.toNat < n
  | .lxsum _ d a _ _ => d.toNat < n && a.toNat < n
  | .lxln _ d a _ _ => d.toNat < n && a.toNat < n
  | _ => true

end Sys2Proof
end

