-- ==== Sys2Proof/Decode.lean ====
section
/-! DEFINITION. Decoding of slot words and bundles, total on any words, and the encoder (02 R22 to R44). A word is
a number whose bit 31 is E; the fields of each row stand where the opcode table puts them. -/

namespace Sys2Proof

/-- The head of a slot word (R26). -/
def headOf (w : Nat) : Head := ⟨bits w 21 1 == 1, fld w 17 4⟩

/-- An instruction that takes no K slot. -/
def takeNone (i : Instr) : Option (Instr × Nat) := some (i, 0)

/-- An instruction that takes up to `n` long-immediate K slots. -/
def takeLong (n : Nat) (ks : List (BitVec 28)) (f : List (BitVec 28) → Instr) : Option (Instr × Nat) :=
  some (f (ks.take n), n)

/-- An instruction that takes one modifier at most. -/
def takeMod (ks : List (BitVec 28)) (f : Option (BitVec 28) → Instr) : Option (Instr × Nat) :=
  some (f ks.head?, 1)

/-- An instruction that needs one K slot: without it the owner is at fault (R31). -/
def takeOne (ks : List (BitVec 28)) (f : BitVec 28 → Instr) : Option (Instr × Nat) :=
  match ks with
  | [] => none
  | p :: _ => some (f p, 1)

/-- PHINT needs exactly two K slots (R33). -/
def takeTwo (ks : List (BitVec 28)) (f : BitVec 28 → BitVec 28 → Instr) : Option (Instr × Nat) :=
  match ks with
  | p :: q :: _ => some (f p q, 2)
  | _ => none

/-- `some x` where the fixed bits are as the row states. -/
def whenFixed (c : Bool) (x : Option (Instr × Nat)) : Option (Instr × Nat) := if c then x else none

/-- Class C of the opcode map (R43). -/
def decodeC (w : Nat) (ks : List (BitVec 28)) : Option (Instr × Nat) :=
  match bits w 22 6 with
  | 0 => whenFixed (bits w 0 22 == 0) (takeNone .nopC)
  | 1 => takeLong 2 ks (.br (headOf w) (fld w 0 17))
  | 2 => whenFixed (bits w 12 5 == 0) (takeNone (.bri (headOf w) (fld w 7 5) (fld w 0 7)))
  | 3 => takeLong 2 ks (.call (headOf w) (fld w 0 17))
  | 4 => whenFixed (bits w 12 5 == 0) (takeNone (.calli (headOf w) (fld w 7 5) (fld w 0 7)))
  | 5 => whenFixed (bits w 0 17 == 0) (takeNone (.ret (headOf w)))
  | 6 => takeNone (.loopi (headOf w) (fld w 12 5) (fld w 7 5) (fld w 0 7))
  | 7 => whenFixed (bits w 7 5 == 0) (takeLong 2 ks (.loopb (headOf w) (fld w 12 5) (fld w 0 7)))
  | 8 => whenFixed (bits w 0 17 == 0 && bits w 21 1 == 0) (takeNone (.yield (headOf w)))
  | 9 => whenFixed (bits w 21 1 == 0) (takeNone (.waitf (headOf w) (fld w 16 1) (fld w 0 16)))
  | 10 => whenFixed (bits w 0 17 == 0 && bits w 21 1 == 0) (takeNone (.tend (headOf w)))
  | 11 => whenFixed (bits w 12 5 == 0 && bits w 21 1 == 0) (takeNone (.trap (headOf w) (fld w 0 12)))
  | _ => none

/-- Class S of the opcode map (R43). -/
def decodeS (w : Nat) (ks : List (BitVec 28)) : Option (Instr × Nat) :=
  match bits w 22 6 with
  | 0 => whenFixed (bits w 0 22 == 0) (takeNone .nopS)
  | 1 => whenFixed (bits w 0 2 == 0) (takeNone (.add (headOf w) (fld w 12 5) (fld w 7 5) (fld w 2 5)))
  | 2 => whenFixed (bits w 0 2 == 0) (takeNone (.sub (headOf w) (fld w 12 5) (fld w 7 5) (fld w 2 5)))
  | 3 => takeLong 2 ks (.addi (headOf w) (fld w 12 5) (fld w 7 5) (fld w 0 7))
  | 4 => whenFixed (bits w 0 2 == 0) (takeNone (.mul (headOf w) (fld w 12 5) (fld w 7 5) (fld w 2 5)))
  | 5 => whenFixed (bits w 0 2 == 0) (takeNone (.mulh (headOf w) (fld w 12 5) (fld w 7 5) (fld w 2 5)))
  | 6 => whenFixed (bits w 0 2 == 0) (takeNone (.mulhn (headOf w) (fld w 12 5) (fld w 7 5) (fld w 2 5)))
  | 7 => whenFixed (bits w 0 2 == 0) (takeNone (.div (headOf w) (fld w 12 5) (fld w 7 5) (fld w 2 5)))
  | 8 => whenFixed (bits w 0 2 == 0) (takeNone (.divn (headOf w) (fld w 12 5) (fld w 7 5) (fld w 2 5)))
  | 9 => whenFixed (bits w 0 2 == 0) (takeNone (.rem (headOf w) (fld w 12 5) (fld w 7 5) (fld w 2 5)))
  | 10 => whenFixed (bits w 0 2 == 0) (takeNone (.remn (headOf w) (fld w 12 5) (fld w 7 5) (fld w 2 5)))
  | 11 => whenFixed (bits w 0 2 == 0) (takeNone (.and (headOf w) (fld w 12 5) (fld w 7 5) (fld w 2 5)))
  | 12 => whenFixed (bits w 0 2 == 0) (takeNone (.or (headOf w) (fld w 12 5) (fld w 7 5) (fld w 2 5)))
  | 13 => whenFixed (bits w 0 2 == 0) (takeNone (.xor (headOf w) (fld w 12 5) (fld w 7 5) (fld w 2 5)))
  | 14 => whenFixed (bits w 0 2 == 0) (takeNone (.andn (headOf w) (fld w 12 5) (fld w 7 5) (fld w 2 5)))
  | 15 => takeLong 2 ks (.andi (headOf w) (fld w 12 5) (fld w 7 5) (fld w 0 7))
  | 16 => takeLong 2 ks (.ori (headOf w) (fld w 12 5) (fld w 7 5) (fld w 0 7))
  | 17 => takeLong 2 ks (.xori (headOf w) (fld w 12 5) (fld w 7 5) (fld w 0 7))
  | 18 => whenFixed (bits w 0 2 == 0) (takeNone (.shl (headOf w) (fld w 12 5) (fld w 7 5) (fld w 2 5)))
  | 19 => whenFixed (bits w 0 2 == 0) (takeNone (.shr (headOf w) (fld w 12 5) (fld w 7 5) (fld w 2 5)))
  | 20 => whenFixed (bits w 0 2 == 0) (takeNone (.sra (headOf w) (fld w 12 5) (fld w 7 5) (fld w 2 5)))
  | 21 => takeNone (.shli (headOf w) (fld w 12 5) (fld w 7 5) (fld w 0 7))
  | 22 => takeNone (.shri (headOf w) (fld w 12 5) (fld w 7 5) (fld w 0 7))
  | 23 => takeNone (.srai (headOf w) (fld w 12 5) (fld w 7 5) (fld w 0 7))
  | 24 => whenFixed (bits w 0 2 == 0) (takeNone (.rotl (headOf w) (fld w 12 5) (fld w 7 5) (fld w 2 5)))
  | 25 => whenFixed (bits w 0 7 == 0) (takeNone (.clz (headOf w) (fld w 12 5) (fld w 7 5)))
  | 26 => whenFixed (bits w 0 7 == 0) (takeNone (.ctz (headOf w) (fld w 12 5) (fld w 7 5)))
  | 27 => whenFixed (bits w 0 7 == 0) (takeNone (.popc (headOf w) (fld w 12 5) (fld w 7 5)))
  | 28 => whenFixed (bits w 0 2 == 0) (takeNone (.min (headOf w) (fld w 12 5) (fld w 7 5) (fld w 2 5)))
  | 29 => whenFixed (bits w 0 2 == 0) (takeNone (.max (headOf w) (fld w 12 5) (fld w 7 5) (fld w 2 5)))
  | 30 => whenFixed (bits w 0 2 == 0) (takeNone (.minn (headOf w) (fld w 12 5) (fld w 7 5) (fld w 2 5)))
  | 31 => whenFixed (bits w 0 2 == 0) (takeNone (.maxn (headOf w) (fld w 12 5) (fld w 7 5) (fld w 2 5)))
  | 32 => takeNone (.sel (headOf w) (fld w 12 5) (fld w 7 5) (fld w 2 5) (fld w 0 2))
  | 33 => takeNone (.cmpeq (headOf w) (fld w 12 5) (fld w 7 5) (fld w 2 5) (fld w 0 2))
  | 34 => takeNone (.cmpne (headOf w) (fld w 12 5) (fld w 7 5) (fld w 2 5) (fld w 0 2))
  | 35 => takeNone (.cmplt (headOf w) (fld w 12 5) (fld w 7 5) (fld w 2 5) (fld w 0 2))
  | 36 => takeNone (.cmpltn (headOf w) (fld w 12 5) (fld w 7 5) (fld w 2 5) (fld w 0 2))
  | 37 => takeNone (.cmpge (headOf w) (fld w 12 5) (fld w 7 5) (fld w 2 5) (fld w 0 2))
  | 38 => takeNone (.cmpgen (headOf w) (fld w 12 5) (fld w 7 5) (fld w 2 5) (fld w 0 2))
  | 39 => takeLong 2 ks (.cmpeqi (headOf w) (fld w 12 5) (fld w 7 5) (fld w 0 7))
  | 40 => takeLong 2 ks (.cmplti (headOf w) (fld w 12 5) (fld w 7 5) (fld w 0 7))
  | 41 => takeLong 2 ks (.movi (headOf w) (fld w 12 5) (fld w 0 12))
  | 42 => takeLong 1 ks (.movhi (headOf w) (fld w 12 5) (fld w 0 12))
  | 43 => whenFixed (bits w 0 2 == 0) (takeNone (.madd (headOf w) (fld w 12 5) (fld w 7 5) (fld w 2 5)))
  | 44 => takeNone (.bfx (headOf w) (fld w 12 5) (fld w 7 5) (fld w 2 5) (fld w 0 2))
  | 45 => whenFixed (bits w 0 2 == 0) (takeNone (.bfi (headOf w) (fld w 12 5) (fld w 7 5) (fld w 2 5)))
  | 46 => takeNone (.sext (headOf w) (fld w 12 5) (fld w 7 5) (fld w 0 7))
  | 47 => takeNone (.zext (headOf w) (fld w 12 5) (fld w 7 5) (fld w 0 7))
  | 48 => whenFixed (bits w 0 2 == 0) (takeNone (.pand (headOf w) (fld w 12 5) (fld w 7 5) (fld w 2 5)))
  | 49 => whenFixed (bits w 0 2 == 0) (takeNone (.por (headOf w) (fld w 12 5) (fld w 7 5) (fld w 2 5)))
  | 50 => whenFixed (bits w 0 2 == 0) (takeNone (.pxor (headOf w) (fld w 12 5) (fld w 7 5) (fld w 2 5)))
  | 51 => whenFixed (bits w 0 2 == 0) (takeNone (.pandn (headOf w) (fld w 12 5) (fld w 7 5) (fld w 2 5)))
  | 52 => whenFixed (bits w 2 5 == 0) (takeNone (.pmov (headOf w) (fld w 12 5) (fld w 7 5) (fld w 0 2)))
  | 53 => takeNone (.nset (headOf w) (fld w 12 5) (fld w 7 5) (fld w 0 7))
  | 54 => takeNone (.nadv (headOf w) (fld w 12 5) (fld w 7 5) (fld w 0 7))
  | 55 => takeNone (.nget (headOf w) (fld w 12 5) (fld w 7 5) (fld w 0 7))
  | 56 => whenFixed (bits w 7 5 == 0) (takeNone (.cntrd (headOf w) (fld w 12 5) (fld w 0 7)))
  | 57 =>
    whenFixed (bits w 0 12 == 0) (takeNone (.movsSFromF (headOf w) (fld w 12 5))) <|>
    whenFixed (bits w 0 7 == 1 && bits w 12 5 == 0) (takeNone (.movsFFromS (headOf w) (fld w 7 5))) <|>
    whenFixed (bits w 0 12 == 2) (takeNone (.movsSFromP (headOf w) (fld w 12 5))) <|>
    whenFixed (bits w 0 7 == 3 && bits w 12 5 == 0) (takeNone (.movsPFromS (headOf w) (fld w 7 5))) <|>
    whenFixed (bits w 0 7 == 4) (takeNone (.movsSFromLLo (headOf w) (fld w 12 5) (fld w 7 5))) <|>
    whenFixed (bits w 0 7 == 5) (takeNone (.movsSFromLHi (headOf w) (fld w 12 5) (fld w 7 5))) <|>
    whenFixed (bits w 0 7 == 6) (takeNone (.movsLLoFromS (headOf w) (fld w 12 5) (fld w 7 5))) <|>
    whenFixed (bits w 0 7 == 7) (takeNone (.movsLHiFromS (headOf w) (fld w 12 5) (fld w 7 5)))
  | _ => none

/-- Class M of the opcode map (R43). -/
def decodeM (w : Nat) (ks : List (BitVec 28)) : Option (Instr × Nat) :=
  match bits w 22 6 with
  | 0 => whenFixed (bits w 0 22 == 0) (takeNone .nopM)
  | 1 => takeLong 2 ks (.ldb (headOf w) (fld w 12 5) (fld w 7 5) (fld w 0 7))
  | 2 => takeLong 2 ks (.ldh (headOf w) (fld w 12 5) (fld w 7 5) (fld w 0 7))
  | 3 => takeLong 2 ks (.ldw (headOf w) (fld w 12 5) (fld w 7 5) (fld w 0 7))
  | 4 => takeLong 2 ks (.ldd (headOf w) (fld w 12 5) (fld w 7 5) (fld w 0 7))
  | 5 => takeLong 2 ks (.stb (headOf w) (fld w 12 5) (fld w 7 5) (fld w 0 7))
  | 6 => takeLong 2 ks (.sth (headOf w) (fld w 12 5) (fld w 7 5) (fld w 0 7))
  | 7 => takeLong 2 ks (.stw (headOf w) (fld w 12 5) (fld w 7 5) (fld w 0 7))
  | 8 => takeLong 2 ks (.std (headOf w) (fld w 12 5) (fld w 7 5) (fld w 0 7))
  | 9 => takeMod ks (.ldv (headOf w) (fld w 12 5) (fld w 7 5) (fld w 0 7))
  | 10 => takeMod ks (.stv (headOf w) (fld w 12 5) (fld w 7 5) (fld w 0 7))
  | 11 => takeMod ks (.ldvs (headOf w) (fld w 12 5) (fld w 7 5) (fld w 2 5) (fld w 0 2))
  | 12 => takeMod ks (.stvs (headOf w) (fld w 12 5) (fld w 7 5) (fld w 2 5) (fld w 0 2))
  | 13 => takeMod ks (.ldvg (headOf w) (fld w 12 5) (fld w 7 5) (fld w 2 5) (fld w 0 2))
  | 14 => takeMod ks (.stvg (headOf w) (fld w 12 5) (fld w 7 5) (fld w 2 5) (fld w 0 2))
  | 15 => takeNone (.ldq (headOf w) (fld w 12 5) (fld w 7 5) (fld w 0 7))
  | 16 => whenFixed (bits w 0 7 == 0) (takeMod ks (.tld (headOf w) (fld w 12 5) (fld w 7 5)))
  | 17 => whenFixed (bits w 0 7 == 0) (takeMod ks (.tst (headOf w) (fld w 12 5) (fld w 7 5)))
  | 18 =>
    whenFixed (bits w 12 5 == 0) (takeLong 2 ks (.prefAddress (headOf w) (fld w 7 5) (fld w 0 7))) <|>
    whenFixed (bits w 0 7 == 0 && bits w 12 5 == 1) (takeNone (.prefHandle (headOf w) (fld w 7 5)))
  | 19 => whenFixed (bits w 0 5 == 0 && bits w 21 1 == 0) (takeNone (.fence (headOf w) (fld w 11 6) (fld w 5 6)))
  | 20 => whenFixed (bits w 3 8 == 0 && bits w 21 1 == 0) (takeNone (.drain (headOf w) (fld w 11 6) (fld w 0 3)))
  | 21 => takeNone (.aadd (headOf w) (fld w 12 5) (fld w 7 5) (fld w 2 5) (fld w 0 2))
  | 22 => takeNone (.aand (headOf w) (fld w 12 5) (fld w 7 5) (fld w 2 5) (fld w 0 2))
  | 23 => takeNone (.aor (headOf w) (fld w 12 5) (fld w 7 5) (fld w 2 5) (fld w 0 2))
  | 24 => takeNone (.axor (headOf w) (fld w 12 5) (fld w 7 5) (fld w 2 5) (fld w 0 2))
  | 25 => takeNone (.amin (headOf w) (fld w 12 5) (fld w 7 5) (fld w 2 5) (fld w 0 2))
  | 26 => takeNone (.amax (headOf w) (fld w 12 5) (fld w 7 5) (fld w 2 5) (fld w 0 2))
  | 27 => takeNone (.aminn (headOf w) (fld w 12 5) (fld w 7 5) (fld w 2 5) (fld w 0 2))
  | 28 => takeNone (.amaxn (headOf w) (fld w 12 5) (fld w 7 5) (fld w 2 5) (fld w 0 2))
  | 29 => takeNone (.axchg (headOf w) (fld w 12 5) (fld w 7 5) (fld w 2 5) (fld w 0 2))
  | 30 => takeNone (.acas (headOf w) (fld w 12 5) (fld w 7 5) (fld w 2 5) (fld w 0 2))
  | 31 => whenFixed (bits w 21 1 == 0) (takeMod ks (.vaadd (headOf w) (fld w 12 5) (fld w 7 5) (fld w 2 5) (fld w 0 2)))
  | 32 => whenFixed (bits w 21 1 == 0) (takeMod ks (.vaor (headOf w) (fld w 12 5) (fld w 7 5) (fld w 2 5) (fld w 0 2)))
  | 33 => whenFixed (bits w 21 1 == 0) (takeMod ks (.vamax (headOf w) (fld w 12 5) (fld w 7 5) (fld w 2 5) (fld w 0 2)))
  | 34 => whenFixed (bits w 0 2 == 0 && bits w 12 5 == 0) (takeNone (.cadd (headOf w) (fld w 7 5) (fld w 2 5)))
  | 35 => whenFixed (bits w 0 2 == 0 && bits w 21 1 == 0) (takeNone (.waitge (headOf w) (fld w 12 5) (fld w 7 5) (fld w 2 5)))
  | 36 => whenFixed (bits w 0 2 == 0 && bits w 12 5 == 0 && bits w 21 1 == 0) (takeNone (.binit (headOf w) (fld w 7 5) (fld w 2 5)))
  | 37 => whenFixed (bits w 21 1 == 0) (takeNone (.barv (headOf w) (fld w 12 5) (fld w 7 5) (fld w 0 7)))
  | 38 => whenFixed (bits w 0 2 == 0 && bits w 21 1 == 0) (takeNone (.bwait (headOf w) (fld w 12 5) (fld w 7 5) (fld w 2 5)))
  | 39 =>
    whenFixed (bits w 0 7 == 0 && bits w 12 5 == 0 && bits w 21 1 == 0) (takeNone (.obrkBarrier (headOf w) (fld w 7 5))) <|>
    whenFixed (bits w 0 7 == 1 && bits w 12 5 == 0 && bits w 21 1 == 0) (takeNone (.obrkRing (headOf w) (fld w 7 5)))
  | 40 => whenFixed (bits w 0 2 == 0 && bits w 21 1 == 0) (takeNone (.lkreq (headOf w) (fld w 12 5) (fld w 7 5) (fld w 2 5)))
  | 41 => whenFixed (bits w 0 2 == 0 && bits w 21 1 == 0) (takeNone (.lktry (headOf w) (fld w 12 5) (fld w 7 5) (fld w 2 5)))
  | 42 => whenFixed (bits w 0 2 == 0 && bits w 21 1 == 0) (takeNone (.lkesc (headOf w) (fld w 12 5) (fld w 7 5) (fld w 2 5)))
  | 43 => whenFixed (bits w 0 2 == 0 && bits w 12 5 == 0 && bits w 21 1 == 0) (takeNone (.lkdwn (headOf w) (fld w 7 5) (fld w 2 5)))
  | 44 =>
    whenFixed (bits w 0 2 == 0 && bits w 12 5 == 0 && bits w 21 1 == 0) (takeNone (.lkrel (headOf w) (fld w 7 5) (fld w 2 5))) <|>
    whenFixed (bits w 0 17 == 1 && bits w 21 1 == 0) (takeNone (.lkrelAll (headOf w)))
  | 45 => whenFixed (bits w 0 2 == 0 && bits w 21 1 == 0) (takeNone (.lkqry (headOf w) (fld w 12 5) (fld w 7 5) (fld w 2 5)))
  | _ => none

/-- Class V of the opcode map (R43). -/
def decodeV (w : Nat) (ks : List (BitVec 28)) : Option (Instr × Nat) :=
  match bits w 22 6 with
  | 0 => whenFixed (bits w 0 22 == 0) (takeNone .nopV)
  | 1 => takeMod ks (.vadd (headOf w) (fld w 12 5) (fld w 7 5) (fld w 2 5) (fld w 0 2))
  | 2 => takeMod ks (.vsub (headOf w) (fld w 12 5) (fld w 7 5) (fld w 2 5) (fld w 0 2))
  | 3 => takeMod ks (.vmul (headOf w) (fld w 12 5) (fld w 7 5) (fld w 2 5) (fld w 0 2))
  | 4 => takeMod ks (.vfma (headOf w) (fld w 12 5) (fld w 7 5) (fld w 2 5) (fld w 0 2))
  | 5 => takeMod ks (.vfms (headOf w) (fld w 12 5) (fld w 7 5) (fld w 2 5) (fld w 0 2))
  | 6 => takeMod ks (.vfnma (headOf w) (fld w 12 5) (fld w 7 5) (fld w 2 5) (fld w 0 2))
  | 7 => takeMod ks (.vmin (headOf w) (fld w 12 5) (fld w 7 5) (fld w 2 5) (fld w 0 2))
  | 8 => takeMod ks (.vmax (headOf w) (fld w 12 5) (fld w 7 5) (fld w 2 5) (fld w 0 2))
  | 9 => whenFixed (bits w 2 5 == 0) (takeMod ks (.vabs (headOf w) (fld w 12 5) (fld w 7 5) (fld w 0 2)))
  | 10 => whenFixed (bits w 2 5 == 0) (takeMod ks (.vneg (headOf w) (fld w 12 5) (fld w 7 5) (fld w 0 2)))
  | 11 => takeMod ks (.vdiv (headOf w) (fld w 12 5) (fld w 7 5) (fld w 2 5) (fld w 0 2))
  | 12 => whenFixed (bits w 2 5 == 0) (takeMod ks (.vsqrt (headOf w) (fld w 12 5) (fld w 7 5) (fld w 0 2)))
  | 13 => whenFixed (bits w 2 5 == 0) (takeMod ks (.vrcp (headOf w) (fld w 12 5) (fld w 7 5) (fld w 0 2)))
  | 14 => whenFixed (bits w 2 5 == 0) (takeMod ks (.vrsq (headOf w) (fld w 12 5) (fld w 7 5) (fld w 0 2)))
  | 15 => whenFixed (bits w 2 5 == 0) (takeMod ks (.vexp (headOf w) (fld w 12 5) (fld w 7 5) (fld w 0 2)))
  | 16 => whenFixed (bits w 2 5 == 0) (takeMod ks (.vlog (headOf w) (fld w 12 5) (fld w 7 5) (fld w 0 2)))
  | 17 => whenFixed (bits w 2 5 == 0) (takeMod ks (.vtanh (headOf w) (fld w 12 5) (fld w 7 5) (fld w 0 2)))
  | 18 => takeMod ks (.vcvt (headOf w) (fld w 12 5) (fld w 7 5) (fld w 3 4) (fld w 1 2) (fld w 0 1))
  | 19 => whenFixed (bits w 12 1 == 0) (takeOne ks (.vcmp (headOf w) (fld w 14 3) (fld w 13 1) (fld w 7 5) (fld w 2 5) (fld w 0 2)))
  | 20 => whenFixed (bits w 0 2 == 0) (takeMod ks (.vsel (headOf w) (fld w 12 5) (fld w 7 5) (fld w 2 5)))
  | 21 => takeMod ks (.viadd (headOf w) (fld w 12 5) (fld w 7 5) (fld w 2 5) (fld w 0 2))
  | 22 => takeMod ks (.visub (headOf w) (fld w 12 5) (fld w 7 5) (fld w 2 5) (fld w 0 2))
  | 23 => takeMod ks (.vimul (headOf w) (fld w 12 5) (fld w 7 5) (fld w 2 5) (fld w 0 2))
  | 24 => takeMod ks (.vimulh (headOf w) (fld w 12 5) (fld w 7 5) (fld w 2 5) (fld w 0 2))
  | 25 => whenFixed (bits w 0 2 == 0) (takeMod ks (.vand (headOf w) (fld w 12 5) (fld w 7 5) (fld w 2 5)))
  | 26 => whenFixed (bits w 0 2 == 0) (takeMod ks (.vor (headOf w) (fld w 12 5) (fld w 7 5) (fld w 2 5)))
  | 27 => whenFixed (bits w 0 2 == 0) (takeMod ks (.vxor (headOf w) (fld w 12 5) (fld w 7 5) (fld w 2 5)))
  | 28 => takeMod ks (.vshl (headOf w) (fld w 12 5) (fld w 7 5) (fld w 2 5) (fld w 0 2))
  | 29 => takeMod ks (.vshr (headOf w) (fld w 12 5) (fld w 7 5) (fld w 2 5) (fld w 0 2))
  | 30 => takeMod ks (.vsra (headOf w) (fld w 12 5) (fld w 7 5) (fld w 2 5) (fld w 0 2))
  | 31 => takeMod ks (.vimin (headOf w) (fld w 12 5) (fld w 7 5) (fld w 2 5) (fld w 0 2))
  | 32 => takeMod ks (.vimax (headOf w) (fld w 12 5) (fld w 7 5) (fld w 2 5) (fld w 0 2))
  | 33 => whenFixed (bits w 2 5 == 0) (takeMod ks (.vpopc (headOf w) (fld w 12 5) (fld w 7 5) (fld w 0 2)))
  | 34 => whenFixed (bits w 2 5 == 0) (takeMod ks (.vclz (headOf w) (fld w 12 5) (fld w 7 5) (fld w 0 2)))
  | 35 => takeMod ks (.vperm (headOf w) (fld w 12 5) (fld w 7 5) (fld w 2 5) (fld w 0 2))
  | 36 => whenFixed (bits w 2 5 == 0) (takeMod ks (.vbcast (headOf w) (fld w 12 5) (fld w 7 5) (fld w 0 2)))
  | 37 => takeNone (.vext (headOf w) (fld w 12 5) (fld w 7 5) (fld w 2 5) (fld w 0 2))
  | 38 => takeNone (.vins (headOf w) (fld w 12 5) (fld w 7 5) (fld w 2 5) (fld w 0 2))
  | 39 => takeMod ks (.viota (headOf w) (fld w 12 5) (fld w 7 5) (fld w 2 5) (fld w 0 2))
  | 40 => takeMod ks (.vslide (headOf w) (fld w 12 5) (fld w 7 5) (fld w 0 7))
  | 41 => takeMod ks (.vred (headOf w) (fld w 12 5) (fld w 7 5) (fld w 2 5) (fld w 0 2))
  | 42 => takeMod ks (.vscan (headOf w) (fld w 12 5) (fld w 7 5) (fld w 2 5) (fld w 0 2))
  | 43 => whenFixed (bits w 2 5 == 0) (takeMod ks (.vmov (headOf w) (fld w 12 5) (fld w 7 5) (fld w 0 2)))
  | 44 => whenFixed (bits w 2 5 == 0) (takeMod ks (.vcomp (headOf w) (fld w 12 5) (fld w 7 5) (fld w 0 2)))
  | 45 => whenFixed (bits w 0 2 == 0) (takeNone (.lmand (headOf w) (fld w 12 5) (fld w 7 5) (fld w 2 5)))
  | 46 => whenFixed (bits w 0 2 == 0) (takeNone (.lmor (headOf w) (fld w 12 5) (fld w 7 5) (fld w 2 5)))
  | 47 => whenFixed (bits w 0 7 == 0) (takeNone (.lmnot (headOf w) (fld w 12 5) (fld w 7 5)))
  | 48 => whenFixed (bits w 0 7 == 0) (takeNone (.lmpop (headOf w) (fld w 12 5) (fld w 7 5)))
  | 49 => whenFixed (bits w 0 7 == 0 && bits w 21 1 == 0) (takeNone (.vsig (headOf w) (fld w 12 5) (fld w 7 5)))
  | 56 => whenFixed (bits w 21 1 == 0) (takeMod ks (.lxadd (headOf w) (fld w 12 5) (fld w 7 5) (fld w 2 5) (fld w 0 2)))
  | 57 => whenFixed (bits w 21 1 == 0) (takeMod ks (.lxsub (headOf w) (fld w 12 5) (fld w 7 5) (fld w 2 5) (fld w 0 2)))
  | 58 => whenFixed (bits w 21 1 == 0) (takeMod ks (.lxmul (headOf w) (fld w 12 5) (fld w 7 5) (fld w 2 5) (fld w 0 2)))
  | 59 => whenFixed (bits w 21 1 == 0) (takeMod ks (.lxdiv (headOf w) (fld w 12 5) (fld w 7 5) (fld w 2 5) (fld w 0 2)))
  | 60 => whenFixed (bits w 0 1 == 0 && bits w 21 1 == 0) (takeMod ks (.lxcvt (headOf w) (fld w 12 5) (fld w 7 5) (fld w 3 4) (fld w 2 1) (fld w 1 1)))
  | 61 => whenFixed (bits w 12 2 == 0 && bits w 21 1 == 0) (takeOne ks (.lxcmp (headOf w) (fld w 14 3) (fld w 7 5) (fld w 2 5) (fld w 0 2)))
  | 62 => whenFixed (bits w 2 5 == 0 && bits w 21 1 == 0) (takeMod ks (.lxsum (headOf w) (fld w 12 5) (fld w 7 5) (fld w 0 2)))
  | 63 => whenFixed (bits w 2 5 == 0 && bits w 21 1 == 0) (takeMod ks (.lxln (headOf w) (fld w 12 5) (fld w 7 5) (fld w 0 2)))
  | _ => none

/-- Class X of the opcode map (R43). -/
def decodeX (w : Nat) (ks : List (BitVec 28)) : Option (Instr × Nat) :=
  match bits w 22 6 with
  | 0 => whenFixed (bits w 0 22 == 0) (takeNone .nopX)
  | 1 => whenFixed (bits w 12 5 == 0 && bits w 21 1 == 0) (takeNone (.xwld (headOf w) (fld w 7 5) (fld w 2 5) (fld w 0 2)))
  | 2 => whenFixed (bits w 0 7 == 0 && bits w 12 5 == 0 && bits w 21 1 == 0) (takeOne ks (.xmac (headOf w) (fld w 7 5)))
  | 3 => whenFixed (bits w 0 7 == 0 && bits w 12 5 == 0 && bits w 21 1 == 0) (takeOne ks (.xmacz (headOf w) (fld w 7 5)))
  | 4 => whenFixed (bits w 0 17 == 0 && bits w 21 1 == 0) (takeNone (.xbegin (headOf w)))
  | 5 => whenFixed (bits w 0 17 == 0 && bits w 21 1 == 0) (takeNone (.xend (headOf w)))
  | 6 => whenFixed (bits w 0 2 == 0 && bits w 12 5 == 0 && bits w 21 1 == 0) (takeOne ks (.xepi (headOf w) (fld w 7 5) (fld w 2 5)))
  | 7 => whenFixed (bits w 0 2 == 0 && bits w 12 5 == 0 && bits w 21 1 == 0) (takeOne ks (.xaccld (headOf w) (fld w 7 5) (fld w 2 5)))
  | 8 => whenFixed (bits w 0 2 == 0 && bits w 12 5 == 0 && bits w 21 1 == 0) (takeOne ks (.xaccst (headOf w) (fld w 7 5) (fld w 2 5)))
  | 9 => whenFixed (bits w 0 12 == 0 && bits w 21 1 == 0) (takeOne ks (.xchk (headOf w) (fld w 12 5)))
  | 10 => whenFixed (bits w 0 7 == 0 && bits w 21 1 == 0) (takeNone (.xfix (headOf w) (fld w 12 5) (fld w 7 5)))
  | 11 => whenFixed (bits w 0 17 == 0 && bits w 21 1 == 0) (takeOne ks (.xclr (headOf w)))
  | 12 => whenFixed (bits w 0 7 == 0 && bits w 12 5 == 0 && bits w 21 1 == 0) (takeNone (.xcfg (headOf w) (fld w 7 5)))
  | _ => none

/-- Class Q of the opcode map (R43). -/
def decodeQ (w : Nat) (_ks : List (BitVec 28)) : Option (Instr × Nat) :=
  match bits w 22 6 with
  | 0 => whenFixed (bits w 0 22 == 0) (takeNone .nopQ)
  | 1 =>
    whenFixed (bits w 0 2 == 0 && bits w 21 1 == 0) (takeNone (.cpyHandle (headOf w) (fld w 12 5) (fld w 7 5) (fld w 2 5))) <|>
    whenFixed (bits w 0 2 == 1 && bits w 21 1 == 0) (takeNone (.cpyAddress (headOf w) (fld w 12 5) (fld w 7 5) (fld w 2 5)))
  | 2 =>
    whenFixed (bits w 0 2 == 0 && bits w 21 1 == 0) (takeNone (.cpypHandle (headOf w) (fld w 12 5) (fld w 7 5) (fld w 2 5))) <|>
    whenFixed (bits w 0 2 == 1 && bits w 21 1 == 0) (takeNone (.cpypAddress (headOf w) (fld w 12 5) (fld w 7 5) (fld w 2 5)))
  | 3 => whenFixed (bits w 0 2 == 0 && bits w 12 5 == 0 && bits w 21 1 == 0) (takeNone (.cpyw (headOf w) (fld w 7 5) (fld w 2 5)))
  | 4 =>
    whenFixed (bits w 0 2 == 0 && bits w 21 1 == 0) (takeNone (.subsLoad (headOf w) (fld w 12 5) (fld w 7 5) (fld w 2 5))) <|>
    whenFixed (bits w 0 2 == 1 && bits w 21 1 == 0) (takeNone (.subsStore (headOf w) (fld w 12 5) (fld w 7 5) (fld w 2 5)))
  | 5 => whenFixed (bits w 0 12 == 0 && bits w 21 1 == 0) (takeNone (.sube (headOf w) (fld w 12 5)))
  | 6 => whenFixed (bits w 0 7 == 0 && bits w 21 1 == 0) (takeNone (.hset (headOf w) (fld w 12 5) (fld w 7 5)))
  | 7 => whenFixed (bits w 21 1 == 0) (takeNone (.hwait (headOf w) (fld w 12 5) (fld w 7 5) (fld w 0 7)))
  | 8 => whenFixed (bits w 12 5 == 0 && bits w 21 1 == 0) (takeNone (.hadv (headOf w) (fld w 7 5) (fld w 0 7)))
  | 9 => whenFixed (bits w 0 2 == 0 && bits w 21 1 == 0) (takeNone (.tspawn (headOf w) (fld w 12 5) (fld w 7 5) (fld w 2 5)))
  | 10 => whenFixed (bits w 0 7 == 0 && bits w 12 5 == 0 && bits w 21 1 == 0) (takeNone (.klaunch (headOf w) (fld w 7 5)))
  | 11 => whenFixed (bits w 0 2 == 0 && bits w 21 1 == 0) (takeNone (.coll (headOf w) (fld w 12 5) (fld w 7 5) (fld w 2 5)))
  | 12 => whenFixed (bits w 0 2 == 0 && bits w 21 1 == 0) (takeNone (.fput (headOf w) (fld w 12 5) (fld w 7 5) (fld w 2 5)))
  | 13 => whenFixed (bits w 21 1 == 0) (takeNone (.qstat (headOf w) (fld w 12 5) (fld w 7 5) (fld w 0 7)))
  | _ => none

/-- Class G of the opcode map (R43). -/
def decodeG (w : Nat) (ks : List (BitVec 28)) : Option (Instr × Nat) :=
  match bits w 22 6 with
  | 0 => whenFixed (bits w 0 22 == 0) (takeNone .nopG)
  | 1 => whenFixed (bits w 0 17 == 0 && bits w 21 1 == 0) (takeNone (.ckpt (headOf w)))
  | 2 => whenFixed (bits w 12 5 == 0 && bits w 21 1 == 0) (takeNone (.cmpt (headOf w) (fld w 7 5) (fld w 2 5) (fld w 0 2)))
  | 3 => whenFixed (bits w 2 10 == 0 && bits w 21 1 == 0) (takeNone (.sigrd (headOf w) (fld w 12 5) (fld w 0 2)))
  | 4 => whenFixed (bits w 12 5 == 0 && bits w 21 1 == 0) (takeTwo ks (.phint (headOf w) (fld w 0 12)))
  | 5 => whenFixed (bits w 21 1 == 0) (takeNone (.csrr (headOf w) (fld w 12 5) (fld w 0 12)))
  | 6 => whenFixed (bits w 21 1 == 0) (takeNone (.csrw (headOf w) (fld w 12 5) (fld w 0 12)))
  | 7 => whenFixed (bits w 21 1 == 0) (takeNone (.csrs (headOf w) (fld w 12 5) (fld w 0 12)))
  | 8 => whenFixed (bits w 21 1 == 0) (takeNone (.csrc (headOf w) (fld w 12 5) (fld w 0 12)))
  | 9 =>
    whenFixed (bits w 0 17 == 0 && bits w 21 1 == 0) (takeNone (.eretRestore (headOf w))) <|>
    whenFixed (bits w 0 7 == 1 && bits w 12 5 == 0 && bits w 21 1 == 0) (takeNone (.eretContinue (headOf w) (fld w 7 5)))
  | 10 => whenFixed (bits w 12 5 == 0 && bits w 21 1 == 0) (takeNone (.sysc (headOf w) (fld w 0 12)))
  | 11 => whenFixed (bits w 0 7 == 0 && bits w 12 5 == 0 && bits w 21 1 == 0) (takeNone (.step (headOf w) (fld w 7 5)))
  | 12 => whenFixed (bits w 0 7 == 0 && bits w 12 5 == 0 && bits w 21 1 == 0) (takeNone (.abort (headOf w) (fld w 7 5)))
  | 13 =>
    whenFixed (bits w 0 2 == 0 && bits w 12 5 == 0 && bits w 21 1 == 0) (takeNone (.ttinvTile (headOf w) (fld w 7 5) (fld w 2 5))) <|>
    whenFixed (bits w 0 7 == 1 && bits w 12 5 == 0 && bits w 21 1 == 0) (takeNone (.ttinvTensor (headOf w) (fld w 7 5))) <|>
    whenFixed (bits w 0 17 == 2 && bits w 21 1 == 0) (takeNone (.ttinvAsid (headOf w))) <|>
    whenFixed (bits w 0 17 == 3 && bits w 21 1 == 0) (takeNone (.ttinvAll (headOf w)))
  | 14 =>
    whenFixed (bits w 0 2 == 0 && bits w 12 5 == 0 && bits w 21 1 == 0) (takeNone (.icinvCore (headOf w) (fld w 7 5) (fld w 2 5))) <|>
    whenFixed (bits w 0 2 == 1 && bits w 12 5 == 0 && bits w 21 1 == 0) (takeNone (.icinvPkg (headOf w) (fld w 7 5) (fld w 2 5)))
  | 15 => whenFixed (bits w 0 2 == 0 && bits w 21 1 == 0) (takeNone (.attq (headOf w) (fld w 12 5) (fld w 7 5) (fld w 2 5)))
  | _ => none

/-- The bits of a head in a slot word (R26). -/
def headNat (h : Head) : Nat := h.d.toNat * 2097152 + h.g.toNat * 131072

/-- The instruction of a slot word with its K payloads, and how many K slots it takes at most; none where no row
of the table matches or a required K slot is missing (R40, R44). -/
def decodeSlot (w : Nat) (ks : List (BitVec 28)) : Option (Instr × Nat) :=
  match bits w 28 3 with
  | 0 => decodeC w ks
  | 1 => decodeS w ks
  | 2 => decodeM w ks
  | 3 => decodeV w ks
  | 4 => decodeX w ks
  | 5 => decodeQ w ks
  | 6 => decodeG w ks
  | _ => none

/-- The word of a slot with E = 0, field by field as the table lays the row out; 0 for an event. -/
def slotWord : Instr → Nat
  | .nopC => 0x0
  | .nopS => 0x10000000
  | .nopM => 0x20000000
  | .nopV => 0x30000000
  | .nopX => 0x40000000
  | .nopQ => 0x50000000
  | .nopG => 0x60000000
  | .br h i _ => 0x400000 + headNat h + i.toNat
  | .bri h a i => 0x800000 + headNat h + a.toNat * 128 + i.toNat
  | .call h i _ => 0xc00000 + headNat h + i.toNat
  | .calli h a i => 0x1000000 + headNat h + a.toNat * 128 + i.toNat
  | .ret h => 0x1400000 + headNat h
  | .loopi h d a i =>
    0x1800000 + headNat h + d.toNat * 4096 + a.toNat * 128 + i.toNat
  | .loopb h d i _ => 0x1c00000 + headNat h + d.toNat * 4096 + i.toNat
  | .yield h => 0x2000000 + headNat h
  | .waitf h l k => 0x2400000 + headNat h + l.toNat * 65536 + k.toNat
  | .tend h => 0x2800000 + headNat h
  | .trap h i => 0x2c00000 + headNat h + i.toNat
  | .add h d a b =>
    0x10400000 + headNat h + d.toNat * 4096 + a.toNat * 128 + b.toNat * 4
  | .sub h d a b =>
    0x10800000 + headNat h + d.toNat * 4096 + a.toNat * 128 + b.toNat * 4
  | .addi h d a i _ =>
    0x10c00000 + headNat h + d.toNat * 4096 + a.toNat * 128 + i.toNat
  | .mul h d a b =>
    0x11000000 + headNat h + d.toNat * 4096 + a.toNat * 128 + b.toNat * 4
  | .mulh h d a b =>
    0x11400000 + headNat h + d.toNat * 4096 + a.toNat * 128 + b.toNat * 4
  | .mulhn h d a b =>
    0x11800000 + headNat h + d.toNat * 4096 + a.toNat * 128 + b.toNat * 4
  | .div h d a b =>
    0x11c00000 + headNat h + d.toNat * 4096 + a.toNat * 128 + b.toNat * 4
  | .divn h d a b =>
    0x12000000 + headNat h + d.toNat * 4096 + a.toNat * 128 + b.toNat * 4
  | .rem h d a b =>
    0x12400000 + headNat h + d.toNat * 4096 + a.toNat * 128 + b.toNat * 4
  | .remn h d a b =>
    0x12800000 + headNat h + d.toNat * 4096 + a.toNat * 128 + b.toNat * 4
  | .and h d a b =>
    0x12c00000 + headNat h + d.toNat * 4096 + a.toNat * 128 + b.toNat * 4
  | .or h d a b =>
    0x13000000 + headNat h + d.toNat * 4096 + a.toNat * 128 + b.toNat * 4
  | .xor h d a b =>
    0x13400000 + headNat h + d.toNat * 4096 + a.toNat * 128 + b.toNat * 4
  | .andn h d a b =>
    0x13800000 + headNat h + d.toNat * 4096 + a.toNat * 128 + b.toNat * 4
  | .andi h d a i _ =>
    0x13c00000 + headNat h + d.toNat * 4096 + a.toNat * 128 + i.toNat
  | .ori h d a i _ =>
    0x14000000 + headNat h + d.toNat * 4096 + a.toNat * 128 + i.toNat
  | .xori h d a i _ =>
    0x14400000 + headNat h + d.toNat * 4096 + a.toNat * 128 + i.toNat
  | .shl h d a b =>
    0x14800000 + headNat h + d.toNat * 4096 + a.toNat * 128 + b.toNat * 4
  | .shr h d a b =>
    0x14c00000 + headNat h + d.toNat * 4096 + a.toNat * 128 + b.toNat * 4
  | .sra h d a b =>
    0x15000000 + headNat h + d.toNat * 4096 + a.toNat * 128 + b.toNat * 4
  | .shli h d a i =>
    0x15400000 + headNat h + d.toNat * 4096 + a.toNat * 128 + i.toNat
  | .shri h d a i =>
    0x15800000 + headNat h + d.toNat * 4096 + a.toNat * 128 + i.toNat
  | .srai h d a i =>
    0x15c00000 + headNat h + d.toNat * 4096 + a.toNat * 128 + i.toNat
  | .rotl h d a b =>
    0x16000000 + headNat h + d.toNat * 4096 + a.toNat * 128 + b.toNat * 4
  | .clz h d a => 0x16400000 + headNat h + d.toNat * 4096 + a.toNat * 128
  | .ctz h d a => 0x16800000 + headNat h + d.toNat * 4096 + a.toNat * 128
  | .popc h d a => 0x16c00000 + headNat h + d.toNat * 4096 + a.toNat * 128
  | .min h d a b =>
    0x17000000 + headNat h + d.toNat * 4096 + a.toNat * 128 + b.toNat * 4
  | .max h d a b =>
    0x17400000 + headNat h + d.toNat * 4096 + a.toNat * 128 + b.toNat * 4
  | .minn h d a b =>
    0x17800000 + headNat h + d.toNat * 4096 + a.toNat * 128 + b.toNat * 4
  | .maxn h d a b =>
    0x17c00000 + headNat h + d.toNat * 4096 + a.toNat * 128 + b.toNat * 4
  | .sel h d a b m =>
    0x18000000 + headNat h + d.toNat * 4096 + a.toNat * 128 + b.toNat * 4 + m.toNat
  | .cmpeq h d a b m =>
    0x18400000 + headNat h + d.toNat * 4096 + a.toNat * 128 + b.toNat * 4 + m.toNat
  | .cmpne h d a b m =>
    0x18800000 + headNat h + d.toNat * 4096 + a.toNat * 128 + b.toNat * 4 + m.toNat
  | .cmplt h d a b m =>
    0x18c00000 + headNat h + d.toNat * 4096 + a.toNat * 128 + b.toNat * 4 + m.toNat
  | .cmpltn h d a b m =>
    0x19000000 + headNat h + d.toNat * 4096 + a.toNat * 128 + b.toNat * 4 + m.toNat
  | .cmpge h d a b m =>
    0x19400000 + headNat h + d.toNat * 4096 + a.toNat * 128 + b.toNat * 4 + m.toNat
  | .cmpgen h d a b m =>
    0x19800000 + headNat h + d.toNat * 4096 + a.toNat * 128 + b.toNat * 4 + m.toNat
  | .cmpeqi h d a i _ =>
    0x19c00000 + headNat h + d.toNat * 4096 + a.toNat * 128 + i.toNat
  | .cmplti h d a i _ =>
    0x1a000000 + headNat h + d.toNat * 4096 + a.toNat * 128 + i.toNat
  | .movi h d i _ => 0x1a400000 + headNat h + d.toNat * 4096 + i.toNat
  | .movhi h d i _ => 0x1a800000 + headNat h + d.toNat * 4096 + i.toNat
  | .madd h d a b =>
    0x1ac00000 + headNat h + d.toNat * 4096 + a.toNat * 128 + b.toNat * 4
  | .bfx h d a b m =>
    0x1b000000 + headNat h + d.toNat * 4096 + a.toNat * 128 + b.toNat * 4 + m.toNat
  | .bfi h d a b =>
    0x1b400000 + headNat h + d.toNat * 4096 + a.toNat * 128 + b.toNat * 4
  | .sext h d a i =>
    0x1b800000 + headNat h + d.toNat * 4096 + a.toNat * 128 + i.toNat
  | .zext h d a i =>
    0x1bc00000 + headNat h + d.toNat * 4096 + a.toNat * 128 + i.toNat
  | .pand h d a b =>
    0x1c000000 + headNat h + d.toNat * 4096 + a.toNat * 128 + b.toNat * 4
  | .por h d a b =>
    0x1c400000 + headNat h + d.toNat * 4096 + a.toNat * 128 + b.toNat * 4
  | .pxor h d a b =>
    0x1c800000 + headNat h + d.toNat * 4096 + a.toNat * 128 + b.toNat * 4
  | .pandn h d a b =>
    0x1cc00000 + headNat h + d.toNat * 4096 + a.toNat * 128 + b.toNat * 4
  | .pmov h d a m =>
    0x1d000000 + headNat h + d.toNat * 4096 + a.toNat * 128 + m.toNat
  | .nset h d a i =>
    0x1d400000 + headNat h + d.toNat * 4096 + a.toNat * 128 + i.toNat
  | .nadv h d a i =>
    0x1d800000 + headNat h + d.toNat * 4096 + a.toNat * 128 + i.toNat
  | .nget h d a i =>
    0x1dc00000 + headNat h + d.toNat * 4096 + a.toNat * 128 + i.toNat
  | .cntrd h d i => 0x1e000000 + headNat h + d.toNat * 4096 + i.toNat
  | .movsSFromF h d => 0x1e400000 + headNat h + d.toNat * 4096
  | .movsFFromS h a => 0x1e400001 + headNat h + a.toNat * 128
  | .movsSFromP h d => 0x1e400002 + headNat h + d.toNat * 4096
  | .movsPFromS h a => 0x1e400003 + headNat h + a.toNat * 128
  | .movsSFromLLo h d a => 0x1e400004 + headNat h + d.toNat * 4096 + a.toNat * 128
  | .movsSFromLHi h d a => 0x1e400005 + headNat h + d.toNat * 4096 + a.toNat * 128
  | .movsLLoFromS h d a => 0x1e400006 + headNat h + d.toNat * 4096 + a.toNat * 128
  | .movsLHiFromS h d a => 0x1e400007 + headNat h + d.toNat * 4096 + a.toNat * 128
  | .ldb h d a i _ =>
    0x20400000 + headNat h + d.toNat * 4096 + a.toNat * 128 + i.toNat
  | .ldh h d a i _ =>
    0x20800000 + headNat h + d.toNat * 4096 + a.toNat * 128 + i.toNat
  | .ldw h d a i _ =>
    0x20c00000 + headNat h + d.toNat * 4096 + a.toNat * 128 + i.toNat
  | .ldd h d a i _ =>
    0x21000000 + headNat h + d.toNat * 4096 + a.toNat * 128 + i.toNat
  | .stb h d a i _ =>
    0x21400000 + headNat h + d.toNat * 4096 + a.toNat * 128 + i.toNat
  | .sth h d a i _ =>
    0x21800000 + headNat h + d.toNat * 4096 + a.toNat * 128 + i.toNat
  | .stw h d a i _ =>
    0x21c00000 + headNat h + d.toNat * 4096 + a.toNat * 128 + i.toNat
  | .std h d a i _ =>
    0x22000000 + headNat h + d.toNat * 4096 + a.toNat * 128 + i.toNat
  | .ldv h d a i _ =>
    0x22400000 + headNat h + d.toNat * 4096 + a.toNat * 128 + i.toNat
  | .stv h d a i _ =>
    0x22800000 + headNat h + d.toNat * 4096 + a.toNat * 128 + i.toNat
  | .ldvs h d a b m _ =>
    0x22c00000 + headNat h + d.toNat * 4096 + a.toNat * 128 + b.toNat * 4 + m.toNat
  | .stvs h d a b m _ =>
    0x23000000 + headNat h + d.toNat * 4096 + a.toNat * 128 + b.toNat * 4 + m.toNat
  | .ldvg h d a b m _ =>
    0x23400000 + headNat h + d.toNat * 4096 + a.toNat * 128 + b.toNat * 4 + m.toNat
  | .stvg h d a b m _ =>
    0x23800000 + headNat h + d.toNat * 4096 + a.toNat * 128 + b.toNat * 4 + m.toNat
  | .ldq h d a i =>
    0x23c00000 + headNat h + d.toNat * 4096 + a.toNat * 128 + i.toNat
  | .tld h d a _ => 0x24000000 + headNat h + d.toNat * 4096 + a.toNat * 128
  | .tst h d a _ => 0x24400000 + headNat h + d.toNat * 4096 + a.toNat * 128
  | .prefAddress h a i _ => 0x24800000 + headNat h + a.toNat * 128 + i.toNat
  | .prefHandle h a => 0x24801000 + headNat h + a.toNat * 128
  | .fence h b f => 0x24c00000 + headNat h + b.toNat * 2048 + f.toNat * 32
  | .drain h p s => 0x25000000 + headNat h + p.toNat * 2048 + s.toNat
  | .aadd h d a b m =>
    0x25400000 + headNat h + d.toNat * 4096 + a.toNat * 128 + b.toNat * 4 + m.toNat
  | .aand h d a b m =>
    0x25800000 + headNat h + d.toNat * 4096 + a.toNat * 128 + b.toNat * 4 + m.toNat
  | .aor h d a b m =>
    0x25c00000 + headNat h + d.toNat * 4096 + a.toNat * 128 + b.toNat * 4 + m.toNat
  | .axor h d a b m =>
    0x26000000 + headNat h + d.toNat * 4096 + a.toNat * 128 + b.toNat * 4 + m.toNat
  | .amin h d a b m =>
    0x26400000 + headNat h + d.toNat * 4096 + a.toNat * 128 + b.toNat * 4 + m.toNat
  | .amax h d a b m =>
    0x26800000 + headNat h + d.toNat * 4096 + a.toNat * 128 + b.toNat * 4 + m.toNat
  | .aminn h d a b m =>
    0x26c00000 + headNat h + d.toNat * 4096 + a.toNat * 128 + b.toNat * 4 + m.toNat
  | .amaxn h d a b m =>
    0x27000000 + headNat h + d.toNat * 4096 + a.toNat * 128 + b.toNat * 4 + m.toNat
  | .axchg h d a b m =>
    0x27400000 + headNat h + d.toNat * 4096 + a.toNat * 128 + b.toNat * 4 + m.toNat
  | .acas h d a b m =>
    0x27800000 + headNat h + d.toNat * 4096 + a.toNat * 128 + b.toNat * 4 + m.toNat
  | .vaadd h d a b m _ =>
    0x27c00000 + headNat h + d.toNat * 4096 + a.toNat * 128 + b.toNat * 4 + m.toNat
  | .vaor h d a b m _ =>
    0x28000000 + headNat h + d.toNat * 4096 + a.toNat * 128 + b.toNat * 4 + m.toNat
  | .vamax h d a b m _ =>
    0x28400000 + headNat h + d.toNat * 4096 + a.toNat * 128 + b.toNat * 4 + m.toNat
  | .cadd h a b => 0x28800000 + headNat h + a.toNat * 128 + b.toNat * 4
  | .waitge h d a b =>
    0x28c00000 + headNat h + d.toNat * 4096 + a.toNat * 128 + b.toNat * 4
  | .binit h a b => 0x29000000 + headNat h + a.toNat * 128 + b.toNat * 4
  | .barv h d a i =>
    0x29400000 + headNat h + d.toNat * 4096 + a.toNat * 128 + i.toNat
  | .bwait h d a b =>
    0x29800000 + headNat h + d.toNat * 4096 + a.toNat * 128 + b.toNat * 4
  | .obrkBarrier h a => 0x29c00000 + headNat h + a.toNat * 128
  | .obrkRing h a => 0x29c00001 + headNat h + a.toNat * 128
  | .lkreq h d a b =>
    0x2a000000 + headNat h + d.toNat * 4096 + a.toNat * 128 + b.toNat * 4
  | .lktry h d a b =>
    0x2a400000 + headNat h + d.toNat * 4096 + a.toNat * 128 + b.toNat * 4
  | .lkesc h d a b =>
    0x2a800000 + headNat h + d.toNat * 4096 + a.toNat * 128 + b.toNat * 4
  | .lkdwn h a b => 0x2ac00000 + headNat h + a.toNat * 128 + b.toNat * 4
  | .lkrel h a b => 0x2b000000 + headNat h + a.toNat * 128 + b.toNat * 4
  | .lkrelAll h => 0x2b000001 + headNat h
  | .lkqry h d a b =>
    0x2b400000 + headNat h + d.toNat * 4096 + a.toNat * 128 + b.toNat * 4
  | .vadd h d a b m _ =>
    0x30400000 + headNat h + d.toNat * 4096 + a.toNat * 128 + b.toNat * 4 + m.toNat
  | .vsub h d a b m _ =>
    0x30800000 + headNat h + d.toNat * 4096 + a.toNat * 128 + b.toNat * 4 + m.toNat
  | .vmul h d a b m _ =>
    0x30c00000 + headNat h + d.toNat * 4096 + a.toNat * 128 + b.toNat * 4 + m.toNat
  | .vfma h d a b m _ =>
    0x31000000 + headNat h + d.toNat * 4096 + a.toNat * 128 + b.toNat * 4 + m.toNat
  | .vfms h d a b m _ =>
    0x31400000 + headNat h + d.toNat * 4096 + a.toNat * 128 + b.toNat * 4 + m.toNat
  | .vfnma h d a b m _ =>
    0x31800000 + headNat h + d.toNat * 4096 + a.toNat * 128 + b.toNat * 4 + m.toNat
  | .vmin h d a b m _ =>
    0x31c00000 + headNat h + d.toNat * 4096 + a.toNat * 128 + b.toNat * 4 + m.toNat
  | .vmax h d a b m _ =>
    0x32000000 + headNat h + d.toNat * 4096 + a.toNat * 128 + b.toNat * 4 + m.toNat
  | .vabs h d a m _ =>
    0x32400000 + headNat h + d.toNat * 4096 + a.toNat * 128 + m.toNat
  | .vneg h d a m _ =>
    0x32800000 + headNat h + d.toNat * 4096 + a.toNat * 128 + m.toNat
  | .vdiv h d a b m _ =>
    0x32c00000 + headNat h + d.toNat * 4096 + a.toNat * 128 + b.toNat * 4 + m.toNat
  | .vsqrt h d a m _ =>
    0x33000000 + headNat h + d.toNat * 4096 + a.toNat * 128 + m.toNat
  | .vrcp h d a m _ =>
    0x33400000 + headNat h + d.toNat * 4096 + a.toNat * 128 + m.toNat
  | .vrsq h d a m _ =>
    0x33800000 + headNat h + d.toNat * 4096 + a.toNat * 128 + m.toNat
  | .vexp h d a m _ =>
    0x33c00000 + headNat h + d.toNat * 4096 + a.toNat * 128 + m.toNat
  | .vlog h d a m _ =>
    0x34000000 + headNat h + d.toNat * 4096 + a.toNat * 128 + m.toNat
  | .vtanh h d a m _ =>
    0x34400000 + headNat h + d.toNat * 4096 + a.toNat * 128 + m.toNat
  | .vcvt h d a x p r _ =>
    0x34800000 + headNat h + d.toNat * 4096 + a.toNat * 128 + x.toNat * 8 + p.toNat * 2 + r.toNat
  | .vcmp h c f a b m _ =>
    0x34c00000 + headNat h + c.toNat * 16384 + f.toNat * 8192 + a.toNat * 128 + b.toNat * 4 + m.toNat
  | .vsel h d a b _ =>
    0x35000000 + headNat h + d.toNat * 4096 + a.toNat * 128 + b.toNat * 4
  | .viadd h d a b m _ =>
    0x35400000 + headNat h + d.toNat * 4096 + a.toNat * 128 + b.toNat * 4 + m.toNat
  | .visub h d a b m _ =>
    0x35800000 + headNat h + d.toNat * 4096 + a.toNat * 128 + b.toNat * 4 + m.toNat
  | .vimul h d a b m _ =>
    0x35c00000 + headNat h + d.toNat * 4096 + a.toNat * 128 + b.toNat * 4 + m.toNat
  | .vimulh h d a b m _ =>
    0x36000000 + headNat h + d.toNat * 4096 + a.toNat * 128 + b.toNat * 4 + m.toNat
  | .vand h d a b _ =>
    0x36400000 + headNat h + d.toNat * 4096 + a.toNat * 128 + b.toNat * 4
  | .vor h d a b _ =>
    0x36800000 + headNat h + d.toNat * 4096 + a.toNat * 128 + b.toNat * 4
  | .vxor h d a b _ =>
    0x36c00000 + headNat h + d.toNat * 4096 + a.toNat * 128 + b.toNat * 4
  | .vshl h d a b m _ =>
    0x37000000 + headNat h + d.toNat * 4096 + a.toNat * 128 + b.toNat * 4 + m.toNat
  | .vshr h d a b m _ =>
    0x37400000 + headNat h + d.toNat * 4096 + a.toNat * 128 + b.toNat * 4 + m.toNat
  | .vsra h d a b m _ =>
    0x37800000 + headNat h + d.toNat * 4096 + a.toNat * 128 + b.toNat * 4 + m.toNat
  | .vimin h d a b m _ =>
    0x37c00000 + headNat h + d.toNat * 4096 + a.toNat * 128 + b.toNat * 4 + m.toNat
  | .vimax h d a b m _ =>
    0x38000000 + headNat h + d.toNat * 4096 + a.toNat * 128 + b.toNat * 4 + m.toNat
  | .vpopc h d a m _ =>
    0x38400000 + headNat h + d.toNat * 4096 + a.toNat * 128 + m.toNat
  | .vclz h d a m _ =>
    0x38800000 + headNat h + d.toNat * 4096 + a.toNat * 128 + m.toNat
  | .vperm h d a b m _ =>
    0x38c00000 + headNat h + d.toNat * 4096 + a.toNat * 128 + b.toNat * 4 + m.toNat
  | .vbcast h d a m _ =>
    0x39000000 + headNat h + d.toNat * 4096 + a.toNat * 128 + m.toNat
  | .vext h d a b m =>
    0x39400000 + headNat h + d.toNat * 4096 + a.toNat * 128 + b.toNat * 4 + m.toNat
  | .vins h d a b m =>
    0x39800000 + headNat h + d.toNat * 4096 + a.toNat * 128 + b.toNat * 4 + m.toNat
  | .viota h d a b m _ =>
    0x39c00000 + headNat h + d.toNat * 4096 + a.toNat * 128 + b.toNat * 4 + m.toNat
  | .vslide h d a i _ =>
    0x3a000000 + headNat h + d.toNat * 4096 + a.toNat * 128 + i.toNat
  | .vred h d a b m _ =>
    0x3a400000 + headNat h + d.toNat * 4096 + a.toNat * 128 + b.toNat * 4 + m.toNat
  | .vscan h d a b m _ =>
    0x3a800000 + headNat h + d.toNat * 4096 + a.toNat * 128 + b.toNat * 4 + m.toNat
  | .vmov h d a m _ =>
    0x3ac00000 + headNat h + d.toNat * 4096 + a.toNat * 128 + m.toNat
  | .vcomp h d a m _ =>
    0x3b000000 + headNat h + d.toNat * 4096 + a.toNat * 128 + m.toNat
  | .lmand h d a b =>
    0x3b400000 + headNat h + d.toNat * 4096 + a.toNat * 128 + b.toNat * 4
  | .lmor h d a b =>
    0x3b800000 + headNat h + d.toNat * 4096 + a.toNat * 128 + b.toNat * 4
  | .lmnot h d a => 0x3bc00000 + headNat h + d.toNat * 4096 + a.toNat * 128
  | .lmpop h d a => 0x3c000000 + headNat h + d.toNat * 4096 + a.toNat * 128
  | .vsig h d a => 0x3c400000 + headNat h + d.toNat * 4096 + a.toNat * 128
  | .lxadd h d a b m _ =>
    0x3e000000 + headNat h + d.toNat * 4096 + a.toNat * 128 + b.toNat * 4 + m.toNat
  | .lxsub h d a b m _ =>
    0x3e400000 + headNat h + d.toNat * 4096 + a.toNat * 128 + b.toNat * 4 + m.toNat
  | .lxmul h d a b m _ =>
    0x3e800000 + headNat h + d.toNat * 4096 + a.toNat * 128 + b.toNat * 4 + m.toNat
  | .lxdiv h d a b m _ =>
    0x3ec00000 + headNat h + d.toNat * 4096 + a.toNat * 128 + b.toNat * 4 + m.toNat
  | .lxcvt h d a x w r _ =>
    0x3f000000 + headNat h + d.toNat * 4096 + a.toNat * 128 + x.toNat * 8 + w.toNat * 4 + r.toNat * 2
  | .lxcmp h c a b m _ =>
    0x3f400000 + headNat h + c.toNat * 16384 + a.toNat * 128 + b.toNat * 4 + m.toNat
  | .lxsum h d a m _ =>
    0x3f800000 + headNat h + d.toNat * 4096 + a.toNat * 128 + m.toNat
  | .lxln h d a m _ =>
    0x3fc00000 + headNat h + d.toNat * 4096 + a.toNat * 128 + m.toNat
  | .xwld h a b m =>
    0x40400000 + headNat h + a.toNat * 128 + b.toNat * 4 + m.toNat
  | .xmac h a _ => 0x40800000 + headNat h + a.toNat * 128
  | .xmacz h a _ => 0x40c00000 + headNat h + a.toNat * 128
  | .xbegin h => 0x41000000 + headNat h
  | .xend h => 0x41400000 + headNat h
  | .xepi h a b _ => 0x41800000 + headNat h + a.toNat * 128 + b.toNat * 4
  | .xaccld h a b _ => 0x41c00000 + headNat h + a.toNat * 128 + b.toNat * 4
  | .xaccst h a b _ => 0x42000000 + headNat h + a.toNat * 128 + b.toNat * 4
  | .xchk h d _ => 0x42400000 + headNat h + d.toNat * 4096
  | .xfix h d a => 0x42800000 + headNat h + d.toNat * 4096 + a.toNat * 128
  | .xclr h _ => 0x42c00000 + headNat h
  | .xcfg h a => 0x43000000 + headNat h + a.toNat * 128
  | .cpyHandle h d a b =>
    0x50400000 + headNat h + d.toNat * 4096 + a.toNat * 128 + b.toNat * 4
  | .cpyAddress h d a b =>
    0x50400001 + headNat h + d.toNat * 4096 + a.toNat * 128 + b.toNat * 4
  | .cpypHandle h d a b =>
    0x50800000 + headNat h + d.toNat * 4096 + a.toNat * 128 + b.toNat * 4
  | .cpypAddress h d a b =>
    0x50800001 + headNat h + d.toNat * 4096 + a.toNat * 128 + b.toNat * 4
  | .cpyw h a b => 0x50c00000 + headNat h + a.toNat * 128 + b.toNat * 4
  | .subsLoad h d a b =>
    0x51000000 + headNat h + d.toNat * 4096 + a.toNat * 128 + b.toNat * 4
  | .subsStore h d a b =>
    0x51000001 + headNat h + d.toNat * 4096 + a.toNat * 128 + b.toNat * 4
  | .sube h d => 0x51400000 + headNat h + d.toNat * 4096
  | .hset h d a => 0x51800000 + headNat h + d.toNat * 4096 + a.toNat * 128
  | .hwait h d a i =>
    0x51c00000 + headNat h + d.toNat * 4096 + a.toNat * 128 + i.toNat
  | .hadv h a i => 0x52000000 + headNat h + a.toNat * 128 + i.toNat
  | .tspawn h d a b =>
    0x52400000 + headNat h + d.toNat * 4096 + a.toNat * 128 + b.toNat * 4
  | .klaunch h a => 0x52800000 + headNat h + a.toNat * 128
  | .coll h d a b =>
    0x52c00000 + headNat h + d.toNat * 4096 + a.toNat * 128 + b.toNat * 4
  | .fput h d a b =>
    0x53000000 + headNat h + d.toNat * 4096 + a.toNat * 128 + b.toNat * 4
  | .qstat h d a i =>
    0x53400000 + headNat h + d.toNat * 4096 + a.toNat * 128 + i.toNat
  | .ckpt h => 0x60400000 + headNat h
  | .cmpt h a b m =>
    0x60800000 + headNat h + a.toNat * 128 + b.toNat * 4 + m.toNat
  | .sigrd h d m => 0x60c00000 + headNat h + d.toNat * 4096 + m.toNat
  | .phint h i _ _ => 0x61000000 + headNat h + i.toNat
  | .csrr h d i => 0x61400000 + headNat h + d.toNat * 4096 + i.toNat
  | .csrw h d i => 0x61800000 + headNat h + d.toNat * 4096 + i.toNat
  | .csrs h d i => 0x61c00000 + headNat h + d.toNat * 4096 + i.toNat
  | .csrc h d i => 0x62000000 + headNat h + d.toNat * 4096 + i.toNat
  | .eretRestore h => 0x62400000 + headNat h
  | .eretContinue h a => 0x62400001 + headNat h + a.toNat * 128
  | .sysc h i => 0x62800000 + headNat h + i.toNat
  | .step h a => 0x62c00000 + headNat h + a.toNat * 128
  | .abort h a => 0x63000000 + headNat h + a.toNat * 128
  | .ttinvTile h a b => 0x63400000 + headNat h + a.toNat * 128 + b.toNat * 4
  | .ttinvTensor h a => 0x63400001 + headNat h + a.toNat * 128
  | .ttinvAsid h => 0x63400002 + headNat h
  | .ttinvAll h => 0x63400003 + headNat h
  | .icinvCore h a b => 0x63800000 + headNat h + a.toNat * 128 + b.toNat * 4
  | .icinvPkg h a b => 0x63800001 + headNat h + a.toNat * 128 + b.toNat * 4
  | .attq h d a b =>
    0x63c00000 + headNat h + d.toNat * 4096 + a.toNat * 128 + b.toNat * 4
  | _ => 0

/-- The K payloads an instruction owns, K1 first (R31). -/
def payloads : Instr → List (BitVec 28)
  | .br _ _ ks => ks
  | .call _ _ ks => ks
  | .loopb _ _ _ ks => ks
  | .addi _ _ _ _ ks => ks
  | .andi _ _ _ _ ks => ks
  | .ori _ _ _ _ ks => ks
  | .xori _ _ _ _ ks => ks
  | .cmpeqi _ _ _ _ ks => ks
  | .cmplti _ _ _ _ ks => ks
  | .movi _ _ _ ks => ks
  | .movhi _ _ _ ks => ks
  | .ldb _ _ _ _ ks => ks
  | .ldh _ _ _ _ ks => ks
  | .ldw _ _ _ _ ks => ks
  | .ldd _ _ _ _ ks => ks
  | .stb _ _ _ _ ks => ks
  | .sth _ _ _ _ ks => ks
  | .stw _ _ _ _ ks => ks
  | .std _ _ _ _ ks => ks
  | .ldv _ _ _ _ md => md.toList
  | .stv _ _ _ _ md => md.toList
  | .ldvs _ _ _ _ _ md => md.toList
  | .stvs _ _ _ _ _ md => md.toList
  | .ldvg _ _ _ _ _ md => md.toList
  | .stvg _ _ _ _ _ md => md.toList
  | .tld _ _ _ md => md.toList
  | .tst _ _ _ md => md.toList
  | .prefAddress _ _ _ ks => ks
  | .vaadd _ _ _ _ _ md => md.toList
  | .vaor _ _ _ _ _ md => md.toList
  | .vamax _ _ _ _ _ md => md.toList
  | .vadd _ _ _ _ _ md => md.toList
  | .vsub _ _ _ _ _ md => md.toList
  | .vmul _ _ _ _ _ md => md.toList
  | .vfma _ _ _ _ _ md => md.toList
  | .vfms _ _ _ _ _ md => md.toList
  | .vfnma _ _ _ _ _ md => md.toList
  | .vmin _ _ _ _ _ md => md.toList
  | .vmax _ _ _ _ _ md => md.toList
  | .vabs _ _ _ _ md => md.toList
  | .vneg _ _ _ _ md => md.toList
  | .vdiv _ _ _ _ _ md => md.toList
  | .vsqrt _ _ _ _ md => md.toList
  | .vrcp _ _ _ _ md => md.toList
  | .vrsq _ _ _ _ md => md.toList
  | .vexp _ _ _ _ md => md.toList
  | .vlog _ _ _ _ md => md.toList
  | .vtanh _ _ _ _ md => md.toList
  | .vcvt _ _ _ _ _ _ md => md.toList
  | .vcmp _ _ _ _ _ _ md => [md]
  | .vsel _ _ _ _ md => md.toList
  | .viadd _ _ _ _ _ md => md.toList
  | .visub _ _ _ _ _ md => md.toList
  | .vimul _ _ _ _ _ md => md.toList
  | .vimulh _ _ _ _ _ md => md.toList
  | .vand _ _ _ _ md => md.toList
  | .vor _ _ _ _ md => md.toList
  | .vxor _ _ _ _ md => md.toList
  | .vshl _ _ _ _ _ md => md.toList
  | .vshr _ _ _ _ _ md => md.toList
  | .vsra _ _ _ _ _ md => md.toList
  | .vimin _ _ _ _ _ md => md.toList
  | .vimax _ _ _ _ _ md => md.toList
  | .vpopc _ _ _ _ md => md.toList
  | .vclz _ _ _ _ md => md.toList
  | .vperm _ _ _ _ _ md => md.toList
  | .vbcast _ _ _ _ md => md.toList
  | .viota _ _ _ _ _ md => md.toList
  | .vslide _ _ _ _ md => md.toList
  | .vred _ _ _ _ _ md => md.toList
  | .vscan _ _ _ _ _ md => md.toList
  | .vmov _ _ _ _ md => md.toList
  | .vcomp _ _ _ _ md => md.toList
  | .lxadd _ _ _ _ _ md => md.toList
  | .lxsub _ _ _ _ _ md => md.toList
  | .lxmul _ _ _ _ _ md => md.toList
  | .lxdiv _ _ _ _ _ md => md.toList
  | .lxcvt _ _ _ _ _ _ md => md.toList
  | .lxcmp _ _ _ _ _ md => [md]
  | .lxsum _ _ _ _ md => md.toList
  | .lxln _ _ _ _ md => md.toList
  | .xmac _ _ ds => [ds]
  | .xmacz _ _ ds => [ds]
  | .xepi _ _ _ ds => [ds]
  | .xaccld _ _ _ ds => [ds]
  | .xaccst _ _ _ ds => [ds]
  | .xchk _ _ ds => [ds]
  | .xclr _ ds => [ds]
  | .phint _ _ k1 k2 => [k1, k2]
  | _ => []

/-- The head of an instruction; a NOP and an event have p0 and no duplicate bit. -/
def headOfInstr : Instr → Head
  | .br h _ _ => h
  | .bri h _ _ => h
  | .call h _ _ => h
  | .calli h _ _ => h
  | .ret h => h
  | .loopi h _ _ _ => h
  | .loopb h _ _ _ => h
  | .yield h => h
  | .waitf h _ _ => h
  | .tend h => h
  | .trap h _ => h
  | .add h _ _ _ => h
  | .sub h _ _ _ => h
  | .addi h _ _ _ _ => h
  | .mul h _ _ _ => h
  | .mulh h _ _ _ => h
  | .mulhn h _ _ _ => h
  | .div h _ _ _ => h
  | .divn h _ _ _ => h
  | .rem h _ _ _ => h
  | .remn h _ _ _ => h
  | .and h _ _ _ => h
  | .or h _ _ _ => h
  | .xor h _ _ _ => h
  | .andn h _ _ _ => h
  | .andi h _ _ _ _ => h
  | .ori h _ _ _ _ => h
  | .xori h _ _ _ _ => h
  | .shl h _ _ _ => h
  | .shr h _ _ _ => h
  | .sra h _ _ _ => h
  | .shli h _ _ _ => h
  | .shri h _ _ _ => h
  | .srai h _ _ _ => h
  | .rotl h _ _ _ => h
  | .clz h _ _ => h
  | .ctz h _ _ => h
  | .popc h _ _ => h
  | .min h _ _ _ => h
  | .max h _ _ _ => h
  | .minn h _ _ _ => h
  | .maxn h _ _ _ => h
  | .sel h _ _ _ _ => h
  | .cmpeq h _ _ _ _ => h
  | .cmpne h _ _ _ _ => h
  | .cmplt h _ _ _ _ => h
  | .cmpltn h _ _ _ _ => h
  | .cmpge h _ _ _ _ => h
  | .cmpgen h _ _ _ _ => h
  | .cmpeqi h _ _ _ _ => h
  | .cmplti h _ _ _ _ => h
  | .movi h _ _ _ => h
  | .movhi h _ _ _ => h
  | .madd h _ _ _ => h
  | .bfx h _ _ _ _ => h
  | .bfi h _ _ _ => h
  | .sext h _ _ _ => h
  | .zext h _ _ _ => h
  | .pand h _ _ _ => h
  | .por h _ _ _ => h
  | .pxor h _ _ _ => h
  | .pandn h _ _ _ => h
  | .pmov h _ _ _ => h
  | .nset h _ _ _ => h
  | .nadv h _ _ _ => h
  | .nget h _ _ _ => h
  | .cntrd h _ _ => h
  | .movsSFromF h _ => h
  | .movsFFromS h _ => h
  | .movsSFromP h _ => h
  | .movsPFromS h _ => h
  | .movsSFromLLo h _ _ => h
  | .movsSFromLHi h _ _ => h
  | .movsLLoFromS h _ _ => h
  | .movsLHiFromS h _ _ => h
  | .ldb h _ _ _ _ => h
  | .ldh h _ _ _ _ => h
  | .ldw h _ _ _ _ => h
  | .ldd h _ _ _ _ => h
  | .stb h _ _ _ _ => h
  | .sth h _ _ _ _ => h
  | .stw h _ _ _ _ => h
  | .std h _ _ _ _ => h
  | .ldv h _ _ _ _ => h
  | .stv h _ _ _ _ => h
  | .ldvs h _ _ _ _ _ => h
  | .stvs h _ _ _ _ _ => h
  | .ldvg h _ _ _ _ _ => h
  | .stvg h _ _ _ _ _ => h
  | .ldq h _ _ _ => h
  | .tld h _ _ _ => h
  | .tst h _ _ _ => h
  | .prefAddress h _ _ _ => h
  | .prefHandle h _ => h
  | .fence h _ _ => h
  | .drain h _ _ => h
  | .aadd h _ _ _ _ => h
  | .aand h _ _ _ _ => h
  | .aor h _ _ _ _ => h
  | .axor h _ _ _ _ => h
  | .amin h _ _ _ _ => h
  | .amax h _ _ _ _ => h
  | .aminn h _ _ _ _ => h
  | .amaxn h _ _ _ _ => h
  | .axchg h _ _ _ _ => h
  | .acas h _ _ _ _ => h
  | .vaadd h _ _ _ _ _ => h
  | .vaor h _ _ _ _ _ => h
  | .vamax h _ _ _ _ _ => h
  | .cadd h _ _ => h
  | .waitge h _ _ _ => h
  | .binit h _ _ => h
  | .barv h _ _ _ => h
  | .bwait h _ _ _ => h
  | .obrkBarrier h _ => h
  | .obrkRing h _ => h
  | .lkreq h _ _ _ => h
  | .lktry h _ _ _ => h
  | .lkesc h _ _ _ => h
  | .lkdwn h _ _ => h
  | .lkrel h _ _ => h
  | .lkrelAll h => h
  | .lkqry h _ _ _ => h
  | .vadd h _ _ _ _ _ => h
  | .vsub h _ _ _ _ _ => h
  | .vmul h _ _ _ _ _ => h
  | .vfma h _ _ _ _ _ => h
  | .vfms h _ _ _ _ _ => h
  | .vfnma h _ _ _ _ _ => h
  | .vmin h _ _ _ _ _ => h
  | .vmax h _ _ _ _ _ => h
  | .vabs h _ _ _ _ => h
  | .vneg h _ _ _ _ => h
  | .vdiv h _ _ _ _ _ => h
  | .vsqrt h _ _ _ _ => h
  | .vrcp h _ _ _ _ => h
  | .vrsq h _ _ _ _ => h
  | .vexp h _ _ _ _ => h
  | .vlog h _ _ _ _ => h
  | .vtanh h _ _ _ _ => h
  | .vcvt h _ _ _ _ _ _ => h
  | .vcmp h _ _ _ _ _ _ => h
  | .vsel h _ _ _ _ => h
  | .viadd h _ _ _ _ _ => h
  | .visub h _ _ _ _ _ => h
  | .vimul h _ _ _ _ _ => h
  | .vimulh h _ _ _ _ _ => h
  | .vand h _ _ _ _ => h
  | .vor h _ _ _ _ => h
  | .vxor h _ _ _ _ => h
  | .vshl h _ _ _ _ _ => h
  | .vshr h _ _ _ _ _ => h
  | .vsra h _ _ _ _ _ => h
  | .vimin h _ _ _ _ _ => h
  | .vimax h _ _ _ _ _ => h
  | .vpopc h _ _ _ _ => h
  | .vclz h _ _ _ _ => h
  | .vperm h _ _ _ _ _ => h
  | .vbcast h _ _ _ _ => h
  | .vext h _ _ _ _ => h
  | .vins h _ _ _ _ => h
  | .viota h _ _ _ _ _ => h
  | .vslide h _ _ _ _ => h
  | .vred h _ _ _ _ _ => h
  | .vscan h _ _ _ _ _ => h
  | .vmov h _ _ _ _ => h
  | .vcomp h _ _ _ _ => h
  | .lmand h _ _ _ => h
  | .lmor h _ _ _ => h
  | .lmnot h _ _ => h
  | .lmpop h _ _ => h
  | .vsig h _ _ => h
  | .lxadd h _ _ _ _ _ => h
  | .lxsub h _ _ _ _ _ => h
  | .lxmul h _ _ _ _ _ => h
  | .lxdiv h _ _ _ _ _ => h
  | .lxcvt h _ _ _ _ _ _ => h
  | .lxcmp h _ _ _ _ _ => h
  | .lxsum h _ _ _ _ => h
  | .lxln h _ _ _ _ => h
  | .xwld h _ _ _ => h
  | .xmac h _ _ => h
  | .xmacz h _ _ => h
  | .xbegin h => h
  | .xend h => h
  | .xepi h _ _ _ => h
  | .xaccld h _ _ _ => h
  | .xaccst h _ _ _ => h
  | .xchk h _ _ => h
  | .xfix h _ _ => h
  | .xclr h _ => h
  | .xcfg h _ => h
  | .cpyHandle h _ _ _ => h
  | .cpyAddress h _ _ _ => h
  | .cpypHandle h _ _ _ => h
  | .cpypAddress h _ _ _ => h
  | .cpyw h _ _ => h
  | .subsLoad h _ _ _ => h
  | .subsStore h _ _ _ => h
  | .sube h _ => h
  | .hset h _ _ => h
  | .hwait h _ _ _ => h
  | .hadv h _ _ => h
  | .tspawn h _ _ _ => h
  | .klaunch h _ => h
  | .coll h _ _ _ => h
  | .fput h _ _ _ => h
  | .qstat h _ _ _ => h
  | .ckpt h => h
  | .cmpt h _ _ _ => h
  | .sigrd h _ _ => h
  | .phint h _ _ _ => h
  | .csrr h _ _ => h
  | .csrw h _ _ => h
  | .csrs h _ _ => h
  | .csrc h _ _ => h
  | .eretRestore h => h
  | .eretContinue h _ => h
  | .sysc h _ => h
  | .step h _ => h
  | .abort h _ => h
  | .ttinvTile h _ _ => h
  | .ttinvTensor h _ => h
  | .ttinvAsid h => h
  | .ttinvAll h => h
  | .icinvCore h _ _ => h
  | .icinvPkg h _ _ => h
  | .attq h _ _ _ => h
  | _ => ⟨false, 0⟩

/-- The words an instruction occupies by itself, each with E = 0: its slot word and the K slots it owns. A
duplicate owns none (R31, R34). -/
def encode (i : Instr) : List Nat :=
  slotWord i :: (if (headOfInstr i).d then [] else (payloads i).map fun p => 0x70000000 + p.toNat)

/-- A slot of a bundle with its place and the K payloads that follow it. -/
structure Group where
  /-- Slot index, 0 to 7. -/
  idx : Nat
  /-- The slot word. -/
  word : Nat
  /-- Payloads of the K slots after it, K1 first. -/
  ks : List (BitVec 28)
  deriving DecidableEq, Repr

/-- Whether a word is a K slot (R26). -/
def isK (w : Nat) : Bool := bits w 28 3 == 7

/-- The words of a bundle from slot `n` on, each K slot with its owner; `own` is the owner being read. -/
def groupFrom (n : Nat) (own : Group) : List Nat → List Group
  | [] => [own]
  | w :: ws =>
    if isK w then groupFrom (n + 1) { own with ks := own.ks ++ [fld w 0 28] } ws
    else own :: groupFrom (n + 1) ⟨n, w, []⟩ ws

/-- The groups of a bundle; none where slot 0 is a K slot (R31). -/
def groupBundle : List Nat → Option (List Group)
  | [] => some []
  | w :: ws => if isK w then none else some (groupFrom 1 ⟨0, w, []⟩ ws)

/-- The execution units of a bundle's slots (R27). -/
inductive Unit' where
  /-- The branch unit. -/
  | bu
  /-- Scalar unit SA. -/
  | sa
  /-- Scalar unit SB. -/
  | sb
  /-- Address unit AGA with the memory port. -/
  | aga
  /-- Address unit AGB. -/
  | agb
  /-- Vector pipe VA. -/
  | va
  /-- Vector pipe VB. -/
  | vb
  /-- The matrix engine. -/
  | mx
  /-- The copy and stream port. -/
  | cs
  /-- The system unit. -/
  | sy
  deriving DecidableEq, Repr

/-- A decoded slot: place, unit (none for a NOP), instruction, and the word it came from. -/
structure Placed where
  /-- Slot index. -/
  idx : Nat
  /-- Unit it occupies; none for a NOP. -/
  unit : Option Unit'
  /-- The instruction. -/
  ins : Instr
  /-- The slot word. -/
  word : Nat
  /-- The payloads it uses: its own, or for a duplicate its original's. -/
  ks : List (BitVec 28)
  deriving DecidableEq, Repr

/-- The unit of an original of class `c`, given how many originals of that class precede it; none where the class
count is exceeded (R27). -/
def unitOfOriginal (c before : Nat) : Option Unit' :=
  match c, before with
  | 0, 0 => some .bu
  | 1, 0 => some .sa
  | 1, 1 => some .sb
  | 2, 0 => some .aga
  | 3, 0 => some .va
  | 3, 1 => some .vb
  | 4, 0 => some .mx
  | 5, 0 => some .cs
  | 6, 0 => some .sy
  | _, _ => none

/-- The unit of a duplicate, given its original's unit (R27). -/
def unitOfDuplicate : Unit' → Option Unit'
  | .bu => some .sb
  | .sa => some .sb
  | .sb => some .sa
  | .aga => some .agb
  | .va => some .vb
  | .vb => some .va
  | _ => none

/-- The originals of class `c` among the slots already decoded; NOPs do not count (R27). -/
def originalsOf (c : Nat) (done : List Placed) : Nat :=
  (done.filter fun p => bits p.word 28 3 == c && p.unit.isSome && bits p.word 21 1 == 0).length

/-- The nearest preceding slot of a class; `done` holds the decoded slots, the last first (R34). -/
def nearestOf (c : Nat) (done : List Placed) : Option Placed :=
  done.find? fun p => bits p.word 28 3 == c

/-- One slot after the slots `done` (last first): the decoded slot, or the index R40 names. -/
def decodeGroup (vregs : Nat) (done : List Placed) (g : Group) : Except Nat Placed :=
  let c := bits g.word 28 3
  if bits g.word 21 1 = 1 && bits g.word 22 6 != 0 then
    -- a duplicate: its original is the nearest preceding slot of its class, itself no duplicate and no NOP
    match nearestOf c done with
    | none => .error g.idx
    | some o =>
      if bits o.word 21 1 = 1 || bits o.word 22 6 != bits g.word 22 6 || bits o.word 0 21 != bits g.word 0 21 then
        .error g.idx
      else
        match decodeSlot g.word o.ks, o.unit.bind unitOfDuplicate with
        | some (i, _), some u =>
          if wfErr i != none || done.any (fun p => p.unit == some u) then .error g.idx
          else if g.ks != [] then .error (g.idx + 1)
          else .ok ⟨g.idx, some u, i, g.word, o.ks⟩
        | _, _ => .error g.idx
  else
    match decodeSlot g.word g.ks with
    | none => .error g.idx
    | some (i, n) =>
      let u := if bits g.word 22 6 = 0 then none else unitOfOriginal c (originalsOf c done)
      if bits g.word 22 6 != 0 && (u == none || done.any (fun p => p.unit == u)) then .error g.idx
      else if !vregsOk vregs i then .error g.idx
      else
        match wfErr i with
        | some k => .error (g.idx + k)
        | none => if g.ks.length > n then .error (g.idx + n + 1) else .ok ⟨g.idx, u, i, g.word, g.ks⟩

/-- All slots in order; the answer lists the last slot first. -/
def decodeGroups (vregs : Nat) (done : List Placed) : List Group → Except Nat (List Placed)
  | [] => .ok done
  | g :: gs =>
    match decodeGroup vregs done g with
    | .error k => .error k
    | .ok p => decodeGroups vregs (p :: done) gs

/-- Whether a slot word is a CKPT (R43). -/
def isCkptWord (w : Nat) : Bool := bits w 22 9 == 0x181

/-- Whether a slot word is a DRAIN (R43). -/
def isDrainWord (w : Nat) : Bool := bits w 22 9 == 0x94

/-- The decoded slots of a framed bundle in slot order, or the lowest offending slot (R40). DRAIN needs a CKPT in
its bundle (07 R141). -/
def decodeBundle (vregs : Nat) (ws : List Nat) : Except Nat (List Placed) :=
  match groupBundle ws with
  | none => .error 0
  | some gs =>
    let drain := if ws.any isCkptWord then none else (gs.find? fun g => isDrainWord g.word).map (·.idx)
    match decodeGroups vregs [] gs, drain with
    | .error k, some j => .error (min k j)
    | .error k, none => .error k
    | .ok _, some j => .error j
    | .ok ps, none => .ok ps.reverse

/-- What reading slot words in ascending order until E gives (R22): the words, or the slot at fault. -/
def frameWords : Nat → List Nat → List Nat → Except Nat (List Nat)
  | _, acc, [] => .error acc.length
  | 0, _, _ => .error 8
  | n + 1, acc, w :: ws =>
    if bits w 31 1 = 1 then (if acc.length < 3 then .error acc.length else .ok (acc ++ [w]))
    else frameWords n (acc ++ [w]) ws

/-- The four bytes of a slot word, lowest address first (00 R5). -/
def wordBytes (w : Nat) : List Byte :=
  [fld w 0 8, fld w 8 8, fld w 16 8, fld w 24 8]

/-- Slot words from bytes; an incomplete word at the end is dropped. -/
def wordsOfBytes : List Byte → List Nat
  | a :: b :: c :: d :: r =>
    (a.toNat + b.toNat * 2 ^ 8 + c.toNat * 2 ^ 16 + d.toNat * 2 ^ 24) :: wordsOfBytes r
  | _ => []

/-- Decoding of a bundle from the bytes at its address: framing, then the slots (R22, R40). -/
def decodeBytes (vregs : Nat) (bs : List Byte) : Except Nat (List Placed) :=
  match frameWords 8 [] (wordsOfBytes bs) with
  | .error k => .error k
  | .ok ws => decodeBundle vregs ws

/-- The K slots an instruction requires, with the smallest payloads that its rules allow: FM = 1 for VCMP and
LXCMP, a zero descriptor for an X operation, two empty live masks for PHINT (R31). -/
def neededK (w : Nat) : List Nat :=
  match bits w 28 3, bits w 22 6 with
  | 3, 0x13 => [0x70000100]
  | 3, 0x3D => [0x70000100]
  | 4, o => if o = 2 || o = 3 || (6 ≤ o && o ≤ 9) || o = 11 then [0x70000000] else []
  | 6, 4 => [0x70000000, 0x70000000]
  | _, _ => []

/-- Enough NOPs to make four words, the last of them with E. -/
def padBundle (ws : List Nat) : List Nat :=
  ws ++ List.replicate (3 - ws.length) 0 ++ [0x80000000]

/-- The bundle in which a slot word of the table stands, its E cleared: its original before a duplicate, the K
slots it needs after its owner, a CKPT for DRAIN, and NOPs, the last with E. -/
def tableBundle (w : Nat) : List Nat :=
  let w' := bits w 0 31
  let core :=
    if bits w' 21 1 = 1 then (w' - 2 ^ 21) :: (neededK w' ++ [w']) else w' :: neededK w'
  padBundle (core ++ if isDrainWord w' then [0x60400000] else [])

/-- The instruction that the decoder reads from a slot word of the table: the word is laid out in memory as part
of a bundle and the bundle is decoded; a shorter or longer word than 32 bits is none. -/
def decodeTableWord (nbits w : Nat) : Option Instr :=
  if nbits = 32 then
    match decodeBytes 32 ((tableBundle w).flatMap wordBytes) with
    | .error _ => none
    | .ok ps => (ps.find? fun p => p.word == bits w 0 31).map (·.ins)
  else none

end Sys2Proof
end

