-- ==== Sys2Proof/Machine/Event.lean ====
section
/-! DEFINITION. Events as data: what the inbox holds and what a step may choose; the constructors are those of the
events of Instr (95). -/

namespace Sys2Proof.Machine

/-- An event, named as in Instr. -/
inductive Event where
  /-- CLOCK_RESTART (R65): A gated core restarts its clock when a context becomes ready and the sorted batch head issues. -/
  | clockRestart (core : Nat)
  /-- RUN_LIMIT_DUE (R66): The run-limit counter falls to RUNLIM/8, so the next checkpoint bundle ends the run. -/
  | runLimitDue (g : Nat)
  /-- RUN_LIMIT_EXPIRY (R66): The run-limit counter reaches 0: an implicit checkpoint in class 0, RUNLIMIT in classes 1 and 2. -/
  | runLimitExpiry (g : Nat)
  /-- EXPOSED_RESULT_LAND (R62): An exposed result lands after its latency, with residue or shadow checks and poisoned-load traps. -/
  | exposedResultLand (g : Nat)
  /-- INTERLOCKED_RESULT_LAND (R63): An interlocked result arrives and clears its scoreboard entry, releasing stalled bundles. -/
  | interlockedResultLand (g k : Nat)
  /-- WAIT_WAKE (R68): A change to a watched object re-evaluates a parked wait and makes the context READY. -/
  | waitWake (g : Nat)
  /-- RETURNING_OP_COMPLETE (R248): A returning atomic or BARV is performed after its interval agrees, its value lands and a new interval opens. -/
  | returningOpComplete (g : Nat)
  /-- DRAIN_COMPLETE (R142): The drain stall ends once every named write is visible at its scope. -/
  | drainComplete (g : Nat)
  /-- TTINV_ACKNOWLEDGE (R359): Every cache acknowledges a TTINV and the stalled bundle continues. -/
  | ttinvAcknowledge (g : Nat)
  /-- ICINV_ACKNOWLEDGE (R360): The instruction-cache drop is acknowledged and the stalled bundle continues. -/
  | icinvAcknowledge (g : Nat)
  /-- LOCK_ANSWER (R283): The home LKM's answer to a lock request arrives and its status lands. -/
  | lockAnswer (g : Nat)
  /-- GRANT_CACHE_REFILL (R279): A grant-cache miss is refilled from the home LKM and the access check is made. -/
  | grantCacheRefill (g : Nat)
  /-- MIGRATION_WALK_RETRY (R109): A walk that found a moving leaf repeats until it finds M clear. -/
  | migrationWalkRetry (g : Nat)
  /-- WEIGHT_BUFFER_CURRENT (R212): A weight buffer becomes current 72 engine steps after XWLD, or raises PERMISSION for a bad 2:4 mask. -/
  | weightBufferCurrent (core k : Nat)
  /-- MATRIX_ROWS_LAND (R221): Rows and checksums of an XMAC, XMACZ or XCLR land and matrix folds are made. -/
  | matrixRowsLand (core k : Nat)
  /-- XACCLD_ROWS_ARRIVE (R214): XACCLD data arrives and replaces the named rows with checksums rebuilt. -/
  | xaccldRowsArrive (core k : Nat)
  /-- XCHK_COMPLETE (R217): The XCHK status lands in its destination after 40 engine steps. -/
  | xchkComplete (core k : Nat)
  /-- XFIX_COMPLETE (R218): XFIX writes its code and any corrected entry after 40 engine steps, raising suspicion by 4. -/
  | xfixComplete (core k : Nat)
  /-- XEPI_CHECK (R215): The automatic checksum check of XEPI or XACCST after reading rows, trapping CHECKSUM on failure. -/
  | xepiCheck (core k : Nat)
  /-- OUTPUT_STAGE_COMPLETE (R214): An XACCST or XEPI payload is visible at PKG scope and its completion flag is set. -/
  | outputStageComplete (c : Nat)
  /-- SCB_RELEASE (R135): An agreed SCB entry is released in entry order and performed at its home or started at its engine. -/
  | scbRelease (g : Nat)
  /-- INTERVAL_AGREEMENT (R327): The CMPE reports that a class 1 interval's checks passed and the interval agrees. -/
  | intervalAgreement (g : Nat)
  /-- SIGNATURE_ARRIVAL (R328): A twin's interval signature reaches the primary's CMPE and is compared with its partner's. -/
  | signatureArrival (g : Nat)
  /-- TWIN_SKEW_EXPIRY (R328): The 2 µs twin-skew bound expires and agreement fails. -/
  | twinSkewExpiry (g : Nat)
  /-- RE_EXECUTION_START (R331): The save engine moves a failed task to a third SPC that fits and it resumes there. -/
  | reExecutionStart (g : Nat)
  /-- VOTE (R331): The third context's signature is voted against the twins' and the loser takes the winner's state. -/
  | vote (g : Nat)
  /-- SCORE_HALVING (R332): Every whole hour the MSC halves every core's suspicion score. -/
  | scoreHalving
  /-- LEASE_EXPIRY (R276): An INC lease expires: the grant is revoked and the holder takes LEASE. -/
  | leaseExpiry (lkm k : Nat)
  /-- BWAIT_BOUND_EXPIRY (R263): A BWAIT bound expires and the wait is evaluated against the object as it stands. -/
  | bwaitBoundExpiry (g : Nat)
  /-- ABSENT_TILE_REWALK (R422): A command waiting on an absent tile walks again after a TTINV or every 10 µs. -/
  | absentTileRewalk (c : Nat)
  /-- COPY_COMPLETE (R229): A copy command finishes, setting its flag and counter or ending with an engine fault. -/
  | copyComplete (c : Nat)
  /-- CPYW_COMPLETE (R235): The decompressor makes the weight buffer current and sets the command's completion. -/
  | cpywComplete (c : Nat)
  /-- LOADER_SLOT_STEP (R241): A loader subscription fills a free ring slot and advances PCNT. -/
  | loaderSlotStep (c : Nat)
  /-- STORER_SLOT_STEP (R241): A storer subscription drains a filled ring slot to the tensor and advances CCNT. -/
  | storerSlotStep (c : Nat)
  /-- KLAUNCH_PACKET_READ (R309): The QSCH reads a released KLAUNCH packet and inserts it into the launching kernel's slot. -/
  | klaunchPacketRead (c : Nat)
  /-- COLL_COMPLETE (R243): A collective finishes and its completion is released at SYS scope. -/
  | collComplete (c : Nat)
  /-- COLL_FLIT_RECEIVE (R382): A collective flit arrives and its group size and peer check are verified. -/
  | collFlitReceive (grp rank seq gsize check op : Nat) (data : List Byte)
  /-- FPUT_COMPLETE (R244): A remote put finishes and its completion is released at SYS scope. -/
  | fputComplete (c : Nat)
  /-- QUOTE_COMPLETE (R361): The MSC writes a signed quote and sets its flag or DONE. -/
  | quoteComplete
  /-- DOORBELL_WRITE (R289): A host doorbell write publishes WC and maps the queue onto a slot or records it as pending. -/
  | doorbellWrite (u : Nat) (wc : Word)
  /-- SLOT_IDLE_TIMEOUT (R289): A slot idle for 100 µs writes back its state to RCWB and becomes FREE. -/
  | slotIdleTimeout (n : Nat)
  /-- QSCH_TURN_END (R297): A slot's scheduling turn ends after QSLICE µs. -/
  | qschTurnEnd (ioc : Nat)
  /-- PACKET_LAUNCH (R295): A fetched LAUNCH packet waits as its flags require and then launches a kernel. -/
  | packetLaunch (n : Nat)
  /-- PACKET_WAIT (R295): A fetched WAIT packet holds its slot until a counter reaches a value. -/
  | packetWait (n : Nat)
  /-- PACKET_SIGNAL (R295): A fetched SIGNAL packet performs a CADD on the signal counter. -/
  | packetSignal (n : Nat)
  /-- PACKET_MARKER (R295): A fetched MARKER packet updates the delta state and waits for earlier kernels. -/
  | packetMarker (n : Nat)
  /-- QSCH_WAIT_SATISFIED (R295): A waiting slot's counter reaches its threshold and the packet continues. -/
  | qschWaitSatisfied (n : Nat)
  /-- MARKER_EFFECT (R295): Once earlier kernels completed, the MARKER's signal CADD and interrupt are performed. -/
  | markerEffect (n : Nat)
  /-- KERNEL_PLACEMENT (R298): Free clusters are found, the spad image copied, rings registered and initial tasks queued. -/
  | kernelPlacement (n : Nat)
  /-- KERNEL_COMPLETE (R301): The last task of a kernel ends and the record, signal, interrupt and cluster release follow. -/
  | kernelComplete (k : Nat)
  /-- QUEUE_RESET (R290): A QSRST write with RST clears WC, RC and the delta state and returns the slot to IDLE. -/
  | queueReset (n : Nat)
  /-- QUEUE_RESET_UNMAP (R290): A QSRST write with RST and UNMAP also frees the slot without saving state. -/
  | queueResetUnmap (n : Nat)
  /-- TASK_DISPATCH (R304): A cluster places a queued task on a fitting core and starts it with its initial state. -/
  | taskDispatch (cl : Nat)
  /-- DEPENDENCE_RELEASE (R303): A pooled record's counter reaches its threshold and the record moves to its FIFO. -/
  | dependenceRelease (cl k : Nat)
  /-- SPILL_BUFFER_DRAIN (R303): A record leaves the package spill buffer for its queue as space frees. -/
  | spillBufferDrain (k : Nat)
  /-- GANG_INSTANT (R312): A slice-table instant arrives and tenants are switched. -/
  | gangInstant (ioc i : Nat)
  /-- PRQ_GO (R347): A PRQ write with GO requests pre-emption of a context. -/
  | prqGo (ioc g : Nat)
  /-- PREEMPT_DEADLINE_FIRST (R348): DL ns after the request, the next checkpoint bundle saves the whole context. -/
  | preemptDeadlineFirst (g : Nat)
  /-- PREEMPT_DEADLINE_SECOND (R348): A further DL ns without a checkpoint takes PREEMPT and saves the rolled-back context. -/
  | preemptDeadlineSecond (g : Nat)
  /-- PARKED_SAVE (R348): A parked context with agreed intervals is saved with its wait. -/
  | parkedSave (g : Nat)
  /-- SAVE_COMPLETE (R349): The save engine finishes writing a context's save slot. -/
  | saveComplete (g : Nat)
  /-- RESTORE (R352): A saved context is restored once its allocation is free. -/
  | restore (k : Nat)
  /-- ABORT_TOKEN_RECEIVE (R346): An IOC receives an ABORT token, ends the group's COLLs and answers peers. -/
  | abortTokenReceive (grp : BitVec 16) (st : Word)
  /-- ABORT_ANSWER (R346): A peer's completed-step answer to an ABORT token arrives. -/
  | abortAnswer (grp : BitVec 16) (st : Word)
  /-- ABORT_ANSWER_WINDOW_EXPIRY (R346): 100 µs after a token, the agreed step is fixed and ABORT delivered to the group's contexts. -/
  | abortAnswerWindowExpiry (grp : BitVec 16)
  /-- LINK_FLIT_RECEIVE (R378): A link flit arrives, is checked by CRC and replayed on error. -/
  | linkFlitReceive (link : Nat) (good : Bool)
  /-- LINK_DEAD (R381): A link is declared dead after failed replays or 10 µs of silence, posting cause 10 and ABORT tokens. -/
  | linkDead (link : Nat)
  /-- PTP_MESSAGE (R381): An IEEE 1588 message arrives and adjusts global time. -/
  | ptpMessage (ns : Nat)
  /-- APERTURE_READ (R379): A host read through window 2 is translated and performed in flat memory. -/
  | apertureRead (o n : Nat)
  /-- APERTURE_WRITE (R379): A host write through window 2 is translated and performed in flat memory. -/
  | apertureWrite (o n x : Nat)
  /-- HIRC_WRITE (R380): The host writes the consumed count of its ring, acknowledging the interrupt. -/
  | hircWrite (ioc : Nat) (x : Word)
  /-- IDROP_READ (R380): A read of IDROP returns and clears the dropped-record count. -/
  | idropRead (ioc : Nat)
  /-- HNDROP_READ (R375): A read of HNDROP returns and clears the dropped-notification count. -/
  | hndropRead (u : Nat)
  /-- ATCTL_GO (R386): A host GO write requests a quote or sets REJ when busy. -/
  | atctlGo (x : Word)
  /-- ATST_READ (R386): A read of ATST returns the status and clears REJ. -/
  | atstRead
  /-- SFTB_WRITE (R324): A write to SFTB takes effect only while no pool frame is in use. -/
  | sftbWrite (spc : Nat) (x : Word)
  /-- REGISTER_WRITE (R6): A write to a device register without behaviour of its own replaces its RW fields. -/
  | registerWrite (r : RegName) (i : Nat) (x : BitVec 64)
  /-- FREEZE_PIN (R388): FREEZE_N held low freezes the package for read-out. -/
  | freezePin (ns : Nat)
  /-- FRZ_WRITE (R388): A host write of FRZ bit 0 freezes the package. -/
  | frzWrite (x : Word)
  /-- MODULE_RESET (R391): A module reset brings the package up through its ordered steps. -/
  | moduleReset
  /-- RETIREMENT_CLEAR (R390): A debug-port command clears the retirement record of a core or SPC. -/
  | retirementClear (spc : Bool) (n : Nat)
  /-- POWER_DOWN_ENTRY (R364): An idle memory unit enters power-down after its idle time. -/
  | powerDownEntry (u j : Nat)
  /-- SELF_REFRESH_ENTRY (R364): An idle memory unit enters self-refresh after SRT. -/
  | selfRefreshEntry (u j : Nat)
  /-- POWER_STATE_EXIT (R364): A memory unit completes its exit from a low-power state. -/
  | powerStateExit (u j : Nat)
  /-- REFRESH_DUE (R366): A refresh falls due and is issued or postponed against the bank's debt. -/
  | refreshDue (u bank : Nat) (busy : Bool)
  /-- REFRESH_COMPLETE (R366): A per-bank refresh completes and the debt falls. -/
  | refreshComplete (u bank : Nat)
  /-- ACTIVATION_ALERT (R367): An activation-count alert blocks a bank for owed refreshes and mitigation. -/
  | activationAlert (u bank : Nat)
  /-- ALERT_BACKOFF_COMPLETE (R367): The alert mitigation finishes and the bank is unblocked. -/
  | alertBackoffComplete (u bank : Nat)
  /-- CRITICAL_TEMP_ASSERT (R368): A stack's critical temperature forces its pseudo-channels into self-refresh. -/
  | criticalTempAssert (u : Nat)
  /-- CRITICAL_TEMP_CLEAR (R368): The critical temperature clears and the stack exits self-refresh and serves queued requests. -/
  | criticalTempClear (u : Nat)
  /-- THERMAL_HOLD_TIMEOUT (R368): A thermal hold reaches 2 ms and a THERMAL-HOLD event is logged. -/
  | thermalHoldTimeout (u : Nat)
  /-- SCRUB_STEP (R373): The scrubber reads the next ECC word, correcting or poisoning it. -/
  | scrubStep (u : Nat) (err : EccErr)
  /-- HOTNESS_DECAY (R375): Every DECAY µs all tile access counts halve. -/
  | hotnessDecay (u : Nat)
  /-- UV_EVALUATE (R387): Every 60 s the MSC lowers or raises domain voltage steps. -/
  | uvEvaluate
  /-- UV_CROSSING_RAISE (R387): An array crossing PFTH raises its domain one step within 1 ms and sets HOLD. -/
  | uvCrossingRaise (dom arr : Nat)
  /-- UV_WINDOW_EXPIRY (R387): At the end of the 600-s window the failing array's row is spared or its core retired. -/
  | uvWindowExpiry (dom : Nat)
  /-- UV_HOLD_EXPIRY (R387): The 24-h hold of a domain ends. -/
  | uvHoldExpiry (dom : Nat)
  /-- ILLEGAL_BUNDLE (R44): A framed bundle whose slot words match no instruction, such as an unassigned OP or a K slot in slot 0, raises ILLEGAL. -/
  | illegalBundle (sl : Nat)
  /-- MATRIX_PART_FREE (R196): The array or row port ends its busy time, and an X operation waiting on it in a matrix stall starts. -/
  | matrixPartFree (core part : Nat)
  /-- ITERATIVE_UNIT_FREE (R189): A pipe's iterative unit ends its occupancy and a stalled LX or interlocked slot may issue. -/
  | iterativeUnitFree (core unit : Nat)
  /-- TILE_WALK_COMPLETE (R108): A tile-table walk finishes, fills the tile caches and releases the accesses waiting on the translation. -/
  | tileWalkComplete (core : Nat) (asid : BitVec 16) (tid : BitVec 20) (tile : Nat)
  /-- SHADOW_FRAME_COPY_COMPLETE (R323): The copy of a committed frame into a new shadow frame finishes and the stalled TST writes. -/
  | shadowFrameCopyComplete (g : Nat)
  /-- FENCE_MARKER_RELEASE (R139): A FENCE marker's condition is met and the SCB entries held behind it may be released. -/
  | fenceMarkerRelease (g : Nat)
  /-- POWER_CEILING_THROTTLE (R18): The MSC starts or stops gating X- and V-class issue in duty cycles to hold module power under 2,800 W. -/
  | powerCeilingThrottle (on : Bool)
  /-- The debug port sets DBGEN (R389): an input of the model, no row of the table. -/
  | debugEnable (x : Word)
  /-- A step of bring-up finishes (R391): an event of the model, no row of the table. -/
  | bringUp
  deriving DecidableEq, Repr

end Sys2Proof.Machine
end

