-- ==== Sys2Proof/Config.lean ====
section
/-! DEFINITION. The free values of the model: constants with no body, so that no proof can rest on a value of
one (logs 5 to 9, 20, 29 to 32). Each is applied to a plain counter of State or to the operands it depends on. -/

namespace Sys2Proof.Config

/-- Which of several enabled steps comes next (log 5, DESIGN CHOICE: the manual orders no two of them). -/
opaque pick : Nat → Nat

/-- Cycles that pass in a step beyond the one of an issued bundle (log 5). -/
opaque freeCycles : Nat → Nat

/-- Nanoseconds of global time that pass in a step (log 5). -/
opaque freeNs : Nat → Nat

/-- A choice the manual leaves between two listed outcomes: old or new translation before TTINV (R108), old or
new code before ICINV (R360), old or new contents of rows in flight at a rollback (R223) (log 6). -/
opaque freeBool : Nat → Bool

/-- The place at which a k-step of a chain enters the order in which the engine applies them (R208) (log 7). -/
opaque chainPlace : Nat → Nat

/-- The package's serial number (R385) (log 8). -/
opaque serial : BitVec 128

/-- The vendor's certificate of the attestation key, in 64-bit words, as the MSC window shows it (R385) (log 8). -/
opaque certWord : Nat → BitVec 64

/-- Whether a component passes its signature check at bring-up: the MSC firmware, the IOC firmware, the SPC microcode (R384)
(log 8). -/
opaque signed : Nat → Bool

/-- The place, among the registers of a block whose offsets the manual does not give, of the one at an offset: by the kind of
block and the offset (R378) (log 21). -/
opaque regSlot : Nat → Nat → Nat

/-- How many lanes a tower link or a scale-out port has, less one (R389) (log 74). -/
opaque lanes : Nat → Nat

/-- The nonce of a peer's quote request that the good flit of a link at a moment carries, if it carries one (R385, R386) (log 8). -/
opaque quoteFlit : Nat → Nat → Option (BitVec 256)

/-- Byte `i` of the signature of quote `n`, which depends on the attestation key (R385) (log 8). -/
opaque quoteByte : Nat → Nat → Byte

/-- The measurement log: one 64-B entry for each measured component (R384) (log 8). -/
opaque measurementLog : List (BitVec 512)

/-- The ECC syndrome of error-log entry `n` (R374) (log 9). -/
opaque syndrome : Nat → BitVec 16

/-- The physical fault about to strike at a step: 1 a register, 2 a duplicate, 3 a residue, 4 a transported row, 5 a weight row,
6 to 13 what `State.strike` says; else none (log 5: the manual does not say when they strike). -/
opaque upset : Nat → Nat

/-- Where a fault strikes at a step, two numbers that are taken modulo what there is (log 5). -/
opaque strikeAt : Nat → Nat × Nat

/-- A translation that a core's walkers complete, by TID and tile (log 20). -/
opaque freeTile : Nat → Nat × Nat

/-- Byte `i` of a part of a save slot that holds the items of a list, in an arrangement that the manual leaves open (R349)
(log 29). -/
opaque slotByte : Nat → List Nat → Byte

/-- Byte `i` of the save slot of a core that holds these bytes, in an arrangement that the manual leaves open (R351)
(log 29). -/
opaque coreByte : Nat → List Byte → Byte

/-- Whether a link serves a collective group: the manual gives no routing (R381) (log 30). -/
opaque linkServes : Nat → Nat → Bool

/-- How many banks or ranks a DSC or LP6 controller has, by unit (R364) (log 31). -/
opaque unitParts : Nat → Nat

/-- The physical address that the log of a unit gives for a bank: the manual gives no bank mapping (R374) (log 31). -/
opaque bankAddr : Nat → Nat → Nat

/-- SRC, in [1:0], and the requesting context, in [13:2], of a log entry of kind 5 or 6 (R374) (log 31). -/
opaque eventOrigin : Nat → BitVec 14

/-- The address of an array in a record of cause 9: its form is not given (R380) (log 32). -/
opaque arrayAddr : Nat → Word

/-- The bank, pseudo-channel or rank of a unit that holds an address, before it is taken modulo their number: the manual gives
no mapping (R364) (log 31). -/
opaque partOf : Nat → Nat → Nat

/-- The bank of a unit that an alert blocks for an address (R367) (log 31). -/
opaque bankOf : Nat → Nat → Nat

end Sys2Proof.Config
end

