-- ==== Sys2Proof/Machine/Map.lean ====
section
/-! DEFINITION. Finite maps and sparse memory as sorted lists of pairs, the plain data behind State. -/

namespace Sys2Proof.Machine

/-- A sparse map from numbers, in ascending key order. -/
abbrev SMap (α : Type) := List (Nat × α)

/-- The value at a key. -/
def SMap.find? {α : Type} (m : SMap α) (k : Nat) : Option α :=
  match m with
  | [] => none
  | (j, x) :: r => if j = k then some x else SMap.find? r k

/-- The map with a value at a key, the order kept. -/
def SMap.set {α : Type} (m : SMap α) (k : Nat) (x : α) : SMap α :=
  match m with
  | [] => [(k, x)]
  | (j, y) :: r => if k < j then (k, x) :: (j, y) :: r else if k = j then (k, x) :: r else (j, y) :: SMap.set r k x

/-- The map without a key. -/
def SMap.erase {α : Type} (m : SMap α) (k : Nat) : SMap α := m.filter fun p => p.1 != k

/-- The value at a key, or the default. -/
def SMap.at {α : Type} (m : SMap α) (d : α) (k : Nat) : α := (m.find? k).getD d

/-- What a byte that nothing has written reads as (18 R391 step 4 for HBM4 and LP6; log 4 for LSP and DSC). -/
def unwritten : Byte := 0

/-- The byte at a physical key. -/
def memGet (m : List Host.Cell) (a : Nat) : Byte :=
  match m with
  | [] => unwritten
  | (b, x) :: r => if b = a then x else if a < b then unwritten else memGet r a

/-- A byte written at a physical key; writing what an unlisted address reads as removes the entry. -/
def memSet (m : List Host.Cell) (a : Nat) (x : Byte) : List Host.Cell :=
  match m with
  | [] => if x = unwritten then [] else [(a, x)]
  | (b, y) :: r =>
    if a < b then (if x = unwritten then (b, y) :: r else (a, x) :: (b, y) :: r)
    else if a = b then (if x = unwritten then r else (a, x) :: r)
    else (b, y) :: memSet r a x

/-- The canonical form of memory: addresses strictly rising and no entry equal to an unlisted byte. -/
def Memory.wf (m : List Host.Cell) : Bool :=
  m.all (fun c => c.2 != unwritten) && decide (List.Pairwise (fun a b : Host.Cell => a.1 < b.1) m)

/-- `n` bytes from a physical key on, lowest address first. -/
def memRead (m : List Host.Cell) (a : Nat) : Nat → List Byte
  | 0 => []
  | n + 1 => memGet m a :: memRead m (a + 1) n

/-- Bytes written from a physical key on. -/
def memWrite (m : List Host.Cell) (a : Nat) : List Byte → List Host.Cell
  | [] => m
  | x :: xs => memWrite (memSet m a x) (a + 1) xs

/-- The number that bytes hold, least significant first (00 R5). -/
def leNat : List Byte → Nat
  | [] => 0
  | b :: r => b.toNat + 256 * leNat r

/-- The `n` bytes of a number, least significant first (00 R5). -/
def leBytes (x : Nat) : Nat → List Byte
  | 0 => []
  | n + 1 => BitVec.ofNat 8 x :: leBytes (x / 256) n

/-- A sorted list without repeats, with a number put in. -/
def insertNat (a : Nat) (l : List Nat) : List Nat :=
  match l with
  | [] => [a]
  | b :: r => if a < b then a :: b :: r else if a = b then b :: r else b :: insertNat a r

/-- Replaces the element at a place, if there is one. -/
def listSet {α : Type} (l : List α) (i : Nat) (x : α) : List α := l.set i x

end Sys2Proof.Machine
end

