-- ==== Sys2Proof/Machine/TypesMx.lean ====
section
/-! DEFINITION. The data of the matrix engine (10 R196 to R204, R214). -/

namespace Sys2Proof.Machine

/-- A weight buffer (10 R200). Its checksum column is the sum of its columns and is computed from them. -/
structure WBuf where
  /-- A load has made it current since module reset. -/
  loaded : Bool
  /-- The valid bit. -/
  valid : Bool
  /-- Format latched by its load. -/
  fmt : Nat
  /-- scB, an FP32 pattern. -/
  scB : BitVec 32
  /-- Column n holds B[k, n] as a 16-bit encoding at bit 16k. -/
  cols : List (BitVec 2048)
  deriving DecidableEq, Repr

/-- The accumulator store of a core (10 R203), by physical row. -/
structure AccStore where
  /-- Rows of 128 entries of 32 bits. -/
  rows : SMap Vec
  /-- Checksum column entries. -/
  chkcol : SMap Word
  /-- Checksum row entries, by 128 * region + column. -/
  chkrow : SMap Word
  /-- Row exclusion bits. -/
  rowEx : BitVec 512
  /-- Column exclusion bits, by 128 * region + column. -/
  colEx : BitVec 512
  /-- Group invalid bits, by row / 64. -/
  ginv : BitVec 8
  /-- Entries with an uncorrectable error, by 128 * row + column (17 R371). -/
  bad : List Nat
  deriving DecidableEq, Repr

/-- An X operation with everything it latches at its issue (10 R202). -/
structure XReq where
  /-- Opcode within class X. -/
  op : Nat
  /-- Its bundle's address. -/
  pc : Word
  /-- Its slot. -/
  slot : Nat
  /-- The bundle count of its bundle. -/
  bundle : Nat
  /-- The MXCFG value latched. -/
  cfg : Nat
  /-- Destination scalar register. -/
  d : Nat
  /-- s[a]. -/
  wa : Word
  /-- s[b]. -/
  wb : Word
  /-- Descriptor payload. -/
  ds : Nat
  /-- Scale registers latched: q[QA] for a k-step, q[QS] for XEPI. -/
  q1 : Vec
  /-- q[QB] for XEPI. -/
  q2 : Vec
  /-- Physical rows named, in order. -/
  rows : List Nat
  /-- Pieces (physical key, length) of each row in memory, in order; for A blocks and images one of one piece. -/
  pas : List (List (Nat × Nat))
  /-- The weight buffer an XMAC uses. -/
  buf : Option WBuf
  /-- The chain it belongs to. -/
  chain : Option Nat
  deriving DecidableEq, Repr

/-- What a started X operation does when it lands (10 R221). -/
inductive MxEff where
  /-- XWLD: the buffer becomes current, or the address of a bad mask byte raises PERMISSION (10 R201). -/
  | wld (wb : Nat) (buf : WBuf) (bad : Option Word)
  /-- XMAC, XMACZ: the t values of each row and of its checksum column entry (10 R205). -/
  | mac (z : Bool) (fp : Bool) (t : List (Nat × Vec × Word × Bool))
  /-- XACCLD: the rows that arrive (10 R214). -/
  | ld (fp : Bool) (data : List (Nat × Vec))
  /-- XEPI, XACCST: the check's verdict (10 R215). -/
  | chk (fails : Bool)
  /-- XCHK and XFIX: the status word, and the entry that XFIX corrects (10 R217, R218). -/
  | status (d : Nat) (x : Word) (fix : Option (Nat × Nat × BitVec 32))
  /-- XCLR (10 R219). -/
  | clr (fp : Bool)
  /-- An operation whose memory reads wait for earlier accesses (07 R129, R139); it reads when they are performed. -/
  | held
  deriving DecidableEq, Repr

/-- An X operation that has started (10 R196). -/
structure MxOp where
  /-- The request. -/
  req : XReq
  /-- Part: 0 weight path, 1 array, 2 row port. -/
  part : Nat
  /-- Engine step at which its part is free again. -/
  busyTo : Nat
  /-- Engine step at which it lands; none for XACCLD, which lands when its data arrives. -/
  land : Option Nat
  /-- What it does then. -/
  eff : MxEff
  /-- It has landed. -/
  landed : Bool
  /-- While it is held: bytes that writes of its own bundle have replaced, the first of a key (02 R36). -/
  pre : List (Nat × Byte)
  deriving DecidableEq, Repr

/-- What a k-step of a chain does to one row, or to the checksum row of a region (10 R205, R206). -/
inductive KPart where
  /-- A row: its t values and that of its checksum column entry. -/
  | row (fp : Bool) (t : Nat × Vec × Word × Bool)
  /-- The checksum row: the t values of every row of the k-step. -/
  | sums (fp : Bool) (region : Nat) (ts : List Vec)
  deriving DecidableEq, Repr

/-- A chain of a context (10 R207, R208). -/
structure Chain where
  /-- Bundle count of its XBEGIN, its name. -/
  id : Nat
  /-- The first XMAC has issued. -/
  macSeen : Bool
  /-- A step has been made since XBEGIN. -/
  begun : Bool
  /-- Physical rows initialised. -/
  init : List Nat
  /-- Physical rows the chain has written, for its fold (10 R222). -/
  wrote : List Nat
  /-- XEND has issued; its fold is still to be made (10 R222). -/
  closed : Bool
  /-- What k-steps that have landed have still to do; it may be done in any order (10 R208). -/
  late : List KPart
  deriving DecidableEq, Repr

end Sys2Proof.Machine
end

