-- ==== Sys2Proof/Machine/Types.lean ====
section
/-! DEFINITION. The data a context and a core hold: registers, results in flight, intervals, the store containment
buffer, waits, the work left at the end of a bundle, and the matrix engine (01 R12, R13; 02 R38 to R42; 04 R60 to
R68; 10 R196 to R204; 15 R318 to R321; 16 R343 to R348). -/

namespace Sys2Proof.Machine

/-- The states of a context (04 R60). -/
inductive CtxSt where
  /-- Holds no task. -/
  | free
  /-- In the ready queue. -/
  | ready
  /-- Owns issue on its core. -/
  | issuing
  /-- Waits on an object. -/
  | parked
  /-- TEND was executed; waits for agreement and completion. -/
  | ending
  /-- Being saved or restored. -/
  | held
  deriving DecidableEq, Repr

/-- The registers of a checkpoint copy, the PC included (15 R319). -/
structure Regs where
  /-- s0 to s31. -/
  s : Vector Word 32
  /-- The physical predicates p0 to p15. -/
  p : BitVec 16
  /-- v0 to v31; the task sees VREGS of them. -/
  v : Vector Vec 32
  /-- l0 to l7. -/
  l : Vector (BitVec 128) 8
  /-- q0 to q3. -/
  q : Vector Vec 4
  /-- n0 to n15. -/
  n : Vector (BitVec 256) 16
  /-- h0 to h7, the stored fields. -/
  h : Vector (BitVec 128) 8
  /-- f0 to f15 and ERRF. -/
  f : BitVec 17
  /-- CTXST.STGB. -/
  stgb : BitVec 3
  /-- VRND. -/
  vrnd : Word
  /-- VFLG. -/
  vflg : Word
  /-- MXCFG, CHN included. -/
  mxcfg : Word
  /-- EXTID. -/
  extid : Word
  /-- OVFP. -/
  ovfp : Word
  /-- The address of the next bundle. -/
  pc : Word
  deriving DecidableEq, Repr

/-- A register as the scoreboard names it (04 R63). -/
inductive RegId where
  /-- A scalar register. -/
  | s (i : Nat)
  /-- A physical predicate. -/
  | p (i : Nat)
  /-- A vector register. -/
  | v (i : Nat)
  /-- A lane mask. -/
  | l (i : Nat)
  /-- A scale register. -/
  | q (i : Nat)
  /-- A tensor handle. -/
  | n (i : Nat)
  /-- A ring handle. -/
  | h (i : Nat)
  /-- The flag register. -/
  | f
  /-- The stage base. -/
  | stgb
  /-- A control register by its index. -/
  | csr (i : Nat)
  deriving DecidableEq, Repr

/-- A write that lands in a register (04 R62). Masked writes leave the other bits as they are. -/
inductive Res where
  /-- A whole scalar register. -/
  | s (i : Nat) (x : Word)
  /-- A physical predicate. -/
  | p (i : Nat) (x : Bool)
  /-- The bits of a vector register that `mask` names. -/
  | v (i : Nat) (mask x : Vec)
  /-- The bits of a lane mask that `mask` names. -/
  | l (i : Nat) (mask x : BitVec 128)
  /-- The bits of a scale register that `mask` names. -/
  | q (i : Nat) (mask x : Vec)
  /-- The bits of a tensor handle that `mask` names. -/
  | n (i : Nat) (mask x : BitVec 256)
  /-- A whole ring handle. -/
  | h (i : Nat) (x : BitVec 128)
  /-- The bits of the flag register that `mask` names. -/
  | f (mask x : BitVec 17)
  /-- The stage base. -/
  | stgb (x : BitVec 3)
  /-- The bits of a control register that `mask` names. -/
  | csr (i : Nat) (mask x : Word)
  /-- No register: only folds, counts or a check land. -/
  | none
  deriving DecidableEq, Repr

/-- How a trap is disposed of (16 R342, 15 R329). -/
inductive How where
  /-- The handler, or the save engine for PREEMPT. -/
  | handler
  /-- A read met poisoned memory: one local replay at a resumption point, then the handler. -/
  | poison
  /-- Local replay, until the fault is persistent. -/
  | replay
  /-- A checksum or signature check failed. -/
  | check
  deriving DecidableEq, Repr

/-- A trap that a slot or an event asks for (16 R342). -/
structure TrapReq where
  /-- The cause code. -/
  cause : Nat
  /-- TRAPC bits [19:8]. -/
  code : Nat
  /-- TRAPPC: the bundle. -/
  pc : Word
  /-- TRAPSL. -/
  slot : Nat
  /-- FAULTVA. -/
  va : Word
  /-- FAULTN. -/
  n : Word
  /-- FAULTN1. -/
  n1 : Word
  /-- FAULTN2. -/
  n2 : Word
  /-- Disposition. -/
  how : How
  deriving DecidableEq, Repr

/-- A result in flight (04 R62 to R64). -/
structure Flight where
  /-- Where it lands. -/
  res : Res
  /-- The bundle count at which an exposed result lands. -/
  land : Nat
  /-- Interlocked: lands when its event says so. -/
  ilk : Bool
  /-- The bundle count of its bundle. -/
  bundle : Nat
  /-- Its slot. -/
  slot : Nat
  /-- The trap it raises in place of landing (06 R114, 08 R174, 11 R238). -/
  trap : Option TrapReq
  /-- Words folded into SIGHI when it lands (08 R173). -/
  folds : List Word
  /-- The V opcode whose destination is folded as it lands (08 R175). -/
  vop : Option Nat
  /-- The unit that made it; results of VA fold before those of VB (08 R175). -/
  pipe : Nat
  /-- The iterative unit that it occupies until it lands (05 R83, 08 R152). -/
  iter : Option Nat
  /-- VFLG bits it sets when it lands (08 R158). -/
  vflg : Word
  /-- Exceptions it counts: pairs of 4 * TID + kind and a number (08 R159). -/
  excs : List (Nat × Nat)
  deriving DecidableEq, Repr

/-- What a V slot produces (08 R152, R158, R159, R174, R175). -/
structure VOut where
  /-- Where it lands. -/
  res : Res
  /-- Words folded when it lands. -/
  folds : List Word
  /-- The opcode whose destination is folded. -/
  vop : Option Nat
  /-- The pipe. -/
  pipe : Nat
  /-- VFLG bits. -/
  vflg : Word
  /-- Exceptions counted. -/
  excs : List (Nat × Nat)
  /-- The trap in its place. -/
  trap : Option TrapReq
  deriving DecidableEq, Repr

/-- A load with its bytes named: destination, the parts as (destination bit, physical bit address, bits), and the
bits written zero (06 R112 to R118). -/
structure Load where
  /-- Destination register. -/
  dst : RegId
  /-- Destination bit, physical bit address, width in bits. -/
  parts : List (Nat × Nat × Nat)
  /-- Destination bits written zero. -/
  zero : Vec
  /-- Its accesses in the order of their checks: physical key, length in bytes, and what FAULTVA, FAULTN, FAULTN1 and
  FAULTN2 receive if the access meets poison (06 R101). -/
  marks : List (Nat × Nat × Word × Word × Word × Word)
  deriving DecidableEq, Repr

/-- The name of a lock (13 R267). -/
structure LockName where
  /-- Address space. -/
  asid : Nat
  /-- Tensor. -/
  tid : Nat
  /-- Object level: 0 tensor, 1 tile, 2 line (13 R267). -/
  level : Nat
  /-- Tile number, or 512 times it plus the line. -/
  obj : Nat
  deriving DecidableEq, Repr

/-- What a wait instruction watches (04 R68). -/
inductive Wait where
  /-- WAITF. -/
  | flag (all : Bool) (mask : BitVec 16)
  /-- WAITGE: destination, counter, threshold, address. -/
  | ge (d pa : Nat) (x va : Word)
  /-- BWAIT: destination, object, phase awaited, cycle at which the bound expires, address. -/
  | bar (d pa ph : Nat) (bound : Option Nat) (va : Word)
  /-- HWAIT: destination, core and entry of the ring, side, handle, slots. -/
  | ring (d core rix : Nat) (prod : Bool) (h n : Nat)
  /-- LKREQ and LKESC: destination of the status that the home LKM sends, and the object that the request waits for (13 R283). -/
  | lock (d : Nat) (n : LockName)
  deriving DecidableEq, Repr

/-- Operations performed at a home (12 R255 to R264; 14 R308; 16 R358). -/
inductive AtomOp where
  /-- AADD. -/
  | add
  /-- AAND. -/
  | and
  /-- AOR. -/
  | or
  /-- AXOR. -/
  | xor
  /-- AMIN, signed. -/
  | min
  /-- AMAX, signed. -/
  | max
  /-- AMINN, unsigned. -/
  | minn
  /-- AMAXN, unsigned. -/
  | maxn
  /-- AXCHG. -/
  | xchg
  /-- ACAS. -/
  | cas
  /-- VAADD of FP32. -/
  | fadd
  /-- VAMAX of FP32. -/
  | fmax
  deriving DecidableEq, Repr

/-- The asynchronous commands (11 R225, 10 R214, 14 R307, 16 R361). -/
inductive CmdOp where
  /-- CPY of a tensor box. -/
  | cpyH
  /-- CPY between addresses. -/
  | cpyA
  /-- CPYP of a tensor box. -/
  | cpypH
  /-- CPYP between addresses. -/
  | cpypA
  /-- CPYW. -/
  | cpyw
  /-- SUBS of a loader. -/
  | subsLoad
  /-- SUBS of a storer. -/
  | subsStore
  /-- SUBE. -/
  | sube
  /-- COLL. -/
  | coll
  /-- FPUT. -/
  | fput
  /-- XACCST. -/
  | xaccst
  /-- XEPI. -/
  | xepi
  /-- TSPAWN. -/
  | tspawn
  /-- KLAUNCH. -/
  | klaunch
  /-- ATTQ. -/
  | attq
  deriving DecidableEq, Repr

/-- A command with the operands read at issue. -/
structure Cmd where
  /-- What it does. -/
  op : CmdOp
  /-- Context that issued it. -/
  g : Nat
  /-- Opcode within its class, for records (11 R230). -/
  opc : Nat
  /-- X-class. -/
  xcl : Bool
  /-- FE. -/
  fe : Bool
  /-- FLAG. -/
  flag : Nat
  /-- Completion counter address and CINC, when CE = 1. -/
  ctr : Option (Word × Nat)
  /-- Scalar operands d, a, b in this order. -/
  ws : List Word
  /-- Tensor or ring handle operands. -/
  nh : Nat
  /-- Row addresses with their payloads (10 R214). -/
  rows : List (Nat × List Byte)
  /-- MXCFG as CPYW latches it; the descriptor of an X command. -/
  cfg : Nat
  /-- ASID of the task. -/
  asid : Nat
  /-- TTB of the task. -/
  ttb : Nat
  /-- Its home cluster, whose LSPs the windows name. -/
  home : Nat
  /-- The position in it whose window is the issuing core's own LSP (06 R100). -/
  pos : Nat
  /-- The kernel of its task (14 R309). -/
  kernel : Nat
  /-- Bytes that writes of its own bundle have replaced: it reads them as they were, the first of a key (02 R36). -/
  pre : List (Nat × Byte)
  deriving DecidableEq, Repr

/-- What an entry of the SCB does when it is released (15 R321, R325). -/
inductive EntOp where
  /-- A store: addressed bytes at physical keys, in order. -/
  | store (bytes : List (Nat × Byte))
  /-- Some bits of one byte, of a tensor with elements below a byte (06 R118). -/
  | bits (pa : Nat) (mask x : Byte)
  /-- A TST into a shadow frame: its frame, and the bytes written there at issue. -/
  | shadow (frame : Nat) (bytes : List (Nat × Byte))
  /-- A scalar atomic of `n` bytes: operand, expected value, destination (0 discards). -/
  | atomic (op : AtomOp) (pa n x e d : Nat)
  /-- A vector atomic: the tensor its exceptions are charged to; lane, key, data, address of its active lanes. -/
  | vatomic (op : AtomOp) (tid : Nat) (lanes : List (Nat × Nat × Nat × Word))
  /-- CADD. -/
  | cadd (pa : Nat) (x : Word)
  /-- BINIT. -/
  | binit (pa x : Nat)
  /-- BARV: object, count, destination. -/
  | barv (pa n d : Nat)
  /-- OBRK of a barrier. -/
  | obrk (pa : Nat)
  /-- OBRK of a ring: core and entry. -/
  | obrkRing (core rix : Nat)
  /-- HADV: core, entry, side, count. -/
  | hadv (core rix : Nat) (prod : Bool) (n : Nat)
  /-- A FENCE marker (07 R139). -/
  | fence (bef aft : BitVec 6)
  /-- A command. -/
  | cmd (c : Cmd)
  /-- LKDWN: downgrade to a mode (13 R284). -/
  | lkdwn (name : LockName) (mode : Nat)
  /-- LKREL of one name (13 R284). -/
  | lkrel (name : LockName)
  /-- LKREL of all grants (13 R284). -/
  | lkrelAll
  /-- STEP (16 R358). -/
  | step (x : Word)
  deriving DecidableEq, Repr

/-- An entry of the SCB (15 R321). -/
structure Entry where
  /-- What it does. -/
  op : EntOp
  /-- The store interval that holds it. -/
  iv : Nat
  /-- Granules it takes. -/
  gran : Nat
  /-- Bundle count, PC and slot that made it. -/
  bundle : Nat
  /-- The bundle's address. -/
  pc : Word
  /-- Its slot. -/
  slot : Nat
  /-- For a scalar store, the aligned 32-B block it lies in; used by the merge rule. -/
  block : Option Nat
  /-- Path of its accesses (07 R122), as a bit number. -/
  path : Nat
  /-- The address of its access, for one granule (06 R101). -/
  va : Word
  deriving DecidableEq, Repr

/-- A store interval that is OPEN (the last) or CLOSED (15 R318). -/
structure Interval where
  /-- Its number. -/
  id : Nat
  /-- The copy that begins it. -/
  copy : Regs
  /-- Captured signature, once closed. -/
  sig : Option (Word × Word)
  /-- Exceptions held with it: 4 * TID + kind to count, at most four TIDs, then the kernel's own (08 R159). -/
  excs : SMap Nat
  /-- Engine-fault records removed in it (11 R245). -/
  removed : Nat
  /-- Accumulator groups and weight buffers written in it: 0 to 7 groups, 8 and 9 buffers (10 R223). -/
  dirty : List Nat
  /-- Global time at which it closed, less the time for which the twin had by then been exempt (15 R328). -/
  closedAt : Nat
  /-- It has agreed and no newer interval has opened yet (12 R248). -/
  agreed : Bool
  /-- The captured signature as SIGRD read it where the interval opened (15 R339). -/
  cap : Word × Word
  /-- Values shared with the twin before the interval opened (MODEL; 15 R317). -/
  shared : Nat
  deriving DecidableEq, Repr

/-- What a hint names: entry index, K1, K2, and the liveness entry as it was read at the hint (16 R350). -/
abbrev Hint := Nat × BitVec 28 × BitVec 28 × Nat

/-- What is left to do at the end of a bundle, in order; the context issues nothing until all is done. -/
inductive Tail where
  /-- Every result in flight lands (04 R64). -/
  | land
  /-- A pending wound is delivered in place of the checkpoint (15 R319). -/
  | wound (pc : Word)
  /-- The OPEN interval closes, once OPENIV is below 4 (15 R318). -/
  | close
  /-- Every interval agrees and every entry is released (12 R248). -/
  | agree
  /-- The checkpoint copy is taken and a new interval opens (15 R319). -/
  | copy
  /-- SCB entries of a bundle whose class 0 context found the SCB full enter the new interval (15 R322). -/
  | enter (es : List Entry)
  /-- A load under the own-operation rule performs after every entry (12 R251). -/
  | load (pc : Word) (slot : Nat) (ld : Load)
  /-- DRAIN of paths at a scope (07 R142). -/
  | drain (paths : BitVec 6) (scope : BitVec 3) (pc : Word)
  /-- Traps that wait for the end of the bundle are delivered (16 R342, R346; 13 R276). -/
  | due (pc : Word)
  /-- A wait instruction is evaluated; `again` after R64 (04 R68). -/
  | wait (w : Wait) (pc : Word) (slot : Nat) (again : Bool)
  /-- A lock request awaits the answer of its home LKM: opcode 0 LKREQ, 1 LKTRY, 2 LKESC, 5 LKQRY (13 R283). -/
  | lock (op : Nat) (name : LockName) (mode d : Nat) (pc : Word) (slot : Nat)
  /-- The context is saved at this point (16 R348): the words of a hint, or none for a whole save. -/
  | save (hint : Option Hint)
  /-- SYSC or TRAP takes its trap (16 R356). -/
  | trap (t : TrapReq)
  /-- ABORT sends its token (16 R357). -/
  | abort (grp : BitVec 16)
  /-- ERET: back to TCOPY, or to a target (16 R355). -/
  | eret (target : Option Word)
  /-- TTINV waits for its acknowledgement (16 R359): scope, TID, tile. -/
  | ttinv (scope tid tile : Nat)
  /-- ICINV waits for its acknowledgement (16 R360): package-wide, address, length. -/
  | icinv (pkg : Bool) (a len : Nat)
  /-- YIELD (04 R79). -/
  | yield
  /-- TEND: the context enters ENDING (04 R81 step 1). -/
  | ending
  /-- The task ends once every condition of 04 R81 step 2 holds. -/
  | tend
  /-- The run limit ends the run (04 R66). -/
  | runEnd
  /-- The run-limit counter has reached 0 at a bundle: the event of that name follows (04 R66). -/
  | expire (pc : Word)
  deriving DecidableEq, Repr

/-- What holds a bundle at issue; the bundle issues again when it is over. -/
inductive StallOn where
  /-- A pending register, a full SCB pool or a throttled class (04 R63, 15 R322, 01 R18). -/
  | busy
  /-- Folds of earlier bundles (15 R339). -/
  | folds
  /-- A part of the matrix engine (10 R196). -/
  | part (part : Nat)
  /-- Rows or a weight buffer that a matrix operation in flight writes (10 R196, R214, 11 R235). -/
  | rows
  /-- A grant-cache refill (13 R279). -/
  | grant (name : LockName)
  /-- A moving tile (06 R109). -/
  | moving
  /-- A shadow frame to be copied: key of the tile, and the slot of the TST (15 R323). -/
  | frame (key : Nat × Nat × Nat) (slot : Nat)
  /-- An iterative unit (08 R152, 09 R189). -/
  | iter (unit : Nat)
  /-- A value from the primary of a class 2 pair (15 R317). -/
  | twin
  /-- A memory unit that holds back the read of a key (17 R364 to R368). -/
  | mem (pa : Nat)
  deriving DecidableEq, Repr

/-- What a slot of the bundle being issued asks for; it takes effect when the whole bundle has issued (02 R36). -/
inductive Act where
  /-- An exposed result with its latency in bundles. -/
  | fly (lat : Nat) (r : Res)
  /-- A vector result, exposed with its latency or interlocked. -/
  | vec (lat : Nat) (ilk : Bool) (o : VOut)
  /-- An interlocked result. -/
  | ilk (r : Res) (trap : Option TrapReq)
  /-- A trap at this bundle. -/
  | trap (t : TrapReq)
  /-- An SCB entry with its SIGLO folds and, for a merge, its block. -/
  | enter (op : EntOp) (gran : Nat) (block : Option Nat) (path : Nat) (folds : List Word)
  /-- The PC after the bundle, and the word that classes 1 and 2 fold for the transfer. -/
  | jump (target : Option Word) (fold : Word)
  /-- Work at the end of the bundle. -/
  | tail (t : Tail)
  /-- The bundle is a checkpoint bundle (02 R36); `ret` when it waits as a returning operation does. -/
  | ckpt (ret : Bool)
  /-- A CKPT whose guard is true: a DRAIN of the bundle takes effect (07 R142, 15 R337). -/
  | drainOn
  /-- A matrix operation that passed its checks at issue (10 R196). -/
  | mx (r : XReq)
  /-- XBEGIN opens a chain (10 R207). -/
  | chainOpen
  /-- XEND closes it. -/
  | chainClose
  /-- The bundle cannot issue yet. -/
  | stall (w : StallOn)
  /-- An iterative unit becomes busy. -/
  | useIter (unit : Nat)
  /-- A value of a class 2 primary for its secondary; the secondary takes one (15 R317). -/
  | share (x : BitVec 128)
  /-- A prefetch walk: ASID, TID, tile (06 R119). -/
  | pref (asid tid tile : Nat)
  /-- A read that met poison at a key, for the error log (17 R371). -/
  | log (pa : Nat)
  /-- Loads at keys, for the hotness counts and the power states (06 R109; 17 R364, R375). -/
  | touch (pas : List Nat)
  /-- An X operation met accumulator groups with an uncorrectable entry (17 R371). -/
  | spoiled (groups : List Nat)
  /-- A weight buffer has become invalid under the operation that reads it (17 R371). -/
  | badBuffer (wb : Nat)
  /-- A prefetch wakes the unit that holds a key (06 R119). -/
  | wake (pa : Nat)
  /-- A removal from the engine-fault queue, or a read that clears OVF (11 R245). -/
  | efq (remove clearOvf : Bool)
  deriving DecidableEq, Repr

/-- The bundle being issued (MODEL). -/
structure Issue where
  /-- Address of the bundle. -/
  pc : Word
  /-- Number of slot words. -/
  n : Nat
  /-- Slot being executed. -/
  slot : Nat
  /-- Its execution unit (02 R27). -/
  unit : Nat
  /-- The slots still to execute after this one, each with its unit. -/
  rest : List (Nat × Nat × Instr)
  /-- What the slots so far ask for, with their slots. -/
  acts : List (Nat × Act)
  deriving DecidableEq, Repr

end Sys2Proof.Machine
end

