-- ==== Sys2Proof/Machine/TypesPkg.lean ====
section
/-! DEFINITION. The data of contexts and of every unit of the package outside the cores (11, 13 to 18). -/

namespace Sys2Proof.Machine

/-- What a task was given at dispatch (14 R302 to R305). -/
structure Alloc where
  /-- LSP offset of the task's allocation. -/
  off : Nat
  /-- Its size in bytes. -/
  size : Nat
  /-- Top of the spill carve-out (06 R104). -/
  cvhi : Nat
  /-- SPILL in KiB. -/
  spill : Nat
  /-- VREGS. -/
  vregs : Nat
  /-- ACC. -/
  acc : Nat
  /-- Physical accumulator regions, ascending (10 R204). -/
  regions : List Nat
  /-- Kernel. -/
  kernel : Nat
  /-- Virtual cluster. -/
  vc : Nat
  /-- Task type index. -/
  ttype : Nat
  /-- Lock class of the type (13 R270). -/
  lkcls : Nat
  /-- The cluster whose LSPs the windows name (15 R331). -/
  home : Nat
  /-- The position in it of the core that the task was placed on: the window of that position is its own LSP (06 R100). -/
  pos : Nat
  deriving DecidableEq, Repr

/-- Recovery of a context after a failed check (15 R329, R331). -/
inductive Recov where
  /-- None in progress. -/
  | none
  /-- Waits for the third SPC: cause, TRAPPC, the SIGLO that a signature mismatch captured (else 0), whether a vote follows. -/
  | pending (cause : Nat) (pc sig : Word) (vote : Bool)
  /-- Re-executes on this context; the original core and the cause. -/
  | rerun (orig cause : Nat) (pc : Word) (third : Nat)
  /-- The third context of a vote: the twins, the cause, TRAPPC and the SIGLO of a mismatch. -/
  | third (primary secondary cause : Nat) (pc sig : Word)
  /-- A twin that waits for the vote. -/
  | voting
  deriving DecidableEq, Repr

/-- A context (01 R12, 04 R60). -/
structure Ctx where
  /-- State of R60. -/
  st : CtxSt
  /-- The live registers. -/
  r : Regs
  /-- CTXST.HND. -/
  hnd : Bool
  /-- CTXST.DSCD. -/
  dscd : Bool
  /-- CTXST.WNDP. -/
  wndp : Bool
  /-- Open intervals with which a checkpoint delivers the wound: that of both twins (MODEL; 13 R285). -/
  wndAt : Nat
  /-- A wound has been delivered and `lkrel all` not yet performed: a grant is WOUNDED from the start (13 R275). -/
  wnd : Bool
  /-- CTXST.PCLS. -/
  pcls : Nat
  /-- Task GCID. -/
  tgcid : Nat
  /-- TRAPC. -/
  trapc : Word
  /-- TRAPPC. -/
  trappc : Word
  /-- TRAPSL. -/
  trapsl : Word
  /-- FAULTVA. -/
  faultva : Word
  /-- FAULTN. -/
  faultn : Word
  /-- FAULTN1. -/
  faultn1 : Word
  /-- FAULTN2. -/
  faultn2 : Word
  /-- STEPNO. -/
  stepno : Word
  /-- SIGLO, the running value. -/
  siglo : Word
  /-- SIGHI. -/
  sighi : Word
  /-- PRIO. -/
  prio : Word
  /-- ASID. -/
  asid : Word
  /-- TTB. -/
  ttb : Word
  /-- LKAGE. -/
  lkage : Word
  /-- RUNLIM. -/
  runlim : Word
  /-- LIVEB. -/
  liveb : Word
  /-- HTB. -/
  htb : Word
  /-- Results in flight. -/
  fl : List Flight
  /-- Bundles issued since dispatch; the clock of exposed latencies. -/
  bseq : Nat
  /-- Bundles issued when the OPEN interval began (MODEL; 16 R348). -/
  opened : Nat
  /-- Engine steps (10 R197). -/
  mstep : Nat
  /-- X operations in flight (10 R196). -/
  mx : List MxOp
  /-- Chains in order: those closed and not yet folded, then the open one (10 R207, R222). -/
  chains : List Chain
  /-- Open intervals, the oldest first; the last is OPEN (15 R318). -/
  ivs : List Interval
  /-- Number of the next interval. -/
  nextIv : Nat
  /-- SIGLO and SIGHI captured at the last close (15 R339). -/
  cap : Word × Word
  /-- SCB entries in entry order. -/
  scb : List Entry
  /-- Released operations on their way to their homes, in entry order (07 R128). -/
  flying : List Entry
  /-- TCOPY (16 R343). -/
  tcopy : Option Regs
  /-- Replay count (15 R330). -/
  replay : Nat
  /-- Resumption point at which a poisoned load was last replayed (15 R329). -/
  poisonAt : Option Word
  /-- Run-limit counter (04 R66). -/
  run : Nat
  /-- The run limit is due. -/
  due : Bool
  /-- Bundles issued (05 R95). -/
  cntB : Word
  /-- Stall cycles (05 R95). -/
  cntS : Word
  /-- The wait of a parked context with its bundle and slot. -/
  wait : Option (Wait × Word × Nat)
  /-- A status that has arrived for the wait or the lock tail. -/
  answer : Option Word
  /-- What is left to do at the end of the bundle. -/
  todo : List Tail
  /-- What holds its next bundle at issue. -/
  stall : Option StallOn
  /-- The save engine is saving it: the hint, or none for a whole save (16 R348). -/
  saving : Option (Option Hint)
  /-- Engine-fault queue, head first (11 R230). -/
  efq : List (BitVec 256)
  /-- Its OVF bit. -/
  efOvf : Bool
  /-- Traps to deliver at the end of the current bundle, or at once when parked (ABORT, LEASE, PREEMPT). -/
  due' : List TrapReq
  /-- PEND with the time of the request (16 R347). -/
  pend : Option Nat
  /-- The first deadline has passed: the next checkpoint bundle saves the context (16 R348). -/
  pendWhole : Bool
  /-- What the task was given. -/
  al : Alloc
  /-- The twin's GCID (15 R316). -/
  twin : Option Nat
  /-- This is the secondary. -/
  second : Bool
  /-- Values that the twin has shared, by their number (15 R317; MODEL). -/
  deliver : SMap (BitVec 128)
  /-- Values that the pair has shared up to this context's place: the next one's number (MODEL). -/
  shared : Nat
  /-- Handlers entered: the twins' values before and after differ in it (MODEL). -/
  epoch : Nat
  /-- Address of the bundle issued last (16 R342). -/
  lastPc : Word
  /-- Recovery in progress. -/
  recov : Recov
  /-- An interval whose entries a vote has had performed by the other twin (15 R331). -/
  swap : Option Nat
  /-- Time in ns that it has spent where the twin-skew bound does not run (15 R328). -/
  exempt : Nat
  deriving DecidableEq, Repr

/-- A core (01 R13). -/
structure Core where
  /-- Ready queue, head first (04 R65). -/
  ready : List Nat
  /-- Contexts that became READY in the present run. -/
  batch : List Nat
  /-- Context whose run ended last, 0 to 7. -/
  last : Nat
  /-- Contexts that hold the clock: none of them ready. -/
  gated : Bool
  /-- Accumulator store. -/
  acc : AccStore
  /-- WB0. -/
  wb0 : WBuf
  /-- WB1. -/
  wb1 : WBuf
  /-- CPYW loads in progress or held: buffer and command owner (11 R235). -/
  wload : List (Nat × Nat)
  /-- Commands in the output stage (10 R214). -/
  outst : Nat
  /-- Iterative units in use: pipe VA or VB or a divider, to the context (09 R189, 08 R152). -/
  iter : List Nat
  /-- Instruction cache: lines of 128 B by ASID and address with what they hold (16 R360). -/
  icache : List ((Nat × Nat) × List Byte)
  /-- Tile cache: leaves by ASID, TID, tile (06 R108). -/
  tlb : List ((Nat × Nat × Nat) × Nat)
  /-- Descriptor cache by ASID, TID (06 R108). -/
  dcache : List ((Nat × Nat) × Nat)
  /-- Walks that a PREF has started: ASID, TID, tile (06 R119). -/
  walks : List (Nat × Nat × Nat)
  /-- Grant cache by context, name, mode (13 R279). -/
  gcache : List (Nat × LockName × Nat)
  /-- LSPSWZ0 to LSPSWZ11 (06 R103). -/
  swz : SMap Word
  /-- Ring table (11 R236). -/
  rings : SMap (BitVec 128)
  /-- AINJ (20 R401). -/
  ainj : Word
  /-- SCRB of the LSP. -/
  scrbL : Word
  /-- SCRB of the accumulator store. -/
  scrbA : Word
  /-- Scrub position of the LSP, a word offset. -/
  scrubLAt : Nat
  /-- Scrub position of the accumulator store, an entry number. -/
  scrubAAt : Nat
  /-- Error log of the LSP: entries written, newest last, and their count (17 R374). -/
  elogL : List (BitVec 256)
  /-- ELWC of the LSP. -/
  elwcL : Word
  /-- Error log of the accumulator store. -/
  elogA : List (BitVec 256)
  /-- ELWC of the accumulator store. -/
  elwcA : Word
  /-- Suspicion score (15 R332). -/
  score : Nat
  /-- Fenced. -/
  fen : Bool
  /-- Retired. -/
  ret : Bool
  deriving DecidableEq, Repr

/-- A task record with what its queue keeps beside it (14 R302, R303). -/
structure TaskRec where
  /-- The record word. -/
  word : Word
  /-- The dependence word. -/
  dep : Word
  /-- Priority. -/
  prio : Nat
  /-- Kernel. -/
  kernel : Nat
  /-- Virtual cluster, as the task reads it. -/
  vc : Nat
  /-- LKAGE kept from a spawner (14 R310). -/
  age : Option Word
  /-- Its dependence has been met (14 R303). -/
  met : Bool
  /-- The spawner, as its locks name it: LKAGE and task GCID; none for an initial task (14 R303). -/
  by' : Option (Nat × Nat)
  deriving DecidableEq, Repr

/-- A cluster (14 R298, R303). -/
structure Cluster where
  /-- FIFO of priorities 0 to 3. -/
  fifo : Vector (List TaskRec) 4
  /-- Dependence pool. -/
  pool : List TaskRec
  /-- Kernel that holds the cluster. -/
  kernel : Option Nat
  deriving DecidableEq, Repr

/-- A shadow frame in use (15 R323, 13 R280). -/
structure Shadow where
  /-- Context that writes it. -/
  g : Nat
  /-- Address space, tensor and tile. -/
  key : Nat × Nat × Nat
  /-- Place of its word in the pool table. -/
  word : Nat
  /-- Physical key of the shadow frame. -/
  frame : Nat
  /-- Physical key of the frame copied from. -/
  orig : Nat
  /-- Physical key of the leaf. -/
  leaf : Nat
  /-- Interval that holds it; none under a grant. -/
  iv : Option Nat
  /-- Granule offsets written. -/
  mask : List Nat
  /-- A write has been performed to the frame copied from since the copy. -/
  stale : Bool
  deriving DecidableEq, Repr

/-- An SPC: its CMPE (15 R323 to R335). -/
structure Spc where
  /-- SFTB. -/
  sftb : Word
  /-- Shadow frames in use; SFUSE is their number. -/
  shadows : List Shadow
  /-- Event ring, newest last. -/
  events : List (BitVec 256)
  /-- Entries written. -/
  evWc : Nat
  /-- SPC tile cache (06 R108). -/
  tlb : List ((Nat × Nat × Nat) × Nat)
  /-- Interior entries that its walkers hold: ASID, TID, level, tile number above that level; the entry (06 R108). -/
  nodes : List ((Nat × Nat × Nat × Nat) × Nat)
  /-- Keys of the leaves that its walks have ended at (MODEL: how the hotness counters know a leaf, log 31). -/
  leaves : List Nat
  /-- Retired. -/
  ret : Bool
  deriving DecidableEq, Repr

/-- A holder or waiter of a lock object (13 R268, R273). -/
structure LkEntry where
  /-- Object. -/
  name : LockName
  /-- Age: LKAGE, task GCID. -/
  age : Nat × Nat
  /-- Context that holds or waits. -/
  g : Nat
  /-- Mode held; 0 for a plain waiter. -/
  held : Nat
  /-- Mode waited for, when waiting. -/
  want : Option Nat
  /-- Lock class of the request. -/
  cls : Nat
  /-- The grant is WOUNDED. -/
  wounded : Bool
  /-- When its INC lease expires (13 R276). -/
  lease : Option Nat
  /-- The escalation stands for a 65th line request: when granted, the line grants of its tile go (13 R277). -/
  conv : Bool
  /-- A request incompatible with the INC grant has entered the queue: its lease has started, or never will (13 R276). -/
  asked : Bool
  deriving DecidableEq, Repr

/-- A lock manager (13 R268, R270). -/
structure Lkm where
  /-- LKCM0 to LKCM3. -/
  cm : Vector Word 4
  /-- MXLEASE. -/
  lease : Word
  /-- Entries. -/
  ents : List LkEntry
  deriving DecidableEq, Repr

/-- States of a hardware queue slot (14 R290, R296). -/
inductive SlotSt where
  /-- No queue mapped. -/
  | free
  /-- No complete packet. -/
  | idle
  /-- A packet is available. -/
  | ready
  /-- A wait holds the slot. -/
  | waiting
  /-- A launch is being placed. -/
  | launching
  /-- Lapped. -/
  | overrun
  /-- Faulted. -/
  | faulted
  deriving DecidableEq, Repr

/-- What a packet's kernel takes from the queue descriptor, or from the kernel that inserted it (14 R288, R309). -/
structure Launcher where
  /-- ASID. -/
  asid : Nat
  /-- Tenant. -/
  tenant : Nat
  /-- HTB. -/
  htb : Word
  /-- OVFB. -/
  ovfb : Word
  /-- OVFS. -/
  ovfs : Nat
  /-- Root of the tensor 0 through which its addresses are translated (18 R421). -/
  root : Nat
  deriving DecidableEq, Repr

/-- A packet in progress with its sixteen fields resolved (14 R292, R293). -/
structure Packet where
  /-- Field values by bit number. -/
  f : Vector Word 16
  /-- For a packet of KLAUNCH, what the launching kernel gives it. -/
  by' : Option Launcher
  /-- The wait of WT or WAIT, or the hold of an ORD MARKER, is over. -/
  waited : Bool
  deriving DecidableEq, Repr

/-- A hardware queue slot (14 R289, R290). -/
structure QSlot where
  /-- State. -/
  st : SlotSt
  /-- CODE. -/
  code : Nat
  /-- QID. -/
  qid : Nat
  /-- QSWC. -/
  wc : Word
  /-- QSRC. -/
  rc : Word
  /-- Delta state. -/
  delta : Vector Word 16
  /-- Fields carried since the last queue reset. -/
  given : BitVec 16
  /-- The packet in progress. -/
  pkt : Option Packet
  /-- Inserted KLAUNCH packets, first to run first. -/
  ins : List Packet
  /-- MARKERs not yet in effect: the kernels they wait for, the packet, and its failed write-back of RC (14 R420). -/
  marks : List (List Nat × Packet × Option (Nat × Nat))
  /-- Global time at which the slot became IDLE with no kernel running. -/
  idleAt : Nat
  /-- The queue descriptor read when the queue was mapped (14 R288). -/
  desc : BitVec 512
  /-- A failed write-back of RC, due when the packet concerned has taken effect: address and kind (14 R420). -/
  owed : Option (Nat × Nat)
  deriving DecidableEq, Repr

/-- A kernel (14 R298 to R301; 08 R159). -/
structure Kernel where
  /-- Slot that launched it. -/
  slot : Nat
  /-- Packet fields. -/
  pkt : Packet
  /-- ASID. -/
  asid : Nat
  /-- Tenant. -/
  tenant : Nat
  /-- HTB of its queue. -/
  htb : Word
  /-- OVFB. -/
  ovfb : Word
  /-- OVFS. -/
  ovfs : Nat
  /-- T0ROOT, or for a kernel of KLAUNCH the launching kernel's root. -/
  root : Nat
  /-- CODEO of the image. -/
  codeO : Nat
  /-- LVO. -/
  lvo : Nat
  /-- LVN of the image. -/
  lvn : Nat
  /-- SPADS. -/
  spads : Nat
  /-- The task-type table: TTN entries (03 R57). -/
  types : List (BitVec 256)
  /-- Physical cluster of each virtual cluster. -/
  clus : List Nat
  /-- Twin cluster of each, when paired. -/
  twins : List Nat
  /-- Registered objects in record order: true and the entry of a ring, false and the offset of a barrier (03 R59). -/
  objs : List (Bool × Nat)
  /-- CTRB, word 0 of the argument block. -/
  ctrb : Word
  /-- Tasks that have not ended: queued, pooled, spilled or in a context. -/
  live : Nat
  /-- Exception counts by 4 * TID + kind (08 R159). -/
  excs : SMap Nat
  /-- Counts that found no room. -/
  excOvf : SMap Nat
  /-- IOC that placed it. -/
  ioc : Nat
  /-- Queue. -/
  qid : Nat
  /-- All its contexts are saved and its clusters released (14 R312). -/
  saved : Bool
  /-- Queued records kept while it is saved. -/
  kept : List TaskRec
  deriving DecidableEq, Repr

/-- A command at its engine (11 R229). -/
structure EngCmd where
  /-- The command. -/
  c : Cmd
  /-- Bundle count at issue; FENCE and DRAIN name earlier commands by it. -/
  bundle : Nat
  /-- Path it belongs to. -/
  path : Nat
  /-- Entry number among the commands its engine accepted. -/
  order : Nat
  /-- Tile it waits on: key and whether the host has been told (11 R422). -/
  absent : Option (Nat × Nat × Nat)
  /-- Tiles already reported. -/
  told : List (Nat × Nat × Nat)
  /-- TTINV seen, or 10 µs passed, since the last walk. -/
  retry : Bool
  /-- Its task has been killed: nothing is completed in the context. -/
  dead : Bool
  /-- While it waits on a tile: its writes before that one, as key, bit, number of bits and value. -/
  before : List (Nat × Nat × Nat × Nat)
  deriving DecidableEq, Repr

/-- A subscription at a CUP (11 R241). -/
structure Sub where
  /-- The command. -/
  c : Cmd
  /-- Loader. -/
  load : Bool
  /-- Core and ring entry. -/
  core : Nat
  /-- Ring entry. -/
  rix : Nat
  /-- CUP. -/
  cup : Nat
  /-- Next slot of the traversal. -/
  t : Nat
  /-- SUBE has asked it to stop. -/
  stop : Bool
  /-- Bundle count at issue. -/
  bundle : Nat
  /-- Tile it waits on (11 R422). -/
  absent : Option (Nat × Nat × Nat)
  /-- Tiles already reported. -/
  told : List (Nat × Nat × Nat)
  /-- TTINV seen, or 10 µs passed, since the last walk. -/
  retry : Bool
  /-- Its task has been killed. -/
  dead : Bool
  /-- While it waits on a tile: the writes of its slot before that one. -/
  before : List (Nat × Nat × Nat × Nat)
  deriving DecidableEq, Repr

/-- An ABORT token in progress at an IOC (16 R346). -/
structure Token where
  /-- Group. -/
  grp : Nat
  /-- Agreed step so far. -/
  step : Word
  /-- When it arrived. -/
  at' : Nat
  deriving DecidableEq, Repr

/-- An IOC (14 R288, R297, R311; 16 R347; 18 R379 to R382). -/
structure Ioc where
  /-- QTB. -/
  qtb : Word
  /-- QSLICE. -/
  qslice : Word
  /-- Pending doorbells: queue and WC. -/
  bells : SMap Word
  /-- Queues whose state was saved when their slot became FREE (14 R289). -/
  qsaved : List Nat
  /-- Slot that has the turn, packets begun, time it began. -/
  turn : Option (Nat × Nat × Nat)
  /-- Slot that had the last turn. -/
  lastTurn : Nat
  /-- G of R298. -/
  place : Nat
  /-- GSLT0 to GSLT15. -/
  gslt : Vector Word 16
  /-- GSLN0 to GSLN15. -/
  gsln : Vector Word 16
  /-- Entries that have acted, with the AT that each had then; with PER = 0 all whose AT has passed (14 R311). -/
  gacted : SMap Nat
  /-- GSPER. -/
  gsper : Word
  /-- Tenant that runs; none before the first instant. -/
  tenant : Option Nat
  /-- PREDL. -/
  predl : Word
  /-- SVPB. -/
  svpb : Word
  /-- SVPS.NSLOT. -/
  svps : Word
  /-- Save slots in use, by slot number, with the context saved. -/
  used : SMap Nat
  /-- The host has been told that the pool is full. -/
  fullTold : Bool
  /-- HIRB. -/
  hirb : Word
  /-- HIRS. -/
  hirs : Word
  /-- HIWC. -/
  hiwc : Word
  /-- HIRC. -/
  hirc : Word
  /-- IDROP. -/
  idrop : Word
  /-- An interrupt message stands unacknowledged. -/
  msg : Bool
  /-- GRTB. -/
  grtb : Word
  /-- HAPB. -/
  hapb : Word
  /-- HAPR. -/
  hapr : Word
  /-- Tokens in progress. -/
  tokens : List Token
  deriving DecidableEq, Repr

/-- A request for memory that waits at its unit (17 R368). -/
inductive MemReq where
  /-- A released operation: context, bundle, slot. -/
  | op (g bundle slot : Nat)
  /-- A read of a bundle in issue, or of the work at its end: context, bundle. -/
  | read (g bundle : Nat)
  /-- A matrix operation's reads: context, bundle. -/
  | mx (g bundle : Nat)
  /-- A command or subscription, by number. -/
  | cmd (i : Nat)
  deriving DecidableEq, Repr

/-- A memory unit: CUP 0 to 11, DSC 12 to 19, LP6 controller 20 to 27 (17). -/
structure MemUnit where
  /-- HPMCFG or LPMCFG. -/
  pmcfg : Word
  /-- HREFCFG. -/
  refcfg : Word
  /-- Power state by pseudo-channel or rank: 0 active, 1 power-down, 2 self-refresh, 3 forced. -/
  ps : SMap Nat
  /-- Exits in progress. -/
  exits : List Nat
  /-- Refresh debt by bank. -/
  debt : SMap Nat
  /-- Banks blocked by an alert. -/
  blocked : List Nat
  /-- Alerts whose owed refreshes were issued first, by bank (17 R367). -/
  alerts : List Nat
  /-- Requests that wait, in arrival order, each for a bank or, where the whole unit holds them, for the unit (17 R366 to R368). -/
  queue : List (MemReq × Option Nat)
  /-- Banks being refreshed. -/
  refr : List Nat
  /-- Thermal hold since. -/
  hold : Option Nat
  /-- The hold's timeout has been logged. -/
  held2 : Bool
  /-- SCRB. -/
  scrb : Word
  /-- Scrub position, a word offset. -/
  scrubAt : Nat
  /-- Error log, newest last. -/
  elog : List (BitVec 256)
  /-- ELWC. -/
  elwc : Word
  /-- HOTCFG. -/
  hotcfg : Word
  /-- HNRB. -/
  hnrb : Word
  /-- HNRS. -/
  hnrs : Word
  /-- HNWC. -/
  hnwc : Word
  /-- HNRC. -/
  hnrc : Word
  /-- HNDROP. -/
  hndrop : Word
  /-- When the counts last halved. -/
  decayAt : Nat
  /-- Hotness table in entry order: frame, requester, count. -/
  hot : List (Nat × Nat × Nat)
  deriving DecidableEq, Repr

/-- A voltage domain (18 R387). -/
structure Volt where
  /-- Step. -/
  step : Nat
  /-- HOLD until this time. -/
  hold : Option Nat
  /-- Window of predictive failure: when it opened. -/
  win : Option Nat
  /-- Arrays whose crossing has been acted on and that stand above the threshold. -/
  crossed : List Nat
  /-- Corrected errors of the last 600 s: the uptime and the array (numbers of `arrayDomain`). -/
  errs : List (Nat × Nat)
  deriving DecidableEq, Repr

/-- A quote request (16 R361, 18 R386). -/
inductive Quote where
  /-- From the host: buffer and nonce. -/
  | host (buf : Nat) (nonce : List Byte)
  /-- From ATTQ, by command number. -/
  | attq (cmd : Nat)
  /-- From a fabric peer: the link and the nonce. -/
  | peer (link : Nat) (nonce : List Byte)
  deriving DecidableEq, Repr

/-- The MSC (15 R332 to R334; 18 R384 to R391). -/
structure Msc where
  /-- SUSTH. -/
  susth : Word
  /-- SYSRT. -/
  sysrt : Word
  /-- Retirement record: cores. -/
  recCores : List Nat
  /-- Retirement record: SPCs. -/
  recSpcs : List Nat
  /-- Entries to clear at the next reset. -/
  clears : List (Bool × Nat)
  /-- ATNC0 to ATNC3. -/
  atnc : Vector Word 4
  /-- ATBUF. -/
  atbuf : Word
  /-- ATST: BUSY, DONE, ERR, REJ in [3:0] and SEQ in [63:32]. -/
  atst : Word
  /-- Quotes waiting, first to serve first. -/
  quotes : List Quote
  /-- Quotes completed. -/
  qdone : Nat
  /-- UVCFG. -/
  uvcfg : Word
  /-- Domains A to D. -/
  volts : Vector Volt 4
  /-- Uptime in ns (15 R332). -/
  up : Nat
  /-- Last evaluation of R387. -/
  uvAt : Nat
  /-- Whole hours whose halving is done. -/
  halved : Nat
  /-- FRZ: frozen. -/
  frz : Bool
  /-- DBGEN. -/
  dbgen : Word
  /-- READY. -/
  ready : Word
  /-- Bring-up steps finished since the module reset, 7 in all (18 R391). -/
  boot : Nat
  /-- Power throttle. -/
  throttle : Bool
  deriving DecidableEq, Repr

/-- The injector of a lane (18 R389). -/
structure Injector where
  /-- Its register. -/
  reg : Word
  /-- Flits counted since ARM. -/
  flits : Nat
  deriving DecidableEq, Repr

/-- A fabric link: 18 towers (0 to 17), 8 scale-out ports (18 to 25), the host link (26) (18 R381, R389). -/
structure Link where
  /-- Dead. -/
  dead : Bool
  /-- Bad arrivals of one flit in a row: the first, and replays that failed. -/
  bad : Nat
  /-- Injectors of its lanes. -/
  inj : SMap Injector
  /-- Good flits delivered. -/
  good : Nat
  deriving DecidableEq, Repr

/-- A context in a save slot (16 R349). -/
structure Saved where
  /-- GCID under which the context itself stands among the contexts: 4,096 or more (MODEL). -/
  gcid : Nat
  /-- Core it was saved from. -/
  core : Nat
  /-- IOC of its save slot, and the slot. -/
  ioc : Nat
  /-- Slot number. -/
  slot : Nat
  /-- The saved hint; none for a whole save. -/
  hint : Option Hint
  /-- LSP bytes of the allocation and carve-out saved: offset and bytes. -/
  lsp : List (Nat × List Byte)
  /-- Accumulator rows saved: allocation row, entries, checksum, row exclusion. -/
  rows : List (Nat × Vec × Word × Bool)
  /-- Column exclusion bits of each region of the allocation. -/
  cols : List (BitVec 128)
  /-- Saved row groups of the allocation whose invalid bit was set (10 R223). -/
  ginv : List Nat
  /-- Some byte of the allocation was not saved. -/
  dscd : Bool
  deriving DecidableEq, Repr

/-- A core's `.spad` region, ring table and swizzle map saved with a kernel (16 R351). -/
structure SavedCore where
  /-- Kernel. -/
  kernel : Nat
  /-- Virtual cluster and position. -/
  vc : Nat
  /-- Position in the cluster. -/
  pos : Nat
  /-- IOC and slot. -/
  ioc : Nat
  /-- Slot number. -/
  slot : Nat
  /-- Bytes of the `.spad` region. -/
  spad : List Byte
  /-- Ring table. -/
  rings : SMap (BitVec 128)
  /-- Swizzle map. -/
  swz : SMap Word
  deriving DecidableEq, Repr

/-- Contributions to a collective that have arrived: group, rank, sequence number, and the bytes with the peer
check (11 R243, 18 R382). -/
structure Flit where
  /-- Group. -/
  grp : Nat
  /-- Rank of the sender. -/
  rank : Nat
  /-- Sequence number in the group. -/
  seq : Nat
  /-- OPK, TYPE, RED and N as one word. -/
  what : Nat
  /-- G of the header. -/
  gsize : Nat
  /-- Peer check of the header. -/
  check : Nat
  /-- Data. -/
  data : List Byte
  deriving DecidableEq, Repr

/-- Physical faults that strike the next checked result of a context (MODEL input for 15 R329). -/
inductive Upset where
  /-- A register or pipeline latch fails uncorrectably. -/
  | reg
  /-- A duplicate slot's result differs (02 R35). -/
  | dup
  /-- A residue, shadow-issue or LX shadow compare fails (08 R174, 09 R194). -/
  | residue
  /-- A row sent by the output stage arrives changed (10 R216). -/
  | transport
  /-- A weight-buffer row fails its parity, and its sum when it is read again (17 R371). -/
  | weight
  deriving DecidableEq, Repr

end Sys2Proof.Machine
end

