-- ==== Sys2Proof/Machine/State.lean ====
section
/-! DEFINITION. The state of the package, the two ways a step may stop, and the state after reset (18 R391). Maps
hold what differs from the reset value of their kind: a context, core, cluster or unit that a map does not list is
as it is after reset. -/

namespace Sys2Proof.Machine

/-- Faults: none. Every error of the manual is a trap, an engine fault or a record, and the machine goes on. -/
inductive Fault where
  deriving DecidableEq, Repr

/-- Refusals. -/
inductive Refusal where
  /-- Raised by an arm of `exec` whose instruction has no meaning yet; safe: no claim can rest on it. -/
  | notModelled (mnemonic : String)
  deriving DecidableEq, Repr

/-- The registers of a context at reset: zero, the manual giving no value (log 3). -/
def Regs.reset : Regs where
  s := Vector.replicate 32 0
  p := 0
  v := Vector.replicate 32 0
  l := Vector.replicate 8 0
  q := Vector.replicate 4 0
  n := Vector.replicate 16 0
  h := Vector.replicate 8 0
  f := 0
  stgb := 0
  vrnd := 0
  vflg := 0
  mxcfg := 0
  extid := 0
  ovfp := 0
  pc := 0

/-- No allocation. -/
def Alloc.reset : Alloc := ⟨0, 0, 0, 0, 32, 0, [], 0, 0, 0, 0, 0, 0⟩

/-- The one OPEN interval of a context, begun by a copy (15 R318). -/
def Interval.fresh (id : Nat) (copy : Regs) : Interval := ⟨id, copy, none, [], 0, [], 0, false, (0, 0), 0⟩

/-- A context that holds no task (04 R60): FREE, one open interval, RUNLIM 65,536 (02 R41, R42; log 3). -/
def Ctx.reset (g : Nat) : Ctx where
  st := .free
  r := Regs.reset
  hnd := false
  dscd := false
  wndp := false
  wndAt := 0
  wnd := false
  pcls := 0
  tgcid := g
  trapc := 0
  trappc := 0
  trapsl := 0
  faultva := 0
  faultn := 0
  faultn1 := 0
  faultn2 := 0
  stepno := 0
  siglo := 0
  sighi := 0
  prio := 0
  asid := 0
  ttb := 0
  lkage := 0
  runlim := 65536
  liveb := 0
  htb := 0
  fl := []
  bseq := 0
  opened := 0
  mstep := 0
  mx := []
  chains := []
  ivs := [Interval.fresh 0 Regs.reset]
  nextIv := 1
  cap := (0, 0)
  scb := []
  flying := []
  tcopy := none
  replay := 0
  poisonAt := none
  run := 65536
  due := false
  cntB := 0
  cntS := 0
  wait := none
  answer := none
  todo := []
  stall := none
  saving := none
  efq := []
  efOvf := false
  due' := []
  pend := none
  pendWhole := false
  al := Alloc.reset
  twin := none
  second := false
  deliver := []
  shared := 0
  epoch := 0
  lastPc := 0
  recov := .none
  swap := none
  exempt := 0

/-- A weight buffer that no load has filled (10 R200; log 3). -/
def WBuf.reset : WBuf := ⟨false, false, 0, 0, []⟩

/-- An accumulator store of zeros (10 R203; log 3). -/
def AccStore.reset : AccStore := ⟨[], [], [], 0, 0, 0, []⟩

/-- A core after reset: nothing ready, the clock gated, outgoing context 7 (04 R65), SCRB 30 (17 R372). -/
def Core.reset : Core where
  ready := []
  batch := []
  last := 7
  gated := true
  acc := AccStore.reset
  wb0 := WBuf.reset
  wb1 := WBuf.reset
  wload := []
  outst := 0
  iter := []
  icache := []
  tlb := []
  dcache := []
  walks := []
  gcache := []
  swz := []
  rings := []
  ainj := 0
  scrbL := 30
  scrbA := 30
  scrubLAt := 0
  scrubAAt := 0
  elogL := []
  elwcL := 0
  elogA := []
  elwcA := 0
  score := 0
  fen := false
  ret := false

/-- A free cluster with empty queues. -/
def Cluster.reset : Cluster := ⟨Vector.replicate 4 [], [], none⟩

/-- An SPC with nothing in use. -/
def Spc.reset : Spc := ⟨0, [], [], 0, [], [], [], false⟩

/-- A lock manager: the default matrix in every class, a lease of 100,000 ns (13 R270). -/
def Lkm.reset : Lkm := ⟨Vector.replicate 4 0x014503130F4F3FFF, 100000, []⟩

/-- A free hardware queue slot (14 R290). -/
def QSlot.reset : QSlot := ⟨.free, 0, 0, 0, 0, Vector.replicate 16 0, 0, none, [], [], 0, 0, none⟩

/-- IOC `i` (14 R297, R298, R311; 16 R347; 18 R380). -/
def Ioc.reset (i : Nat) : Ioc where
  qtb := 0
  qslice := 500
  bells := []
  qsaved := []
  turn := none
  lastTurn := 64 * i + 63
  place := 64 * i
  gslt := Vector.replicate 16 0
  gsln := Vector.replicate 16 0
  gacted := []
  gsper := 0
  tenant := none
  predl := 50000
  svpb := 0
  svps := 0
  used := []
  fullTold := false
  hirb := 0
  hirs := 8
  hiwc := 0
  hirc := 0
  idrop := 0
  msg := false
  grtb := 0
  hapb := 0
  hapr := 0
  tokens := []

/-- Memory unit `u`: a CUP below 12, a DSC below 20, an LP6 controller below 28 (17 R365, R372, R375). -/
def MemUnit.reset (u : Nat) : MemUnit where
  pmcfg := 0x03E80064
  refcfg := 8
  ps := []
  exits := []
  debt := []
  blocked := []
  alerts := []
  queue := []
  refr := []
  hold := none
  held2 := false
  scrb := if u < 12 then 14400 else if u < 20 then 60 else 28800
  scrubAt := 0
  elog := []
  elwc := 0
  hotcfg := 0x03E81000
  hnrb := 0
  hnrs := 6
  hnwc := 0
  hnrc := 0
  hndrop := 0
  decayAt := 0
  hot := []

/-- A voltage domain at nominal. -/
def Volt.reset : Volt := ⟨0, none, none, [], []⟩

/-- The MSC: thresholds of R334, UVFLOOR 3 and PFTH 64 of R387, READY after bring-up (18 R391). -/
def Msc.reset : Msc where
  susth := 0x0004200008000200
  sysrt := 0
  recCores := []
  recSpcs := []
  clears := []
  atnc := Vector.replicate 4 0
  atbuf := 0
  atst := 0
  quotes := []
  qdone := 0
  uvcfg := 0x00400006
  volts := Vector.replicate 4 Volt.reset
  up := 0
  uvAt := 0
  halved := 0
  frz := false
  dbgen := 0
  ready := 1
  boot := 7
  throttle := false

/-- A link that is up. -/
def Link.reset : Link := ⟨false, 0, [], 0⟩

/-- The state of the package. -/
structure State where
  /-- GCID of the context that acts (MODEL). -/
  cur : Nat
  /-- The bundle being issued (MODEL). -/
  iss : Issue
  /-- The context whose bundle comes next, where the choice of log 5 has been made already (MODEL). -/
  turn : Option Nat
  /-- Events from outside that have arrived (MODEL). -/
  inbox : List Event
  /-- Contexts by GCID. -/
  ctxs : SMap Ctx
  /-- Cores by global number. -/
  cores : SMap Core
  /-- Clusters by global number. -/
  clusters : SMap Cluster
  /-- SPCs. -/
  spcs : SMap Spc
  /-- Lock managers. -/
  lkms : SMap Lkm
  /-- IOCs. -/
  iocs : SMap Ioc
  /-- Hardware queue slots. -/
  slots : SMap QSlot
  /-- Kernels by a number of the model's. -/
  kernels : SMap Kernel
  /-- Commands at engines by a number of the model's. -/
  cmds : SMap EngCmd
  /-- Subscriptions by a number of the model's. -/
  subs : SMap Sub
  /-- The next number for kernels, commands and subscriptions (MODEL). -/
  nextId : Nat
  /-- The package spill buffer, in arrival order. -/
  spill : List (Nat × TaskRec)
  /-- Memory units. -/
  units : SMap MemUnit
  /-- The MSC. -/
  msc : Msc
  /-- Links. -/
  links : SMap Link
  /-- Saved contexts by a number of the model's. -/
  saved : SMap Saved
  /-- Saved cores. -/
  savedCores : List SavedCore
  /-- Leaves that the device holds for its own accesses and the aperture's, by `devKey` (18 R379, R421). -/
  devTlb : List ((Nat × Nat × Nat) × Nat)
  /-- Collective contributions that have arrived. -/
  flits : List Flit
  /-- COLLs begun by each group, by group. -/
  collSeq : SMap Nat
  /-- Memory: bytes at physical keys in canonical form. -/
  mem : List Host.Cell
  /-- Physical addresses of the 8-byte words that are poisoned, rising. -/
  poison : List Nat
  /-- Global time in ns. -/
  now : Nat
  /-- Core cycles. -/
  cycles : Nat
  /-- Counter behind the free values of Config (MODEL; log 5). -/
  ticks : Nat
  /-- Physical faults about to strike (MODEL). -/
  upsets : List Upset
  deriving DecidableEq, Repr

/-- No bundle in issue. -/
def Issue.idle : Issue := ⟨0, 0, 0, 0, [], []⟩

/-- The package after reset (18 R391): every context FREE, nothing mapped, queued, held or listed in memory. -/
def State.reset : State where
  cur := 0
  iss := Issue.idle
  turn := none
  inbox := []
  ctxs := []
  cores := []
  clusters := []
  spcs := []
  lkms := []
  iocs := []
  slots := []
  kernels := []
  cmds := []
  subs := []
  nextId := 0
  spill := []
  units := []
  msc := Msc.reset
  links := []
  saved := []
  savedCores := []
  devTlb := []
  flits := []
  collSeq := []
  mem := []
  poison := []
  now := 0
  cycles := 0
  ticks := 0
  upsets := []

end Sys2Proof.Machine
end

