-- ==== Sys2Proof/Machine/Access.lean ====
section
/-! DEFINITION. Reading and writing the parts of State: units by number, registers of a context with their fixed
reads, predicates under the stage base, control registers (01 R12; 02 R29, R37 to R42). -/

namespace Sys2Proof.Machine

/-- Context `g`. -/
def State.ctx (s : State) (g : Nat) : Ctx := s.ctxs.at (Ctx.reset g) g

/-- State with context `g` replaced. -/
def State.setCtx (s : State) (g : Nat) (c : Ctx) : State := { s with ctxs := s.ctxs.set g c }

/-- The context that acts. -/
def State.me (s : State) : Ctx := s.ctx s.cur

/-- State with the acting context replaced. -/
def State.setMe (s : State) (c : Ctx) : State := s.setCtx s.cur c

/-- Core `k`. -/
def State.core (s : State) (k : Nat) : Core := s.cores.at Core.reset k

/-- State with core `k` replaced. -/
def State.setCore (s : State) (k : Nat) (c : Core) : State := { s with cores := s.cores.set k c }

/-- Cluster `k`. -/
def State.cluster (s : State) (k : Nat) : Cluster := s.clusters.at Cluster.reset k

/-- State with cluster `k` replaced. -/
def State.setCluster (s : State) (k : Nat) (c : Cluster) : State := { s with clusters := s.clusters.set k c }

/-- SPC `k`. -/
def State.spc (s : State) (k : Nat) : Spc := s.spcs.at Spc.reset k

/-- State with SPC `k` replaced. -/
def State.setSpc (s : State) (k : Nat) (c : Spc) : State := { s with spcs := s.spcs.set k c }

/-- Lock manager `k`. -/
def State.lkm (s : State) (k : Nat) : Lkm := s.lkms.at Lkm.reset k

/-- State with lock manager `k` replaced. -/
def State.setLkm (s : State) (k : Nat) (c : Lkm) : State := { s with lkms := s.lkms.set k c }

/-- IOC `k`. -/
def State.ioc (s : State) (k : Nat) : Ioc := s.iocs.at (Ioc.reset k) k

/-- State with IOC `k` replaced. -/
def State.setIoc (s : State) (k : Nat) (c : Ioc) : State := { s with iocs := s.iocs.set k c }

/-- Hardware queue slot `k`. -/
def State.slot (s : State) (k : Nat) : QSlot := s.slots.at QSlot.reset k

/-- State with slot `k` replaced. -/
def State.setSlot (s : State) (k : Nat) (c : QSlot) : State := { s with slots := s.slots.set k c }

/-- Memory unit `k`. -/
def State.unit (s : State) (k : Nat) : MemUnit := s.units.at (MemUnit.reset k) k

/-- State with memory unit `k` replaced. -/
def State.setUnit (s : State) (k : Nat) (c : MemUnit) : State := { s with units := s.units.set k c }

/-- Link `k`. -/
def State.link (s : State) (k : Nat) : Link := s.links.at Link.reset k

/-- State with link `k` replaced. -/
def State.setLink (s : State) (k : Nat) (c : Link) : State := { s with links := s.links.set k c }

/-- The core of a context (01 R12). -/
def coreOf (g : Nat) : Nat := g / 8

/-- The cluster of a context (01 R12). -/
def clusterOf (g : Nat) : Nat := g / 32

/-- The SPC of a context (01 R12). -/
def spcOf (g : Nat) : Nat := g / 128

/-- The cluster-relative core of a context (01 R12). -/
def posOf (g : Nat) : Nat := g / 8 % 4

/-- The core that a window names for a task on a core: its own LSP by the window of its own position, else the LSP of its
home cluster (06 R100; 15 R331). -/
def windowCore (core home pos k : Nat) : Nat := if k = pos then core else 4 * home + k

/-- The voltage domain of an SPC, A = 0 to D = 3 (01 R10). -/
def domainOf (spc : Nat) : Nat := spc / 8

/-- An element of a vector, or a default beyond its end. -/
def vget {α : Type} {n : Nat} (v : Vector α n) (i : Nat) (d : α) : α := v[i]?.getD d

/-- A vector with an element replaced; nothing beyond its end. -/
def vset {α : Type} {n : Nat} (v : Vector α n) (i : Nat) (x : α) : Vector α n := v.setIfInBounds i x

/-- s[i] as an operand: s0 reads zero (02 R38). -/
def Regs.rs (r : Regs) (i : Nat) : Word := if i = 0 then 0 else vget r.s i 0

/-- v[i]. -/
def Regs.rv (r : Regs) (i : Nat) : Vec := vget r.v i 0

/-- l[i]: l0 reads all ones (02 R38). -/
def Regs.rl (r : Regs) (i : Nat) : BitVec 128 := if i = 0 then BitVec.allOnes 128 else vget r.l i 0

/-- q[i]. -/
def Regs.rq (r : Regs) (i : Nat) : Vec := vget r.q i 0

/-- n[i]. -/
def Regs.rn (r : Regs) (i : Nat) : BitVec 256 := vget r.n i 0

/-- h[i], the stored fields. -/
def Regs.rh (r : Regs) (i : Nat) : BitVec 128 := vget r.h i 0

/-- The physical predicate that a predicate operand names (02 R45 ReadPred). -/
def Regs.physPred (r : Regs) (i : Nat) : Nat := if i < 8 then i else 8 + (i - 8 + r.stgb.toNat) % 8

/-- ReadPred (02 R45): p0 reads true. -/
def Regs.readPred (r : Regs) (i : Nat) : Bool := if i = 0 then true else r.p.getLsbD (r.physPred i)

/-- Bits of `x` where `mask` is set, of `old` elsewhere. -/
def blend {n : Nat} (old mask x : BitVec n) : BitVec n := (old &&& ~~~mask) ||| (x &&& mask)

/-- Bit `i` of `x` set to `b`. -/
def setBit {n : Nat} (x : BitVec n) (i : Nat) (b : Bool) : BitVec n :=
  if b then x ||| BitVec.ofNat n (2 ^ i) else x &&& ~~~BitVec.ofNat n (2 ^ i)

/-- CTXST (02 R42). -/
def Ctx.ctxst (g : Nat) (c : Ctx) : Word :=
  BitVec.ofNat 64 (c.pcls + 4 * c.hnd.toNat + 8 * c.dscd.toNat + 16 * c.r.stgb.toNat + 256 * c.ivs.length +
    2048 * c.wndp.toNat + 65536 * g)

/-- The copy a rollback would restore (15 R319): that of the oldest open interval. -/
def Ctx.oldest (c : Ctx) : Regs :=
  match c.ivs with
  | [] => c.r
  | i :: _ => i.copy

/-- Whether a context stands between the agreement of its last interval and the copy that its bundle takes then: it has no copy to
roll back to until that is taken (12 R248; 15 R319). -/
def Ctx.between (c : Ctx) : Bool :=
  match c.ivs.getLast? with
  | some i => i.agreed
  | none => false

/-- The number of the OPEN interval of a context (15 R318). -/
def Ctx.openId (c : Ctx) : Nat :=
  match c.ivs.getLast? with
  | some i => i.id
  | none => 0

/-- The number of the next value that the twins of a class 2 pair share (MODEL; 15 R317). -/
def Ctx.shareKey (c : Ctx) : Nat := c.epoch * 2 ^ 32 + c.shared

/-- The value that the twin has shared for the `n`-th use from here, if it has come (15 R317). -/
def Ctx.delivered (c : Ctx) (n : Nat) : Option (BitVec 128) := c.deliver.find? (c.shareKey + n)

/-- The interval that opens now, begun by a copy: it keeps what a rollback to it restores besides the registers (15 R319,
R339). -/
def Ctx.openWith (c : Ctx) (copy : Regs) : Interval :=
  { Interval.fresh c.nextIv copy with cap := c.cap, shared := c.shared }

/-- A control register as CSRR reads it (02 R41). -/
def Ctx.csr (g : Nat) (c : Ctx) (i : Nat) : Word :=
  match i with
  | 0x000 => c.ctxst g
  | 0x001 => c.trapc
  | 0x002 => c.trappc
  | 0x003 => c.trapsl
  | 0x004 => c.oldest.pc
  | 0x005 => c.faultva
  | 0x006 => c.faultn
  | 0x007 => c.faultn1
  | 0x008 => c.faultn2
  | 0x009 => c.stepno
  | 0x010 => c.r.vrnd
  | 0x011 => c.r.vflg
  | 0x012 => c.r.mxcfg
  | 0x013 => c.siglo
  | 0x014 => c.sighi
  | 0x015 => c.r.extid
  | 0x016 => c.r.ovfp
  | 0x100 => c.prio
  | 0x101 => c.asid
  | 0x102 => c.ttb
  | 0x103 => c.lkage
  | 0x104 => c.runlim
  | 0x105 => c.liveb
  | 0x106 => c.htb
  | _ => 0

/-- The bits of a control register that hold a value (02 R41); bits beyond read zero. -/
def csrBits (i : Nat) : Word :=
  match i with
  | 0x001 => 0xFFFFF
  | 0x003 => 0xF
  | 0x004 => ~~~3
  | 0x006 => 0x7FFFFF
  | 0x010 => 3
  | 0x012 => 0x7FFFF
  | 0x015 => 0xFFFFF
  | 0x016 => ~~~127
  | 0x100 => 3
  | 0x101 => 0xFFFF
  | 0x102 => ~~~63
  | 0x104 => 0xFFFFFFFF
  | 0x105 => ~~~63
  | 0x106 => ~~~4095
  | _ => BitVec.allOnes 64

/-- Whether a program may write a control register (02 R41): those of RW and W1C access always, the others listed
there in handler mode. -/
def csrWritable (hnd : Bool) (i : Nat) : Bool :=
  i == 0x000 || i == 0x010 || i == 0x011 || i == 0x012 || i == 0x015 || i == 0x016 ||
    (hnd && ((1 ≤ i && i ≤ 9) || (0x100 ≤ i && i ≤ 0x106)))

/-- The open intervals with the PC of the oldest copy replaced (02 R41 CKPTPC). -/
def setCkptPc (ivs : List Interval) (x : Word) : List Interval :=
  match ivs with
  | [] => []
  | i :: r => { i with copy := { i.copy with pc := x } } :: r

/-- A control register with the bits of `mask` replaced. -/
def Ctx.putCsr (c : Ctx) (i : Nat) (mask x : Word) : Ctx :=
  let m := mask &&& csrBits i
  match i with
  | 0x000 => { c with dscd := c.dscd && !(m.getLsbD 3 && !x.getLsbD 3) }
  | 0x001 => { c with trapc := blend c.trapc m x }
  | 0x002 => { c with trappc := blend c.trappc m x }
  | 0x003 => { c with trapsl := blend c.trapsl m x }
  | 0x004 => { c with ivs := setCkptPc c.ivs (blend c.oldest.pc m x) }
  | 0x005 => { c with faultva := blend c.faultva m x }
  | 0x006 => { c with faultn := blend c.faultn m x }
  | 0x007 => { c with faultn1 := blend c.faultn1 m x }
  | 0x008 => { c with faultn2 := blend c.faultn2 m x }
  | 0x009 => { c with stepno := blend c.stepno m x }
  | 0x010 => { c with r := { c.r with vrnd := blend c.r.vrnd m x } }
  | 0x011 => { c with r := { c.r with vflg := blend c.r.vflg m x } }
  | 0x012 => { c with r := { c.r with mxcfg := blend c.r.mxcfg m x } }
  | 0x015 => { c with r := { c.r with extid := blend c.r.extid m x } }
  | 0x016 => { c with r := { c.r with ovfp := blend c.r.ovfp m x } }
  | 0x100 => { c with prio := blend c.prio m x }
  | 0x101 => { c with asid := blend c.asid m x }
  | 0x102 => { c with ttb := blend c.ttb m x }
  | 0x103 => { c with lkage := blend c.lkage m x }
  | 0x104 => { c with runlim := blend c.runlim m x }
  | 0x105 => { c with liveb := blend c.liveb m x }
  | 0x106 => { c with htb := blend c.htb m x }
  | _ => c

/-- A result put into the registers; writes to s0, p0 and l0 are discarded (02 R37). -/
def Ctx.put (c : Ctx) : Res → Ctx
  | .s i x => if i = 0 then c else { c with r := { c.r with s := vset c.r.s i x } }
  | .p i x => if i = 0 then c else { c with r := { c.r with p := setBit c.r.p i x } }
  | .v i m x => { c with r := { c.r with v := vset c.r.v i (blend (c.r.rv i) m x) } }
  | .l i m x => if i = 0 then c else { c with r := { c.r with l := vset c.r.l i (blend (c.r.rl i) m x) } }
  | .q i m x => { c with r := { c.r with q := vset c.r.q i (blend (c.r.rq i) m x) } }
  | .n i m x => { c with r := { c.r with n := vset c.r.n i (blend (c.r.rn i) m x) } }
  | .h i x => { c with r := { c.r with h := vset c.r.h i x } }
  | .f m x => { c with r := { c.r with f := blend c.r.f m x } }
  | .stgb x => { c with r := { c.r with stgb := x } }
  | .csr i m x => c.putCsr i m x
  | .none => c

/-- The register a result lands in. -/
def Res.reg : Res → Option RegId
  | .s i _ => some (.s i)
  | .p i _ => some (.p i)
  | .v i _ _ => some (.v i)
  | .l i _ _ => some (.l i)
  | .q i _ _ => some (.q i)
  | .n i _ _ => some (.n i)
  | .h i _ => some (.h i)
  | .f _ _ => some .f
  | .stgb _ => some .stgb
  | .csr i _ _ => some (.csr i)
  | .none => Option.none

/-- Whether an interlocked result is pending for a register (04 R63). -/
def Ctx.pending (c : Ctx) (r : RegId) : Bool := c.fl.any fun f => f.ilk && f.res.reg == some r

/-- Whether a context's entries of an interval follow those of its twin: a class 2 secondary's, but for an interval whose
roles a vote has exchanged (15 R316, R331). -/
def Ctx.follows (c : Ctx) (iv : Option Nat) : Bool := c.second != (c.swap.isSome && c.swap == iv)

/-- A task's protection class is 1 or 2 (15 R315). -/
def Ctx.protectedTask (c : Ctx) : Bool := 1 ≤ c.pcls

/-- SigFold (02 R45). -/
def sigFold (sig x : Word) : Word := sig.rotateLeft 7 ^^^ (x * 0x9E3779B97F4A7C15)

/-- Words folded in order. -/
def sigFolds (sig : Word) (xs : List Word) : Word := xs.foldl sigFold sig

/-- SignExtend of the low `n` bits of a number to 64 bits (02 R45). -/
def signExt (x n : Nat) : Word :=
  let c := x % 2 ^ n
  if 2 ^ (n - 1) ≤ c then BitVec.ofNat 64 (2 ^ 64 + c - 2 ^ n) else BitVec.ofNat 64 c

/-- The concatenation of a short immediate with its K payloads, and its width (02 R45 KImm). -/
def kConcat (imm w : Nat) : List (BitVec 28) → Nat × Nat
  | [] => (imm, w)
  | k :: ks => kConcat (imm + k.toNat * 2 ^ w) (w + 28) ks

/-- KImm (02 R45). -/
def kImm (imm w : Nat) (ks : List (BitVec 28)) : Word :=
  let (c, n) := kConcat imm w ks
  if 64 ≤ n then BitVec.ofNat 64 c else signExt c n

end Sys2Proof.Machine
end

