-- ==== Sys2Proof/Machine/Translate.lean ====
section
/-! DEFINITION. Addresses: physical keys, tensor descriptors, tile-table walks, the tile caches, and the checks of an
access in the order of R101 (06 R100 to R109; 18 R421). -/

namespace Sys2Proof.Machine

/-- Physical key of an offset within a node: 0 DSC, 1 HBM, 2 LP6. -/
def pkNode (node off : Nat) : Nat := node * 2 ^ 48 + off

/-- Physical key of a byte of HBM. -/
def pkHbm (off : Nat) : Nat := pkNode 1 off

/-- Physical key of an LSP byte. -/
def pkLsp (core off : Nat) : Nat := 2 ^ 56 + core * 2 ^ 20 + off

/-- Physical key of a byte of another package. -/
def pkRemote (pkg off : Nat) : Nat := 2 ^ 57 + pkg * 2 ^ 42 + off

/-- Whether a key lies in an LSP, and whose. -/
def lspOf (pa : Nat) : Option Nat := if 2 ^ 56 ≤ pa && pa < 2 ^ 57 then some ((pa - 2 ^ 56) / 2 ^ 20) else none

/-- The memory unit that is the home of a key (07 R123): CUP, DSC or LP6 controller; none for an LSP or a remote
byte. That LP6 frames are dealt to the eight controllers in order of 128 GiB is the model's choice (DESIGN CHOICE, log 31): the
manual gives no mapping of an LP6 frame to a controller, nor so to an IOC (01 R16). -/
def homeUnit (pa : Nat) : Option Nat :=
  if pa < 2 ^ 48 then some (12 + pa / 2 ^ 26)
  else if pa < 2 * 2 ^ 48 then some ((pa - 2 ^ 48) / 2 ^ 36)
  else if pa < 3 * 2 ^ 48 then some (20 + (pa - 2 * 2 ^ 48) / 2 ^ 37)
  else none

/-- Bytes of HBM4 in the package (01 R16). -/
def hbmBytes : Nat := 12 * 2 ^ 36

/-- Whether the 8-byte word of a key is poisoned (17 R371). -/
def State.poisoned (s : State) (pa : Nat) : Bool := s.poison.contains (pa / 8 * 8)

/-- Whether a range of keys meets poison. -/
def State.poisonedRange (s : State) (pa n : Nat) : Bool :=
  s.poison.any fun p => decide (p < pa + n) && decide (pa < p + 8)

/-- The 64-bit word at a key. -/
def State.word (s : State) (pa : Nat) : Nat := leNat (memRead s.mem pa 8)

/-- How an address check ends: with what it names, with a trap cause and FAULTVA, or with a wait (a moving tile, or
a grant-cache refill) that holds the bundle at issue. -/
inductive Chk (α : Type) where
  /-- The checks pass. -/
  | ok (x : α)
  /-- The first failing check: its cause and the address that failed. -/
  | bad (cause : Nat) (va : Nat)
  /-- The bundle waits. -/
  | wait (w : StallOn)
  deriving DecidableEq, Repr

/-- What a walk finds (06 R107). -/
inductive Walk where
  /-- A valid, well-formed leaf: the physical key it lies at, and its word. -/
  | leaf (at' w : Nat)
  /-- An entry with V = 0. -/
  | absent
  /-- A malformed entry. -/
  | malformed
  /-- A table word that reads poisoned. -/
  | poisoned
  deriving DecidableEq, Repr

/-- The frames a node holds (06 R107). -/
def frameLimit (node : Nat) : Nat :=
  match node with
  | 0 => 8192
  | 1 => 12582912
  | 2 => 16777216
  | _ => 2 ^ 26

/-- A walk of `i` levels from the table at HBM address `tab` (06 R107), where `node` gives the interior entries of levels that the
walker holds (R108); a table beyond HBM4 is malformed (log 13). -/
def State.walk (s : State) (node : Nat → Option Nat) (t : Nat) : Nat → Nat → Walk
  | 0, _ => .malformed
  | i + 1, tab =>
    match (if i = 0 then none else node i) with
    | some e => s.walk node t i (bits e 12 30 * 4096)
    | none =>
      let a := tab + 8 * (t / 512 ^ i % 512)
      if hbmBytes ≤ a then .malformed
      else if s.poisoned (pkHbm a) then .poisoned
      else
        let e := s.word (pkHbm a)
        if bits e 63 1 = 0 then .absent
        else if i = 0 then (if bits e 16 26 < frameLimit (bits e 58 2) then .leaf (pkHbm a) e else .malformed)
        else if bits e 42 21 ≠ 0 then .malformed
        else s.walk node t i (bits e 12 30 * 4096)

/-- The interior entries, by level, that a walk of `i` levels that ends at a leaf goes through (06 R107, R108). -/
def State.walkNodes (s : State) (node : Nat → Option Nat) (t : Nat) : Nat → Nat → List (Nat × Nat)
  | 0, _ => []
  | i + 1, tab =>
    if i = 0 then []
    else
      let e := (node i).getD (s.word (pkHbm (tab + 8 * (t / 512 ^ i % 512))))
      (i, e) :: s.walkNodes node t i (bits e 12 30 * 4096)

/-- A tensor descriptor as its 512 bits (06 R105). -/
structure Desc where
  /-- The entry. -/
  w : Nat
  deriving DecidableEq, Repr

/-- Rank. -/
def Desc.rank (d : Desc) : Nat := bits d.w 0 2 + 1

/-- Element code. -/
def Desc.elem (d : Desc) : Nat := bits d.w 2 4

/-- log2 of the element size in bits (06 R105). -/
def Desc.eb (d : Desc) : Nat := if d.elem = 0 then 0 else d.elem + 1

/-- Tile order. -/
def Desc.order (d : Desc) : Nat := bits d.w 6 2

/-- Bit-plane layout. -/
def Desc.layout (d : Desc) : Nat := bits d.w 8 1

/-- VALID. -/
def Desc.valid (d : Desc) : Bool := bits d.w 10 1 == 1

/-- log2 of the tile extent in a dimension. -/
def Desc.t (d : Desc) (j : Nat) : Nat := bits d.w (16 + 5 * j) 5

/-- Extent in a dimension. -/
def Desc.ext (d : Desc) (j : Nat) : Nat := bits d.w (64 + 32 * j) 32

/-- ROOT. -/
def Desc.root (d : Desc) : Nat := bits d.w 192 42

/-- LEVELS. -/
def Desc.levels (d : Desc) : Nat := bits d.w 234 3

/-- Tiles along a dimension (06 R106). -/
def Desc.grid (d : Desc) (j : Nat) : Nat := (d.ext j + 2 ^ d.t j - 1) / 2 ^ d.t j

/-- The Morton number of tile coordinates of a rank (06 R106). -/
def morton (r : Nat) (tc : Nat → Nat) : Nat :=
  ((List.range 32).map fun i => ((List.range r).map fun j => bits (tc j) i 1 * 2 ^ (i * r + j)).sum).sum

/-- Horner's rule over the dimensions from the highest down: the number so far is `acc`. -/
def hornerDown (perm : Nat → Nat) (g tc : Nat → Nat) (acc : Nat) : Nat → Nat
  | 0 => acc
  | j + 1 => hornerDown perm g tc (acc * g (perm j) + tc (perm j)) j

/-- The tile number of tile coordinates (06 R106). -/
def Desc.tileOf (d : Desc) (tc : Nat → Nat) : Nat :=
  let r := d.rank
  if d.order = 2 then morton r tc
  else
    let perm : Nat → Nat := fun j => if d.order = 1 && 2 ≤ r then (if j = 0 then 1 else if j = 1 then 0 else j) else j
    hornerDown perm d.grid tc 0 r

/-- The largest tile number of the tensor (06 R105, 13 R283). -/
def Desc.lastTile (d : Desc) : Nat := d.tileOf fun j => d.grid j - 1

/-- Whether a valid entry is malformed (06 R105); LAYOUT = 1 has the conditions of 10 R199. That a ROOT with bits [11:0] other
than zero is malformed is the model's choice (DESIGN CHOICE, log 61): R105's list does not name it. -/
def Desc.malformed (d : Desc) : Bool :=
  let r := d.rank
  5 < d.elem || d.order == 3 || bits d.w 11 5 != 0 || bits d.w 36 28 != 0 || bits d.w 237 275 != 0 ||
    d.t 0 + d.t 1 + d.t 2 + d.t 3 + d.eb != 19 ||
    (List.range 4).any (fun j => (r ≤ j && d.t j != 0) || (j < r && d.ext j == 0)) ||
    d.levels == 0 || 5 < d.levels || bits d.root 0 12 != 0 || 2 ^ (9 * d.levels) ≤ d.lastTile ||
    (d.layout == 1 && (d.t 0 < 7 || 3 < d.elem))

/-- The intra-tile element index of element coordinates (06 R106). -/
def Desc.inTile (d : Desc) (c : Nat → Nat) : Nat :=
  hornerDown id (fun j => 2 ^ d.t j) (fun j => c j % 2 ^ d.t j) 0 d.rank

/-- The tile of element coordinates. -/
def Desc.tile (d : Desc) (c : Nat → Nat) : Nat := d.tileOf fun j => c j / 2 ^ d.t j

/-- The bit offset within the tile of element bit `b`, in the row-major or the bit-plane layout (06 R106, 10 R199). -/
def Desc.bitOff (d : Desc) (c : Nat → Nat) (b : Nat) : Nat :=
  let u := d.inTile c
  let w := 2 ^ d.eb
  if d.layout = 1 then (u / 128 * 16 * w + 16 * (w - 1 - b)) * 8 + u % 128 else u * w + b

/-- The address-space view of an access: ASID and the base of its tensor table, or a root that stands for tensor 0
where the device itself accesses memory (18 R421). -/
structure Space where
  /-- ASID. -/
  asid : Nat
  /-- TTB, a physical HBM address. -/
  ttb : Nat
  /-- Root of tensor 0 given by a register or descriptor instead of entry 0. -/
  root : Option Nat
  deriving DecidableEq, Repr

/-- The space of a context. -/
def Ctx.space (c : Ctx) : Space := ⟨c.asid.toNat % 2 ^ 16, c.ttb.toNat, none⟩

/-- The descriptor of a TID as memory holds it; none where the entry lies beyond HBM4. -/
def State.descMem (s : State) (sp : Space) (tid : Nat) : Option Desc :=
  if hbmBytes < sp.ttb + 64 * tid + 64 then none else some ⟨leNat (memRead s.mem (pkHbm (sp.ttb + 64 * tid)) 64)⟩

/-- Whether the entry of a TID reads poisoned. -/
def State.descBad (s : State) (sp : Space) (tid : Nat) : Bool := s.poisonedRange (pkHbm (sp.ttb + 64 * tid)) 64

/-- The descriptor that a core's descriptor cache holds. -/
def State.descCached (s : State) (core : Nat) (sp : Space) (tid : Nat) : Option Desc :=
  ((s.core core).dcache.find? fun e => e.1 == (sp.asid, tid)).map fun e => ⟨e.2⟩

/-- The descriptor a core uses: the cached one or the present one, freely, until TTINV (06 R108, log 6). -/
def State.desc (s : State) (core : Nat) (sp : Space) (tid : Nat) : Option Desc :=
  match s.descCached core sp tid with
  | some d => if s.descBad sp tid || Config.freeBool s.ticks then some d else s.descMem sp tid
  | none => s.descMem sp tid

/-- Whether a descriptor must be read and reads poisoned: none is cached (06 R108). -/
def State.descPoisoned (s : State) (core : Nat) (sp : Space) (tid : Nat) : Bool :=
  s.descBad sp tid && (s.descCached core sp tid).isNone

/-- The interior entry of a level that an SPC's walkers use for a tile: one they hold, freely, until TTINV (06 R108, log 6). -/
def State.nodeOf (s : State) (core : Nat) (sp : Space) (tid tile i : Nat) : Option Nat :=
  match (s.spc (core / 16)).nodes.find? fun e => e.1 == (sp.asid, tid, i, tile / 512 ^ i) with
  | some e => if Config.freeBool (s.ticks * 8 + i) then some e.2 else none
  | none => none

/-- The levels and the root of a TID's tile table; none where there is no usable table. -/
def State.tableOf (s : State) (core : Nat) (sp : Space) (tid : Nat) : Option (Nat × Nat) :=
  match sp.root with
  | some r => some (5, r)
  | none =>
    match s.desc core sp tid with
    | none => none
    | some d => if tid = 0 && d.levels ≠ 5 then none else some (d.levels, d.root)

/-- The walk of a tile of a TID; a device's has no entries of the SPCs' walkers. -/
def State.walkTile (s : State) (core : Nat) (sp : Space) (tid tile : Nat) : Walk :=
  match s.tableOf core sp tid with
  | none => .malformed
  | some (l, r) => s.walk (if sp.root.isSome then fun _ => none else s.nodeOf core sp tid tile) tile l r

/-- The leaf a core uses for a tile: the cached one or the present one, freely, until TTINV (06 R108, log 6). -/
def State.leafOf (s : State) (core : Nat) (sp : Space) (tid tile : Nat) : Walk :=
  match ((s.core core).tlb ++ (s.spc (core / 16)).tlb).find? fun e => e.1 == (sp.asid, tid, tile) with
  | some e =>
    -- a cached leaf needs no read of a table word that is poisoned
    let w := s.walkTile core sp tid tile
    if sp.root = none && (w == .poisoned || Config.freeBool s.ticks) then .leaf 0 e.2 else w
  | none => s.walkTile core sp tid tile

/-- The kinds of access that permissions and locks tell apart (06 R101, 13 R269). -/
inductive Acc where
  /-- A read. -/
  | read
  /-- A write. -/
  | write
  /-- An additive write. -/
  | add
  /-- An instruction fetch. -/
  | fetch
  deriving DecidableEq, Repr

/-- Whether a lock mode covers an access (13 R269). -/
def modeCovers (mode : Nat) (a : Acc) : Bool :=
  match a with
  | .read => mode == 4 || mode == 5 || mode == 7
  | .add => mode == 6 || mode == 7
  | .write => mode == 7
  | .fetch => true

/-- A line of a tile, or its tile or tensor, as the name of a lock object (13 R267). -/
def lockLine (asid tid tile line : Nat) : LockName := ⟨asid, tid, 2, tile * 512 + line⟩

/-- The tile as a lock object. -/
def lockTile (asid tid tile : Nat) : LockName := ⟨asid, tid, 1, tile⟩

/-- The tensor as a lock object. -/
def lockTensor (asid tid : Nat) : LockName := ⟨asid, tid, 0, 0⟩

/-- The home LKM of a tensor's locks (13 R268). -/
def lkmHome (asid tid : Nat) : Nat := (tid * 0x9E3779B9 + asid * 0x7F4A7C15) % 2 ^ 32 / 2 ^ 29

/-- The objects whose grants cover a byte: its line, tile and tensor. -/
def lockNames (asid tid tile off : Nat) : List LockName :=
  [lockLine asid tid tile (off / 128), lockTile asid tid tile, lockTensor asid tid]

/-- The identity under which a context's locks are held (R272); a class 2 secondary has its primary's. -/
def State.lkId (s : State) (g : Nat) : Nat × Nat :=
  let c := s.ctx g
  match c.second, c.twin with
  | true, some t => ((s.ctx t).lkage.toNat, (s.ctx t).tgcid)
  | _, _ => (c.lkage.toNat, c.tgcid)

/-- Whether a context's core holds a usable grant in its grant cache for an access to an enforced byte (13 R279). -/
def State.grantCached (s : State) (g asid tid tile off : Nat) (a : Acc) : Bool :=
  (s.core (coreOf g)).gcache.any fun e =>
    e.1 == g && (lockNames asid tid tile off).contains e.2.1 && modeCovers e.2.2 a

/-- The lock under which the home LKM holds such a grant (13 R279). -/
def State.grantHeld (s : State) (g asid tid tile off : Nat) (a : Acc) : Option LockName :=
  ((s.lkm (lkmHome asid tid)).ents.find? fun e =>
    e.age == s.lkId g && (lockNames asid tid tile off).contains e.name && !e.wounded && modeCovers e.held a).map
    (·.name)

/-- The physical key that a leaf gives an offset within its tile (06 R107). -/
def leafKey (w off : Nat) : Nat :=
  let node := bits w 58 2
  if node = 3 then pkRemote (bits w 42 13) (bits w 16 26 * 2 ^ 16 + off) else pkNode node (bits w 16 26 * 2 ^ 16 + off)

/-- The checks of R101 steps 3 to 5 on `n` bytes at an offset of one tile, with `va` as FAULTVA. `g` is the context
on the CORE path; an engine (`core = false`) never accesses an enforced tile. -/
def State.checkTile (s : State) (g : Nat) (core : Bool) (sp : Space) (tid tile off : Nat) (a : Acc) (va : Nat) :
    Chk Nat :=
  match s.leafOf (coreOf g) sp tid tile with
  | .absent => .bad 0x06 va
  | .malformed => .bad 0x09 va
  | .poisoned => .bad 0x10 va
  | .leaf _ w =>
    if bits w 56 1 = 1 then .wait .moving
    else if (a == .read && bits w 62 1 == 0) || ((a == .write || a == .add) && bits w 61 1 == 0) ||
        (a == .fetch && bits w 60 1 == 0) || bits w 58 2 == 3 then .bad 0x09 va
    else if bits w 57 1 = 1 && a != .fetch then
      if !core then .bad 0x09 va
      else if s.grantCached g sp.asid tid tile off a then .ok (leafKey w off)
      else
        match s.grantHeld g sp.asid tid tile off a with
        | some n => .wait (.grant n)
        | none => .bad 0x0A va
    else .ok (leafKey w off)

/-- The regions of R100: 0 own LSP, 1 and 9 holes, 2 to 5 windows, 6 to 8 the holes between windows, 10 flat space, 11
out of range, 12 beyond 64 bits. -/
def regionOf (ea : Nat) : Nat :=
  if ea < 0xC0000 then 0
  else if ea < 0x1000000 then 1
  else if ea < 0x2000000 then
    let k := (ea - 0x1000000) / 0x400000
    if (ea - 0x1000000) % 0x400000 < 0xC0000 then 2 + k else 6 + k
  else if ea < 2 ^ 32 then 9
  else if ea < 2 ^ 57 then 10
  else if ea < 2 ^ 64 then 11
  else 12

/-- CVLO of a context (06 R104). -/
def Ctx.cvlo (c : Ctx) : Nat := c.al.cvhi - 1024 * c.al.spill

/-- Whether an access with base s30 at `ea` is redirected (06 R104). -/
def Ctx.redirected (c : Ctx) (base30 : Bool) (ea : Nat) : Bool :=
  base30 && c.cvlo - 2 ^ 20 ≤ ea && ea < c.cvlo

/-- The flat address of a redirected access (06 R104). -/
def Ctx.redirect (c : Ctx) (ea : Nat) : Nat := (c.r.ovfp.toNat + 2 ^ 64 - (c.cvlo - ea)) % 2 ^ 64

/-- The LSP key that a local address names for a context: its own LSP, or a window of its home cluster (06 R100). -/
def Ctx.localKey (c : Ctx) (g ea : Nat) : Nat :=
  if ea < 0xC0000 then pkLsp (coreOf g) ea
  else pkLsp (windowCore (coreOf g) c.al.home c.al.pos ((ea - 0x1000000) / 0x400000)) ((ea - 0x1000000) % 0x400000)

/-- The pieces (key, length) of an access of `n` bytes at a checked flat address, one for each tile it meets. -/
def flatPieces (ea n : Nat) : List (Nat × Nat) :=
  let first := min n (2 ^ 16 - ea % 2 ^ 16)
  if first < n then [(ea, first), (ea + first, n - first)] else [(ea, n)]

/-- The rank of a cause in the order of R101. -/
def checkRank (cause : Nat) : Nat :=
  match cause with
  | 0x08 => 1
  | 0x07 => 2
  | 0x06 => 3
  | 0x09 => 4
  | 0x0A => 5
  | _ => 6

/-- Two checks together: the earlier check of R101 wins, then the first. -/
def Chk.and {α : Type} (x y : Chk (List α)) : Chk (List α) :=
  match x, y with
  | .bad c a, .bad c' a' => if checkRank c' < checkRank c then .bad c' a' else .bad c a
  | .bad c a, _ => .bad c a
  | _, .bad c a => .bad c a
  | .wait w, _ => .wait w
  | _, .wait w => .wait w
  | .ok a, .ok b => .ok (a ++ b)

/-- Checks 1 to 5 of R101 on an access of `n` bytes at a byte address, for a context: the pieces of physical memory
it names, in address order. -/
def State.checkAddr (s : State) (g : Nat) (core : Bool) (a : Acc) (base30 : Bool) (ea n align : Nat) :
    Chk (List (Nat × Nat)) :=
  let c := s.ctx g
  let redir := c.redirected base30 ea
  let va := if redir then c.redirect ea else ea
  if va % align ≠ 0 then .bad 0x08 ea
  else if (redir && c.cvlo ≤ ea + n - 1) || regionOf va ≠ regionOf (va + n - 1) then .bad 0x07 ea
  else if redir && va < 2 ^ 32 then .bad 0x06 va
  else
    let k := regionOf va
    if k = 0 || (2 ≤ k && k ≤ 5) then .ok [(c.localKey g va, n)]
    else if k ≠ 10 then .bad 0x06 va
    else
      ((flatPieces va n).map fun p =>
        match s.checkTile g core c.space 0 (p.1 / 2 ^ 16) (p.1 % 2 ^ 16) a va with
        | .ok pa => Chk.ok [(pa, p.2)]
        | .bad x y => .bad x y
        | .wait w => .wait w).foldl Chk.and (.ok [])

/-- Whether an address lies in the context's own LSP by the direct range, whose loads are exposed (06 R100). -/
def isOwnDirect (ea : Nat) : Bool := ea < 0xC0000

end Sys2Proof.Machine
end

