-- ==== Sys2Proof/Machine/Lkm.lean ====
section
/-! DEFINITION. The lock managers: compatibility, grants, queues, wounds, leases, requests, downgrade and release
(13 R267 to R287). What a manager does to a context (a wake, a wound, a lease trap) is answered as an effect, which
the caller carries out. -/

namespace Sys2Proof.Machine

/-- What a lock manager asks of a context. -/
inductive LkEff where
  /-- The parked request of the context for an object is answered with a status. -/
  | wake (g : Nat) (n : LockName) (st : Word)
  /-- The context is wounded (R275). -/
  | wound (g : Nat)
  /-- The context's INC lease has expired (R276). -/
  | lease (g : Nat)
  deriving DecidableEq, Repr

/-- Whether a held mode covers another mode (R269). -/
def modeSubsumes (held m : Nat) : Bool :=
  match held with
  | 0 => false
  | 3 => m == 3 || m == 1 || m == 2
  | 4 => m == 4 || m == 1
  | 5 => m == 5 || m == 4 || m == 3 || m == 1 || m == 2
  | 6 => m == 6 || m == 2
  | 7 => true
  | h => m == h

/-- Compatibility of a request of mode `q` with a holder or waiter of mode `c`; row 0 and column 0 are ones (R270). -/
def Lkm.compat (k : Lkm) (cls q c : Nat) : Bool :=
  q == 0 || c == 0 || (vget k.cm cls 0).getLsbD (8 * q + c)

/-- Whether a mode may be requested at a level (R269). -/
def modeAtLevel (mode level : Nat) : Bool :=
  1 ≤ mode && mode ≤ 7 && (level ≤ 1 || mode == 4 || mode == 6 || mode == 7)

/-- The ancestors of an object, nearest first (R267). -/
def LockName.ancestors (n : LockName) : List LockName :=
  match n.level with
  | 0 => []
  | 1 => [lockTensor n.asid n.tid]
  | _ => [lockTile n.asid n.tid (n.obj / 512), lockTensor n.asid n.tid]

/-- Whether `n` is `m` or lies below it. -/
def LockName.under (n m : LockName) : Bool := n == m || n.ancestors.contains m

/-- Whether an intention held at an ancestor admits a mode below it (R271). -/
def intends (held mode : Nat) : Bool :=
  match mode with
  | 1 | 4 => held == 1 || held == 3 || held == 4 || held == 5 || held == 7
  | 2 | 6 => held == 2 || held == 3 || held == 5 || held == 6 || held == 7
  | _ => held == 3 || held == 5 || held == 7

/-- The paths of LKESC (R274). -/
def escPath (cur mode : Nat) : Bool :=
  (cur == 4 && mode == 7) || (cur == 6 && mode == 7) || (cur == 1 && mode == 3) || (cur == 2 && mode == 3) ||
    (cur == 4 && mode == 5)

/-- Age order: LKAGE, then the smaller task GCID is older (R272). -/
def older (a b : Nat × Nat) : Bool := a.1 < b.1 || (a.1 == b.1 && a.2 < b.2)

/-- An entry put into a list in age order, behind its equals. -/
def insertAge (e : LkEntry) : List LkEntry → List LkEntry
  | [] => [e]
  | x :: r => if older e.age x.age then e :: x :: r else x :: insertAge e r

/-- Entries in age order. -/
def byAge (es : List LkEntry) : List LkEntry := es.foldl (fun l e => insertAge e l) []

/-- The entry of an identity on an object. -/
def Lkm.entry? (k : Lkm) (n : LockName) (age : Nat × Nat) : Option LkEntry :=
  k.ents.find? fun e => e.name == n && e.age == age

/-- The mode an identity holds on an object, NL where none. -/
def Lkm.heldBy (k : Lkm) (n : LockName) (age : Nat × Nat) : Nat := ((k.entry? n age).map (·.held)).getD 0

/-- Holders of an object other than an identity. -/
def Lkm.others (k : Lkm) (n : LockName) (age : Nat × Nat) : List LkEntry :=
  k.ents.filter fun e => e.name == n && e.held != 0 && e.age != age

/-- Grantable as an escalation: compatible with every other holder (R273 step 1). -/
def Lkm.escGrantable (k : Lkm) (n : LockName) (age : Nat × Nat) (cls mode : Nat) : Bool :=
  (k.others n age).all fun e => k.compat cls mode e.held

/-- Grantable as a waiter: compatible with every holder and every older waiter (R273 step 2). -/
def Lkm.reqGrantable (k : Lkm) (n : LockName) (age : Nat × Nat) (cls mode : Nat) : Bool :=
  k.escGrantable n age cls mode &&
    k.ents.all fun e => !(e.name == n && older e.age age) || (match e.want with | some m => k.compat cls mode m | none => true)

/-- An entry replaced, by object and identity. -/
def Lkm.upd (k : Lkm) (e : LkEntry) : Lkm :=
  { k with ents := k.ents.map fun x => if x.name == e.name && x.age == e.age then e else x }

/-- The HELD field of a status (R282). -/
def Lkm.heldField (k : Lkm) (n : LockName) (age : Nat × Nat) (mode : Nat) (qry : Bool) : Nat :=
  let own := k.heldBy n age
  if own ≠ 0 then own
  else
    let ms := (n.ancestors.map fun a => k.heldBy a age).filter (· != 0)
    match (if qry then none else ms.find? fun m => modeSubsumes m mode) with
    | some m => m
    | none => ms.headD 0

/-- The status word of R282. -/
def Lkm.status (k : Lkm) (st : Nat) (n : LockName) (age : Nat × Nat) (mode : Nat) (qry : Bool) : Word :=
  let wnd := ((k.entry? n age).map fun e => e.held != 0 && e.wounded).getD false
  let on := k.ents.filter fun e => e.name == n
  let nh := if qry then min 255 (on.filter fun e => e.held != 0).length else 0
  let nw := if qry then min 255 (on.filter fun e => e.want.isSome).length else 0
  let leas := qry && ((k.entry? n age).map fun e => e.lease.isSome).getD false
  BitVec.ofNat 64 (st + 16 * k.heldField n age mode qry + 128 * wnd.toNat + 256 * nh + 65536 * nw + 16777216 * leas.toNat)

/-- Whether a WOUND has been delivered to an identity and `lkrel all` not yet performed for it (R275). -/
def State.woundedId (s : State) (age : Nat × Nat) : Bool := s.ctxs.any fun (e : Nat × Ctx) => e.2.wnd && s.lkId e.1 == age

/-- The record of a delivered wound set or cleared in every context of an identity (R275). -/
def State.setWounded (s : State) (age : Nat × Nat) (b : Bool) : State :=
  { s with ctxs := s.ctxs.map fun (e : Nat × Ctx) => (e.1, if e.2.st != .free && s.lkId e.1 == age then { e.2 with wnd := b } else e.2) }

/-- A grant-cache entry of a context filled in its core, the oldest dropped beyond 64 (R273, R279; log 20). -/
def State.fillGrant (s : State) (g : Nat) (n : LockName) (mode : Nat) : State :=
  let k := coreOf g
  let c := s.core k
  let rest := c.gcache.filter fun e => !(e.1 == g && e.2.1 == n)
  s.setCore k { c with gcache := (rest ++ [(g, n, mode)]).drop (rest.length + 1 - 64) }

/-- Grant-cache entries of the contexts of an identity removed in every core, for the objects that `p` names (R279). -/
def State.dropGrants (s : State) (age : Nat × Nat) (p : LockName → Bool) : State :=
  { s with cores := s.cores.map fun kc => (kc.1, { kc.2 with gcache := kc.2.gcache.filter fun e => !(s.lkId e.1 == age && p e.2.1) }) }

/-- Every grant-cache entry of a context removed: it leaves its core (R279). -/
def State.dropGcid (s : State) (g : Nat) : State :=
  let k := s.core (coreOf g)
  s.setCore (coreOf g) { k with gcache := k.gcache.filter fun e => e.1 != g }

/-- A waiting entry becomes a grant: the mode is held, a line conversion drops the lines with their grant-cache entries, the
lease of a mode that is no longer INC stops, and the grant cache is filled unless the grant is WOUNDED (R273, R276, R277). -/
def State.lkGrant (s : State) (i : Nat) (e : LkEntry) (mode : Nat) : State :=
  let k := s.lkm i
  let inc := mode == 6
  let e' := { e with held := mode, want := none, conv := false, lease := if inc then e.lease else none, asked := inc && e.asked }
  let k1 := k.upd e'
  let isLine (n : LockName) : Bool := n.level == 2 && n.under e.name
  let s1 := if e.conv then
      (s.dropGrants e.age isLine).setLkm i { k1 with ents := k1.ents.filter fun x => !(x.age == e.age && isLine x.name) }
    else s.setLkm i k1
  if e.wounded then s1 else s1.fillGrant e.g e.name mode

/-- One pass of a scan over the waiters of an object, escalations first, in age order (R273). -/
def State.lkPass (s : State) (i : Nat) (n : LockName) : List LkEntry → State × List LkEff
  | [] => (s, [])
  | e :: r =>
    let k := s.lkm i
    let m := e.want.getD 0
    let ok := if e.held ≠ 0 then k.escGrantable n e.age e.cls m else k.reqGrantable n e.age e.cls m
    if ok then
      let s1 := s.lkGrant i e m
      let st := (s1.lkm i).status 0 n e.age m false
      let (s2, fs) := s1.lkPass i n r
      (s2, .wake e.g n st :: fs)
    else s.lkPass i n r

/-- Whether the task of an identity is parked on a request of its own to some lock manager (R275). -/
def State.lkParked (s : State) (age : Nat × Nat) : Bool :=
  s.ctxs.any fun (e : Nat × Ctx) => e.2.st == .parked && s.lkId e.1 == age && match e.2.wait with | some (.lock _ _, _, _) => true | _ => false

/-- Holders that a waiting request wounds: younger, incompatible, not INC, not ENDING, and either S, SIX or X, or an
intention whose task is parked on a request of its own (R275); of two escalations in conflict the younger too (R274). -/
def State.lkVictims (s : State) (i : Nat) (n : LockName) : List Nat :=
  let k := s.lkm i
  let on := k.ents.filter fun e => e.name == n
  ((on.filter fun w => w.want.isSome).flatMap fun w =>
    (on.filter fun h => h.held != 0 && h.age != w.age && older w.age h.age && !h.wounded &&
        !(k.compat w.cls (w.want.getD 0) h.held) && h.held != 6 && (s.ctx h.g).st != .ending &&
        (h.held == 4 || h.held == 5 || h.held == 7 || s.lkParked h.age || (w.held != 0 && h.want.isSome))).map (·.g)).eraseDups

/-- The leases of INC holders that a waiting request finds incompatible for the first time: each runs for the LEASE of that
moment, and with 0 it never starts (R276). -/
def State.lkLeases (s : State) (i : Nat) (n : LockName) : State :=
  let k := s.lkm i
  let dur := k.lease.toNat % 2 ^ 32
  let ws := k.ents.filter fun e => e.name == n && e.want.isSome
  let es := k.ents.map fun h =>
    if h.name == n && h.held == 6 && !h.asked && ws.any (fun w => w.age != h.age && !(k.compat w.cls (w.want.getD 0) 6)) then
      { h with lease := if dur = 0 then none else some (s.now + dur), asked := true } else h
  s.setLkm i { k with ents := es }

/-- Younger INC escalators that conflict with an older escalator: cancelled with status 3 (R274). -/
def State.lkCancel (s : State) (i : Nat) (n : LockName) : State × List LkEff :=
  let k := s.lkm i
  let es := k.ents.filter fun e => e.name == n && e.held != 0 && e.want.isSome
  let bad := es.filter fun y => y.held == 6 && es.any fun o =>
    older o.age y.age && !(k.compat o.cls (o.want.getD 0) y.held) && !(k.compat y.cls (y.want.getD 0) o.held)
  let es' := k.ents.map fun e =>
    if bad.any (fun y => y.age == e.age) && e.name == n then { e with want := none, conv := false } else e
  let s1 := s.setLkm i { k with ents := es' }
  (s1, bad.map fun y => .wake y.g n ((s1.lkm i).status 3 n y.age (y.want.getD 0) false))

/-- A scan of one object (R273 to R276). -/
def State.lkScanOne (s : State) (i : Nat) (n : LockName) : State × List LkEff :=
  let (s0, f0) := s.lkCancel i n
  let ws := byAge ((s0.lkm i).ents.filter fun e => e.name == n && e.want.isSome)
  let (s1, f1) := s0.lkPass i n ((ws.filter fun e => e.held != 0) ++ ws.filter fun e => e.held == 0)
  let s2 := s1.lkLeases i n
  (s2, f0 ++ f1 ++ (s2.lkVictims i n).map LkEff.wound)

/-- Scans of several objects, none of which gives up others. -/
def State.lkScansOf (s : State) (i : Nat) : List LockName → State × List LkEff
  | [] => (s, [])
  | n :: r =>
    let (s1, f1) := s.lkScanOne i n
    let (s2, f2) := s1.lkScansOf i r
    (s2, f1 ++ f2)

/-- The line objects that a conversion has released since `k` (R277). -/
def Lkm.freedLines (k k' : Lkm) : List LockName :=
  ((k.ents.filter fun e => e.name.level == 2 && e.held != 0 && (k'.entry? e.name e.age).isNone).map (·.name)).eraseDups

/-- A scan of an object, and of the lines that a conversion granted by it releases (R273 to R277). -/
def State.lkScan (s : State) (i : Nat) (n : LockName) : State × List LkEff :=
  let (s1, f1) := s.lkScanOne i n
  let (s2, f2) := s1.lkScansOf i ((s.lkm i).freedLines (s1.lkm i))
  (s2, f1 ++ f2)

/-- Scans of several objects. -/
def State.lkScans (s : State) (i : Nat) : List LockName → State × List LkEff
  | [] => (s, [])
  | n :: r =>
    let (s1, f1) := s.lkScan i n
    let (s2, f2) := s1.lkScans i r
    (s2, f1 ++ f2)

/-- The compatibility matrix of a class written, and every object scanned (13 R270, R273). -/
def State.lkMatrix (s : State) (i cls : Nat) (w : Word) : State × List LkEff :=
  let k := s.lkm i
  (s.setLkm i { k with cm := vset k.cm cls w }).lkScans i (k.ents.map (·.name)).eraseDups

/-- How a request ends: with a status at once, or queued. -/
inductive LkAns where
  /-- Status word. -/
  | status (w : Word)
  /-- The request waits for an object. -/
  | queued (n : LockName)
  deriving DecidableEq, Repr

/-- The line grants an identity holds in the tile of a line (R277). -/
def Lkm.linesIn (k : Lkm) (n : LockName) (age : Nat × Nat) : List LkEntry :=
  k.ents.filter fun e => e.age == age && e.held != 0 && e.name.level == 2 && e.name.asid == n.asid &&
    e.name.tid == n.tid && e.name.obj / 512 == n.obj / 512

/-- An entry enters the queue and the object is scanned. -/
def State.lkQueue (s : State) (i : Nat) (k : Lkm) (n : LockName) : State × LkAns × List LkEff :=
  let (s1, fs) := (s.setLkm i k).lkScan i n
  (s1, .queued n, fs)

/-- A request at its home LKM (R283). `op` is 0 LKREQ, 1 LKTRY, 2 LKESC, 5 LKQRY. -/
def State.lkRequest (s : State) (g op : Nat) (n : LockName) (mode : Nat) : State × LkAns × List LkEff :=
  let i := lkmHome n.asid n.tid
  let k := s.lkm i
  let age := s.lkId g
  let cls := (s.ctx g).al.lkcls
  let cur := k.heldBy n age
  let ancs := (n.ancestors.map fun a => k.heldBy a age).filter (· != 0)
  let ans (st : Nat) : State × LkAns × List LkEff := (s, .status (k.status st n age mode (op == 5)), [])
  let wnd := s.woundedId age
  if op = 5 then ans (if cur = 0 && ancs == [] then 5 else 0)
  else if !modeAtLevel mode n.level then ans 6
  else if modeSubsumes cur mode || ancs.any (fun m => modeSubsumes m mode) then ans 0
  else if op = 2 then
    if cur = 0 then ans 5
    else if !escPath cur mode then ans 6
    else
      match k.entry? n age with
      | none => ans 5
      | some e =>
        if k.escGrantable n age cls mode then
          let s1 := s.lkGrant i e mode
          let (s2, fs) := s1.lkScan i n
          (s2, .status ((s1.lkm i).status 0 n age mode false), fs)
        else if cur = 6 && k.ents.any (fun o => o.name == n && o.held != 0 && o.want.isSome && older o.age age &&
            !(k.compat o.cls (o.want.getD 0) cur) && !(k.compat cls mode o.held)) then ans 3
        else s.lkQueue i (k.upd { e with want := some mode, g := g, cls := cls }) n
  else if cur ≠ 0 then ans 6
  else if !(n.ancestors.all fun a => intends (k.heldBy a age) mode) then ans 2
  else
    let lines := k.linesIn n age
    if n.level = 2 && 64 ≤ lines.length then
      -- the 65th line of a tile becomes a tile request, an escalation of the tile intention (R277)
      let tile := lockTile n.asid n.tid (n.obj / 512)
      let m := if mode = 4 && lines.all (fun e => e.held == 4) then 4
        else if mode = 6 && lines.all (fun e => e.held == 6) then 6 else 7
      if !intends (k.heldBy (lockTensor n.asid n.tid) age) m then ans 2
      else
        match k.entry? tile age with
        | none => ans 2
        | some e =>
          let e' := { e with want := some m, conv := true, g := g, cls := cls }
          if k.escGrantable tile age cls m then
            let s1 := (s.setLkm i (k.upd e')).lkGrant i e' m
            let (s2, fs) := s1.lkScans i (tile :: lines.map (·.name))
            (s2, .status ((s1.lkm i).status 0 tile age m false), fs)
          else if op = 1 then ans 1
          else s.lkQueue i (k.upd e') tile
    else if 65536 ≤ k.ents.length then ans 4
    else
      let e : LkEntry := ⟨n, age, g, 0, some mode, cls, wnd, none, false, false⟩
      if k.reqGrantable n age cls mode then
        let s1 := (s.setLkm i { k with ents := k.ents ++ [e] }).lkGrant i e mode
        let (s2, fs) := s1.lkScan i n
        (s2, .status ((s1.lkm i).status 0 n age mode false), fs)
      else if op = 1 then ans 1
      else s.lkQueue i { k with ents := k.ents ++ [e] } n

/-- The intentions that the grants an identity holds below an object still need (R271). -/
def Lkm.descendantsOk (k : Lkm) (n : LockName) (age : Nat × Nat) (mode : Nat) : Bool :=
  k.ents.all fun e => !(e.age == age && e.held != 0 && e.name != n && e.name.under n) || intends mode e.held

/-- LKDWN performed at the home (R284): whether it succeeds. -/
def State.lkDowngrade (s : State) (g : Nat) (n : LockName) (mode : Nat) : State × Bool × List LkEff :=
  let i := lkmHome n.asid n.tid
  let k := s.lkm i
  let age := s.lkId g
  match k.entry? n age with
  | none => (s, false, [])
  | some e =>
    if e.held = 0 || mode = 0 || mode = e.held || !modeSubsumes e.held mode || !modeAtLevel mode n.level ||
        !k.descendantsOk n age mode then (s, false, [])
    else
      let s0 := s.dropGrants age (· == n)
      let s1 := s0.setLkm i (k.upd { e with held := mode, lease := if mode = 6 then e.lease else none, asked := mode == 6 && e.asked })
      let s2 := if e.wounded then s1 else s1.fillGrant g n mode
      let (s3, fs) := s2.lkScan i n
      (s3, true, fs)

/-- LKREL of one lock performed at the home: the grant and every grant below it go (R284). -/
def State.lkRelease (s : State) (g : Nat) (n : LockName) : State × Bool × List LkEff :=
  let i := lkmHome n.asid n.tid
  let k := s.lkm i
  let age := s.lkId g
  if k.heldBy n age = 0 then (s, false, [])
  else
    let gone := k.ents.filter fun e => e.age == age && e.held != 0 && e.name.under n
    let s1 := (s.dropGrants age (·.under n)).setLkm i
      { k with ents := k.ents.filter fun e => !(e.age == age && e.held != 0 && e.name.under n) }
    let (s2, fs) := s1.lkScans i (gone.map (·.name))
    (s2, true, fs)

/-- `lkrel all` at the managers of a list: every grant and waiting request of an identity goes (R284). -/
def State.lkReleaseAllAt (s : State) (age : Nat × Nat) : List Nat → State × List LkEff
  | [] => (s, [])
  | i :: r =>
    let k := s.lkm i
    let gone := (k.ents.filter fun e => e.age == age).map (·.name)
    let s1 := if gone = [] then s else s.setLkm i { k with ents := k.ents.filter fun e => e.age != age }
    let (s2, f2) := s1.lkScans i gone
    let (s3, f3) := s2.lkReleaseAllAt age r
    (s3, f2 ++ f3)

/-- `lkrel all` of an identity (R284). -/
def State.lkReleaseAll (s : State) (age : Nat × Nat) : State × List LkEff :=
  ((s.dropGrants age fun _ => true).setWounded age false).lkReleaseAllAt age (List.range 8)

/-- Delivery of a wound: every grant and waiting request of the identity is WOUNDED, and its grant-cache entries go; the
objects are scanned (R273, R275). -/
def State.lkWounded (s : State) (age : Nat × Nat) : State × List LkEff :=
  let s1 := (s.dropGrants age fun _ => true).setWounded age true
  let mark (es : List LkEntry) : List LkEntry := es.map fun e => if e.age == age then { e with wounded := true } else e
  let s2 := { s1 with lkms := s1.lkms.map fun kc => (kc.1, { kc.2 with ents := mark kc.2.ents }) }
  (List.range 8).foldl (fun (r : State × List LkEff) i =>
    let q := r.1.lkScans i ((((s2.lkm i).ents.filter fun e => e.age == age).map (·.name)).eraseDups)
    (q.1, r.2 ++ q.2)) (s2, [])

/-- A lease that has run out: the grant is revoked and the object scanned (R276). -/
def State.lkLeaseOut (s : State) (i : Nat) (e : LkEntry) : State × List LkEff :=
  let k := s.lkm i
  let s1 := (s.dropGrants e.age (· == e.name)).setLkm i
    { k with ents := k.ents.filter fun x => !(x.name == e.name && x.age == e.age) }
  let (s2, fs) := s1.lkScan i e.name
  (s2, .lease e.g :: fs)

end Sys2Proof.Machine
end

