-- ==== Sys2Proof/Machine/Float.lean ====
section
/-! DEFINITION. Floating-point formats, exact values and the one rounding of RoundFP (02 R46; 08 R153 to R158). -/

namespace Sys2Proof.Machine

/-- The floating-point formats (08 R153). -/
inductive Fmt where
  /-- FP64. -/
  | f64
  /-- FP32. -/
  | f32
  /-- FP16. -/
  | f16
  /-- BF16. -/
  | bf16
  /-- FP8 E4M3. -/
  | e4m3
  deriving DecidableEq, Repr

/-- Width in bits. -/
def Fmt.width : Fmt → Nat
  | .f64 => 64
  | .f32 => 32
  | .f16 => 16
  | .bf16 => 16
  | .e4m3 => 8

/-- Stored fraction bits. -/
def Fmt.frac : Fmt → Nat
  | .f64 => 52
  | .f32 => 23
  | .f16 => 10
  | .bf16 => 7
  | .e4m3 => 3

/-- Exponent bits. -/
def Fmt.expBits : Fmt → Nat
  | .f64 => 11
  | .f32 => 8
  | .f16 => 5
  | .bf16 => 8
  | .e4m3 => 4

/-- Exponent bias. -/
def Fmt.bias : Fmt → Nat
  | .f64 => 1023
  | .f32 => 127
  | .f16 => 15
  | .bf16 => 127
  | .e4m3 => 7

/-- The canonical NaN (08 R154). -/
def Fmt.nan : Fmt → Nat
  | .f64 => 0x7FF8000000000000
  | .f32 => 0x7FC00000
  | .f16 => 0x7E00
  | .bf16 => 0x7FC0
  | .e4m3 => 0x7F

/-- The pattern of the largest finite magnitude (08 R154). -/
def Fmt.maxBits : Fmt → Nat
  | .f64 => 0x7FEFFFFFFFFFFFFF
  | .f32 => 0x7F7FFFFF
  | .f16 => 0x7BFF
  | .bf16 => 0x7F7F
  | .e4m3 => 0x7E

/-- A floating-point value: NaN, an infinity, or (-1)^neg * m * 2^e. -/
inductive FVal where
  /-- NaN. -/
  | nan
  /-- An infinity of a sign. -/
  | inf (neg : Bool)
  /-- A finite value; m = 0 is a zero of its sign. -/
  | num (neg : Bool) (m : Nat) (e : Int)
  deriving DecidableEq, Repr

/-- The value of a pattern (08 R153); BF16 reads an exponent field of 0 as a zero (R155). -/
def Fmt.decode (f : Fmt) (x : Nat) : FVal :=
  let neg := bits x (f.width - 1) 1 == 1
  let ex := bits x f.frac f.expBits
  let fr := bits x 0 f.frac
  let e1 : Int := (ex : Int) - f.bias - f.frac
  let top := 2 ^ f.expBits - 1
  if f = .e4m3 && ex = top then (if fr = 7 then .nan else .num neg (8 + fr) e1)
  else if f ≠ .e4m3 && ex = top then (if fr = 0 then .inf neg else .nan)
  else if ex = 0 then (if f = .bf16 then .num neg 0 0 else .num neg fr (1 - (f.bias : Int) - f.frac))
  else .num neg (2 ^ f.frac + fr) e1

/-- The rounding modes (02 R46). -/
inductive RMode where
  /-- Nearest, ties to even. -/
  | rne
  /-- Toward zero. -/
  | rtz
  /-- Toward plus infinity. -/
  | rup
  /-- Toward minus infinity. -/
  | rdn
  deriving DecidableEq, Repr

/-- The mode of a VRND or RM code counted from 0 (02 R41). -/
def RMode.ofCode (n : Nat) : RMode :=
  match n with
  | 0 => .rne
  | 1 => .rtz
  | 2 => .rup
  | _ => .rdn

/-- VFLG bits (08 R158). -/
def flagNV : Nat := 1
/-- Division by zero. -/
def flagDZ : Nat := 2
/-- Overflow. -/
def flagOF : Nat := 4
/-- Underflow. -/
def flagUF : Nat := 8
/-- Inexact. -/
def flagNX : Nat := 16
/-- An event of kind SAT. -/
def flagSAT : Nat := 32
/-- A conversion to zero. -/
def flagFL : Nat := 64
/-- Level crossing. -/
def flagLXC : Nat := 128
/-- Level-index ceiling. -/
def flagCEIL : Nat := 256

/-- Whether a magnitude between `n` and `n + 1` units goes up: `odd` n, the comparison of the remainder with one
half (0 exact, 1 below, 2 at, 3 above). -/
def roundUp (mode : RMode) (neg odd : Bool) (cmp : Nat) : Bool :=
  match mode with
  | .rne => cmp == 3 || (cmp == 2 && odd)
  | .rtz => false
  | .rup => cmp != 0 && !neg
  | .rdn => cmp != 0 && neg

/-- m * 2^e, plus a part below one unit of m when `st`, rounded to a multiple of 2^q: the multiple, and whether it
is inexact. -/
def roundAt (mode : RMode) (neg : Bool) (m : Nat) (e : Int) (st : Bool) (q : Int) : Nat × Bool :=
  let sh := q - e
  if sh ≤ 0 then
    let n := m * 2 ^ (-sh).toNat
    let cmp := if st then 1 else 0
    ((if roundUp mode neg (n % 2 == 1) cmp then n + 1 else n), st)
  else
    let k := sh.toNat
    let n := m / 2 ^ k
    let r := m % 2 ^ k
    let h := 2 ^ (k - 1)
    let cmp := if r = 0 then (if st then 1 else 0) else if r < h then 1 else if r = h then (if st then 3 else 2) else 3
    ((if roundUp mode neg (n % 2 == 1) cmp then n + 1 else n), cmp != 0)

/-- The largest finite value of a format as m * 2^e. -/
def Fmt.maxVal (f : Fmt) : Nat × Int :=
  match f.decode f.maxBits with
  | .num _ m e => (m, e)
  | _ => (0, 0)

/-- Comparison a * 2^x < b * 2^y of magnitudes. -/
def magLt (a : Nat) (x : Int) (b : Nat) (y : Int) : Bool :=
  if x ≤ y then decide (a < b * 2 ^ (y - x).toNat) else decide (a * 2 ^ (x - y).toNat < b)

/-- The pattern of n * 2^q, where n has at most frac + 1 bits and q is the unit of its place in the format. -/
def Fmt.pack (f : Fmt) (neg : Bool) (n : Nat) (q : Int) : Nat :=
  let sgn := if neg then 2 ^ (f.width - 1) else 0
  let (n, q) := if n = 2 ^ (f.frac + 1) then (2 ^ f.frac, q + 1) else (n, q)
  if n < 2 ^ f.frac then sgn + n
  else sgn + ((q + f.frac + f.bias).toNat * 2 ^ f.frac) + (n - 2 ^ f.frac)

/-- The result of a value that overflows (02 R46). -/
def Fmt.overflow (f : Fmt) (mode : RMode) (neg : Bool) : Nat :=
  let sgn := if neg then 2 ^ (f.width - 1) else 0
  let toInf := match mode with
    | .rne => true
    | .rtz => false
    | .rup => !neg
    | .rdn => neg
  if f = .e4m3 then sgn + f.maxBits
  else if toInf then sgn + (2 ^ f.expBits - 1) * 2 ^ f.frac else sgn + f.maxBits

/-- RoundFP of a nonzero magnitude m * 2^e, plus a part below one unit when `st` (02 R46): pattern and VFLG bits. With
`st`, m must have more bits than the format. -/
def Fmt.roundMag (f : Fmt) (mode : RMode) (neg : Bool) (m : Nat) (e : Int) (st : Bool) : Nat × Nat :=
  if m = 0 then ((if neg then 2 ^ (f.width - 1) else 0), 0)
  else
    let top : Int := e + Nat.log2 m
    let emin : Int := 1 - (f.bias : Int)
    let qFree : Int := top - f.frac
    let qMin : Int := emin - f.frac
    let q := if f = .bf16 then qFree else max qFree qMin
    let (n, nx) := roundAt mode neg m e st q
    let (n0, _) := roundAt mode neg m e st qFree
    let tiny := magLt n0 qFree 1 emin
    let (mm, me) := f.maxVal
    if magLt mm me n q then (f.overflow mode neg, flagOF + flagNX)
    else if f = .bf16 && tiny then ((if neg then 2 ^ 15 else 0), flagUF + flagNX)
    else (f.pack neg n q, (if nx then flagNX else 0) + (if nx && tiny then flagUF else 0))

/-- A zero of a sign in a format. -/
def Fmt.zero (f : Fmt) (neg : Bool) : Nat := if neg then 2 ^ (f.width - 1) else 0

/-- An infinity of a sign; ±448 in E4M3, which has none. -/
def Fmt.infPat (f : Fmt) (neg : Bool) : Nat :=
  f.zero neg + (if f = .e4m3 then f.maxBits else (2 ^ f.expBits - 1) * 2 ^ f.frac)

/-- A signed dyadic number m * 2^e. -/
structure Dy where
  /-- Signed significand. -/
  m : Int
  /-- Exponent of two. -/
  e : Int
  deriving DecidableEq, Repr

/-- The sum of two dyadic numbers, exact. -/
def Dy.add (x y : Dy) : Dy :=
  if x.e ≤ y.e then ⟨x.m + y.m * 2 ^ (y.e - x.e).toNat, x.e⟩ else ⟨x.m * 2 ^ (x.e - y.e).toNat + y.m, y.e⟩

/-- The product of two dyadic numbers, exact. -/
def Dy.mul (x y : Dy) : Dy := ⟨x.m * y.m, x.e + y.e⟩

/-- The negation. -/
def Dy.neg (x : Dy) : Dy := ⟨-x.m, x.e⟩

/-- The magnitude. -/
def Dy.abs (x : Dy) : Dy := ⟨x.m.natAbs, x.e⟩

/-- The exact sum of a list. -/
def Dy.sum (l : List Dy) : Dy := l.foldl Dy.add ⟨0, 0⟩

/-- Whether x < y. -/
def Dy.lt (x y : Dy) : Bool := decide ((x.add y.neg).m < 0)

/-- A finite value as a dyadic number; zero for the others. -/
def FVal.dy : FVal → Dy
  | .num neg m e => ⟨if neg then -(m : Int) else m, e⟩
  | _ => ⟨0, 0⟩

/-- RoundFP of a dyadic number; an exact zero is +0, or −0 under RDN when `sum` (02 R46). -/
def Fmt.roundDy (f : Fmt) (mode : RMode) (x : Dy) : Nat × Nat :=
  if x.m = 0 then (f.zero false, 0) else f.roundMag mode (decide (x.m < 0)) x.m.natAbs x.e false

/-- The sign of the exact zero of a sum (02 R46). -/
def zeroSum (mode : RMode) (a b : Bool) : Bool := if a = b then a else mode == .rdn

/-- Sum of two values rounded once, with the flag of an invalid operation (02 R46). -/
def Fmt.addV (f : Fmt) (mode : RMode) (x y : FVal) : Nat × Nat :=
  match x, y with
  | .nan, _ => (f.nan, 0)
  | _, .nan => (f.nan, 0)
  | .inf a, .inf b => if a = b then (f.infPat a, 0) else (f.nan, flagNV)
  | .inf a, _ => (f.infPat a, 0)
  | _, .inf b => (f.infPat b, 0)
  | .num a m e, .num b n g =>
    let d := (FVal.num a m e).dy.add (FVal.num b n g).dy
    if d.m = 0 then (f.zero (if m = 0 && n = 0 then zeroSum mode a b else mode == .rdn), 0) else f.roundDy mode d

/-- The product of two values, exact, with the flag of an invalid operation. -/
def mulV (x y : FVal) : FVal × Nat :=
  match x, y with
  | .nan, _ => (.nan, 0)
  | _, .nan => (.nan, 0)
  | .inf a, .inf b => (.inf (a != b), 0)
  | .inf a, .num b n _ => if n = 0 then (.nan, flagNV) else (.inf (a != b), 0)
  | .num a m _, .inf b => if m = 0 then (.nan, flagNV) else (.inf (a != b), 0)
  | .num a m e, .num b n g => (.num (a != b) (m * n) (e + g), 0)

/-- A value rounded into a format. -/
def Fmt.ofV (f : Fmt) (mode : RMode) (x : FVal) : Nat × Nat :=
  match x with
  | .nan => (f.nan, 0)
  | .inf a => (f.infPat a, 0)
  | .num a m e => f.roundMag mode a m e false

/-- RNE32 of a dyadic number (02 R46). -/
def rne32 (x : Dy) : Nat := (Fmt.f32.roundDy .rne x).1

/-- The FP32 value of a pattern. -/
def val32 (x : Nat) : FVal := Fmt.f32.decode x

/-- Sum of two FP32 patterns, RNE (10 R205). -/
def add32 (x y : Nat) : Nat := (Fmt.f32.addV .rne (val32 x) (val32 y)).1

/-- Product of two FP32 patterns, RNE. -/
def mul32 (x y : Nat) : Nat := (Fmt.f32.ofV .rne (mulV (val32 x) (val32 y)).1).1

/-- Whether an FP32 pattern is a NaN or an infinity. -/
def nonFinite32 (x : Nat) : Bool := bits x 23 8 == 255

/-- An integer square root by its bits, the highest first: `r` is the root so far. -/
def isqrtGo (x : Nat) : Nat → Nat → Nat
  | 0, r => r
  | k + 1, r => let c := r + 2 ^ k; isqrtGo x k (if c * c ≤ x then c else r)

/-- ⌊√x⌋. -/
def isqrt (x : Nat) : Nat := isqrtGo x (Nat.log2 x / 2 + 1) 0

end Sys2Proof.Machine
end

