-- ==== Sys2Proof/Machine/Transcend.lean ====
section
/-! DEFINITION. exp, ln and tanh to any precision by fixed-point intervals, and their correctly rounded results (08
R164, 09 R182). Each routine answers bounds below and above the true value; a result is taken when both bounds round
alike, else the precision grows. -/

namespace Sys2Proof.Machine

/-- Terms of 2 * atanh z for z = p / q < 1 at `w` bits: `pw` is z^(2k+1) in units of 2^-w, `z2n` and `z2d` give z^2. -/
def atanhGo (z2 w : Nat) : Nat → Nat → Nat → Nat → Nat
  | 0, _, _, acc => acc
  | n + 1, k, pw, acc => if pw = 0 then acc else atanhGo z2 w n (k + 1) (pw * z2 / 2 ^ w) (acc + 2 * (pw / (2 * k + 1)))

/-- 2 * atanh z in units of 2^-w, for z in units of 2^-w with z at most 1/3 or so. -/
def atanh2 (z w : Nat) : Nat := atanhGo (z * z / 2 ^ w) w (w + 8) 0 z 0

/-- ln 2 in units of 2^-w, below the true value by less than 2^16 units. -/
def ln2 (w : Nat) : Nat := atanh2 (2 ^ w / 3) w

/-- Taylor terms of exp r - 1 in units of 2^-w. -/
def expGo (r w : Nat) : Nat → Nat → Nat → Nat → Nat
  | 0, _, _, acc => acc
  | n + 1, k, t, acc => let t' := t * r / 2 ^ w / k; if t' = 0 then acc else expGo r w n (k + 1) t' (acc + t')

/-- Slack that covers every truncation of the series: far more units than the operations made. -/
def slack : Nat := 2 ^ 24

/-- Bounds of exp x as lo * 2^e and hi * 2^e, for |x| < 2^12 (x = m * 2^e). -/
def expIv (w : Nat) (x : Dy) : Nat × Nat × Int :=
  let xf : Int := if 0 ≤ x.e + w then x.m * 2 ^ (x.e + w).toNat else x.m / 2 ^ (-(x.e + w)).toNat
  let l : Int := ln2 w
  let k : Int := xf / l
  let r : Nat := (xf - k * l).toNat
  let v := 2 ^ w + expGo r w (w + 8) 1 (2 ^ w) 0
  (v - slack * 2 ^ 14, v + slack * 2 ^ 14, k - w)

/-- Bounds of ln x as lo * 2^-w and hi * 2^-w, for x = m * 2^e > 0. -/
def lnIv (w : Nat) (m : Nat) (e : Int) : Int × Int :=
  let b := Nat.log2 m
  let mf := if b ≤ w then m * 2 ^ (w - b) else m / 2 ^ (b - w)
  let z := (mf - 2 ^ w) * 2 ^ w / (mf + 2 ^ w)
  let v : Int := (e + b) * ln2 w + atanh2 z w
  (v - slack * 2 ^ 14, v + slack * 2 ^ 14)

/-- A positive or negative interval lo * 2^e to hi * 2^e rounded, when both ends agree. -/
def Fmt.roundIv (f : Fmt) (mode : RMode) (lo hi e : Int) : Option (Nat × Nat) :=
  if 0 < lo then
    let a := f.roundMag mode false lo.natAbs e true
    if a = f.roundMag mode false hi.natAbs e true then some a else none
  else if hi < 0 then
    let a := f.roundMag mode true hi.natAbs e true
    if a = f.roundMag mode true lo.natAbs e true then some a else none
  else none

/-- The first precision of a list at which both bounds round alike. -/
def firstIv (g : Nat → Option (Nat × Nat)) : List Nat → Nat × Nat
  | [] => (0, 0)
  | w :: r => match g w with
    | some a => a
    | none => firstIv g r

/-- Precisions tried, in bits. -/
def precisions : List Nat := [192, 320, 640, 1280]

/-- exp of a nonzero finite value, rounded. -/
def Fmt.expR (f : Fmt) (mode : RMode) (x : Dy) : Nat × Nat :=
  if magLt 4096 0 x.m.natAbs x.e || (x.m.natAbs = 4096 && x.e = 0) then
    (if 0 < x.m then f.roundMag mode false 1 5000 false else f.roundMag mode false (2 ^ 80) (-5000) true)
  else if magLt x.m.natAbs x.e 1 (-100) then
    -- exp x lies between 1 and 1 ± 2^-99
    (if 0 < x.m then f.roundMag mode false (2 ^ 90) (-90) true else f.roundMag mode false (2 ^ 90 - 1) (-90) true)
  else firstIv (fun w => let (lo, hi, e) := expIv w x; f.roundIv mode lo hi e) precisions

/-- ln of a positive finite value other than 1, rounded. -/
def Fmt.lnR (f : Fmt) (mode : RMode) (m : Nat) (e : Int) : Nat × Nat :=
  firstIv (fun w => let (lo, hi) := lnIv w m e; f.roundIv mode lo hi (-(w : Int))) precisions

/-- tanh of a nonzero finite value, rounded: (E - 1) / (E + 1) for E = exp 2|x|. -/
def Fmt.tanhR (f : Fmt) (mode : RMode) (x : Dy) : Nat × Nat :=
  let neg := decide (x.m < 0)
  let m := x.m.natAbs
  if magLt m x.e 1 (-60) then
    -- just below |x|
    f.roundMag mode neg (m * 2 ^ 70 - 1) (x.e - 70) true
  else if magLt 64 0 m x.e then f.roundMag mode neg (2 ^ 90 - 1) (-90) true
  else
    firstIv (fun w =>
      let (lo, hi, e) := expIv w ⟨m, x.e + 1⟩
      -- E as lo * 2^e; scale so that one is 2^(-e)
      let one : Nat := 2 ^ (-e).toNat
      let lo' := if 0 ≤ e then lo * 2 ^ e.toNat else lo
      let hi' := if 0 ≤ e then hi * 2 ^ e.toNat else hi
      let a := (lo' - one) * 2 ^ w / (lo' + one)
      let b := (hi' - one) * 2 ^ w / (hi' + one) + 1
      if a = 0 then none
      else
        let r := f.roundMag mode neg a (-(w : Int)) true
        if r = f.roundMag mode neg b (-(w : Int)) true then some r else none) precisions

end Sys2Proof.Machine
end

