-- ==== Sys2Proof/Machine/Convert.lean ====
section
/-! DEFINITION. Conversions between formats with their flags and exception events (08 R158, R159, R166, R167). -/

namespace Sys2Proof.Machine

/-- What one element gives: its pattern, VFLG bits, and the kinds of exception counted: 0 SAT, 1 FLUSH, 2 NAN, 3
CEIL. -/
structure El where
  /-- Result pattern. -/
  x : Nat
  /-- VFLG bits. -/
  flags : Nat
  /-- Exceptions. -/
  exc : List Nat
  deriving DecidableEq, Repr

/-- A floating result with its flags: a NaN counts NAN (08 R159). -/
def elFp (f : Fmt) (r : Nat × Nat) : El := ⟨r.1, r.2, if f.decode r.1 = .nan then [2] else []⟩

/-- SatSigned (02 R45): the clamped value and whether it was clamped. -/
def satSigned (x : Int) (n : Nat) : Int × Bool :=
  let lo : Int := -(2 ^ (n - 1))
  let hi : Int := 2 ^ (n - 1) - 1
  if x < lo then (lo, true) else if hi < x then (hi, true) else (x, false)

/-- SatUnsigned (02 R45). -/
def satUnsigned (x : Int) (n : Nat) : Int × Bool :=
  if x < 0 then (0, true) else if (2 ^ n - 1 : Int) < x then (2 ^ n - 1, true) else (x, false)

/-- An integer as an `n`-bit pattern. -/
def intBits (x : Int) (n : Nat) : Nat := (x % 2 ^ n).toNat

/-- The two's-complement value of an `n`-bit pattern. -/
def toSigned (x n : Nat) : Int := if bits x (n - 1) 1 = 1 then (x : Int) - 2 ^ n else x

/-- FP to FP (08 R167). -/
def convFF (src dst : Fmt) (mode : RMode) (x : Nat) : El :=
  match src.decode x with
  | .nan => ⟨dst.nan, 0, [2]⟩
  | .inf a => if dst = .e4m3 then ⟨dst.infPat a, flagOF + flagSAT, [0]⟩ else ⟨dst.infPat a, 0, []⟩
  | .num a m e =>
    let (r, fl) := dst.roundMag mode a m e false
    let ovf := bits fl 2 1 == 1
    if dst = .e4m3 && ovf then ⟨r, fl + flagSAT, [0]⟩
    else if m ≠ 0 && r % 2 ^ (dst.width - 1) = 0 && dst.width < src.width then
      ⟨r, flagFL + flagUF + flagNX, [1]⟩
    else ⟨r, fl, []⟩

/-- A dyadic number rounded to an integer, and whether it is inexact. -/
def roundInt (mode : RMode) (neg : Bool) (m : Nat) (e : Int) : Int × Bool :=
  let (n, nx) := roundAt mode neg m e false 0
  (if neg then -(n : Int) else n, nx)

/-- FP to an integer of `n` bits (08 R167). -/
def convFI (src : Fmt) (signed : Bool) (n : Nat) (mode : RMode) (x : Nat) : El :=
  let sat (v : Int) : Int × Bool := if signed then satSigned v n else satUnsigned v n
  match src.decode x with
  | .nan => ⟨0, flagNV + flagSAT, [0]⟩
  | .inf a => ⟨intBits (sat (if a then -(2 ^ 70) else 2 ^ 70)).1 n, flagSAT, [0]⟩
  | .num a m e =>
    let (v, nx) := roundInt mode a m e
    let (w, cl) := sat v
    ⟨intBits w n, (if cl then flagSAT else 0) + (if nx then flagNX else 0), if cl then [0] else []⟩

/-- An integer to FP (08 R167); zero gives +0. -/
def convIF (v : Int) (dst : Fmt) (mode : RMode) : El :=
  let (r, fl) := dst.roundMag mode (decide (v < 0)) v.natAbs 0 false
  if dst = .e4m3 && bits fl 2 1 = 1 then ⟨r, fl + flagSAT, [0]⟩ else ⟨r, fl, []⟩

/-- Integer to integer (08 R167). -/
def convII (v : Int) (signed : Bool) (n : Nat) : El :=
  let (w, cl) := if signed then satSigned v n else satUnsigned v n
  ⟨intBits w n, if cl then flagSAT else 0, if cl then [0] else []⟩

/-- The order of the floating values for VMIN, VMAX and comparisons; −0 below +0 (08 R155). NaN compares with
nothing. -/
def fvLt (x y : FVal) : Bool :=
  match x, y with
  | .nan, _ => false
  | _, .nan => false
  | .inf a, .inf b => a && !b
  | .inf a, _ => a
  | _, .inf b => !b
  | .num a m e, .num b n g =>
    if m = 0 && n = 0 then a && !b else (FVal.num a m e).dy.lt (FVal.num b n g).dy

/-- VMIN and VMAX of two patterns: NaN if either is (08 R155, R163). -/
def fpMinMax (f : Fmt) (max : Bool) (x y : Nat) : Nat :=
  let a := f.decode x
  let b := f.decode y
  if a = .nan || b = .nan then f.nan
  else
    let pick := if (if max then fvLt a b else fvLt b a) then b else a
    (f.ofV .rne pick).1

end Sys2Proof.Machine
end

