-- ==== Sys2Proof/Machine/Device.lean ====
section
/-! DEFINITION. Memory performed at its homes, with poison and the error logs; the hotness counters; the device's own
accesses and the host records (06 R113; 17 R371, R374 to R376; 18 R380, R421; 14 R420). -/

namespace Sys2Proof.Machine

/-- Bytes put into memory at a key, with nothing else changed. -/
def State.poke (s : State) (pa : Nat) (bs : List Byte) : State := { s with mem := memWrite s.mem pa bs }

/-- The bytes at a key. -/
def State.peek (s : State) (pa n : Nat) : List Byte := memRead s.mem pa n

/-- An error-log entry (17 R374). -/
def elogEntry (kind src synd addr time gcid : Nat) : BitVec 256 :=
  BitVec.ofNat 256 (kind + 2 ^ 4 * src + 2 ^ 16 * synd + 2 ^ 64 * (addr % 2 ^ 64) + 2 ^ 128 * (time % 2 ^ 64) + 2 ^ 192 * gcid)

/-- The newest 64 entries of a log with one more. -/
def ringPush (l : List (BitVec 256)) (e : BitVec 256) : List (BitVec 256) := (l ++ [e]).drop (l.length + 1 - 64)

/-- An event logged by the unit that is the home of a key (17 R374); kinds 1 to 3 and 7 carry the syndrome. -/
def State.logError (s : State) (pa kind src gcid : Nat) : State :=
  match lspOf pa with
  | some k =>
    let c := s.core k
    let synd := if kind < 4 || kind = 7 then (Config.syndrome c.elwcL.toNat).toNat else 0
    s.setCore k { c with elogL := ringPush c.elogL (elogEntry kind src synd ((pa - 2 ^ 56) % 2 ^ 20) s.now gcid), elwcL := c.elwcL + 1 }
  | none =>
    match homeUnit pa with
    | some u =>
      let m := s.unit u
      let synd := if kind < 4 || kind = 7 then (Config.syndrome m.elwc.toNat).toNat else 0
      s.setUnit u { m with elog := ringPush m.elog (elogEntry kind src synd (pa % 2 ^ 48) s.now gcid), elwc := m.elwc + 1 }
    | none => s

/-- The aligned 8-byte words that a range touches, with whether the range covers each whole. -/
def wordsOf (pa n : Nat) : List (Nat × Bool) :=
  if n = 0 then []
  else (List.range ((pa + n - 1) / 8 - pa / 8 + 1)).map fun i =>
    let w := (pa / 8 + i) * 8
    (w, decide (pa ≤ w) && decide (w + 8 ≤ pa + n))

/-- Poison after a write of a range: whole words lose it; a partial word keeps it and the merge is logged (R113). -/
def State.mergePoison (s : State) (src gcid : Nat) : List (Nat × Bool) → State
  | [] => s
  | (w, whole) :: r =>
    let s1 :=
      if !s.poison.contains w then s
      else if whole then { s with poison := s.poison.filter (· != w) }
      else s.logError w 3 src gcid
    s1.mergePoison src gcid r

/-- The words of a range poisoned. -/
def State.poisonRange (s : State) (pa n : Nat) : State :=
  { s with poison := (wordsOf pa n).foldl (fun l w => insertNat w.1 l) s.poison }

/-- The requester code of a context's SPC (17 R375). -/
def requesterOf (g : Nat) : Nat := spcOf g

/-- The place of the lowest count of a hotness table, the first of equals. -/
def coldest (l : List (Nat × Nat × Nat)) : Nat :=
  (l.zipIdx.foldl (fun (b : Nat × Nat) e => if e.1.2.2 < b.1 then (e.1.2.2, e.2) else b) (2 ^ 16, 0)).2

/-- A key's count raised by one in a hotness table of 4,096 entries (17 R375): the table and the new count. -/
def hotBump (l : List (Nat × Nat × Nat)) (frame req : Nat) : List (Nat × Nat × Nat) × Nat :=
  match l.find? fun e => e.1 == frame && e.2.1 == req with
  | some e =>
    let n := min (2 ^ 16 - 1) (e.2.2 + 1)
    (l.map fun x => if x.1 == frame && x.2.1 == req then (frame, req, n) else x, n)
  | none => if l.length < 4096 then (l ++ [(frame, req, 1)], 1) else (l.set (coldest l) (frame, req, 1), 1)

/-- The space of a root that the device holds in a register or descriptor (18 R421). -/
def rootSpace (asid root : Nat) : Space := ⟨asid, 0, some root⟩

/-- The system space (18 R421). -/
def State.sysSpace (s : State) : Space := rootSpace (2 ^ 16) (s.msc.sysrt.toNat / 4096 * 4096)

/-- How a device access ends: the pieces of memory it names, or the kind of R420. -/
inductive Dev where
  /-- Keys and lengths in address order. -/
  | ok (ps : List (Nat × Nat))
  /-- Fails with a kind: 1 permission, 2 no translation, 3 uncorrectable. -/
  | bad (kind : Nat)
  deriving DecidableEq, Repr

/-- The first ASID of the spaces that the aperture's cached leaves are kept under (MODEL; 18 R379). -/
def apertureTag : Nat := 2 ^ 17

/-- The aperture's space, with a tag above its ASID (18 R379). -/
def State.apertureSpace (s : State) : Space :=
  rootSpace (apertureTag + bits (s.ioc 0).hapb.toNat 0 16) ((s.ioc 0).hapr.toNat / 4096 * 4096)

/-- ASID of a queue descriptor (14 R288). -/
def dAsid (d : BitVec 512) : Nat := bits d.toNat 64 16

/-- T0ROOT of a queue descriptor (14 R288). -/
def dRoot (d : BitVec 512) : Nat := bits d.toNat 384 42

/-- The space in which a queue's addresses are translated (18 R421). -/
def dSpace (d : BitVec 512) : Space := rootSpace (dAsid d) (dRoot d)

/-- The name under which the device keeps the leaf of a tile of a space: by root, or for the aperture by ASID alone (18 R379,
R421). -/
def devKey (sp : Space) (tile : Nat) : Nat × Nat × Nat := (sp.asid, if apertureTag ≤ sp.asid then 0 else sp.root.getD 0, tile)

/-- The leaf that the device uses for a tile: one it holds or the present one, freely, until TTINV (18 R379, R421; 06 R108;
log 6). -/
def State.devLeaf (s : State) (sp : Space) (tile : Nat) : Walk :=
  match s.devTlb.find? fun e => e.1 == devKey sp tile with
  | some e =>
    let w := s.walkTile 0 sp 0 tile
    if w == .poisoned || Config.freeBool s.ticks then .leaf 0 e.2 else w
  | none => s.walkTile 0 sp 0 tile

/-- One tile of a device access (18 R421). -/
def State.devTile (s : State) (sp : Space) (va n : Nat) (write : Bool) : Dev :=
  match s.devLeaf sp (va / 2 ^ 16) with
  | .absent => .bad 2
  | .malformed => .bad 1
  | .poisoned => .bad 3
  | .leaf _ w =>
    if bits w (if write then 61 else 62) 1 = 0 || bits w 57 1 = 1 || bits w 58 2 = 3 then .bad 1
    else
      let pa := leafKey w (va % 2 ^ 16)
      if !write && s.poisonedRange pa n then .bad 3 else .ok [(pa, n)]

/-- A device access of `n` bytes at a flat address (18 R421). -/
def State.devAccess (s : State) (sp : Space) (va n : Nat) (write : Bool) : Dev :=
  if va < 2 ^ 32 || 2 ^ 57 < va + n then .bad 2
  else
    match s.devTile sp va (min n (2 ^ 16 - va % 2 ^ 16)) write with
    | .bad k => .bad k
    | .ok p =>
      let rest := n - min n (2 ^ 16 - va % 2 ^ 16)
      if rest = 0 then .ok p
      else
        match s.devTile sp (va + (n - rest)) rest write with
        | .bad k => .bad k
        | .ok q => .ok (p ++ q)

/-- The bytes of pieces in order. -/
def State.peekAll (s : State) (ps : List (Nat × Nat)) : List Byte := ps.flatMap fun p => s.peek p.1 p.2

/-- The shadow frames copied from the frame of a key marked stale: it has been written since (15 R323). -/
def State.stale (s : State) (pa : Nat) : State :=
  { s with spcs := s.spcs.map fun (kc : Nat × Spc) => (kc.1, { kc.2 with shadows := kc.2.shadows.map fun f =>
      if f.orig / 2 ^ 16 == pa / 2 ^ 16 then { f with stale := true } else f }) }

/-- Bytes written over pieces in order. -/
def State.pokeAll (s : State) (g : Nat) : List (Nat × Nat) → List Byte → State
  | [], _ => s
  | (pa, n) :: r, bs => (((s.poke pa (bs.take n)).mergePoison 1 g (wordsOf pa n)).stale pa).pokeAll g r (bs.drop n)

/-- A device read: the bytes, or the kind of failure. -/
def State.devRead (s : State) (sp : Space) (va n : Nat) : Except Nat (List Byte) :=
  match s.devAccess sp va n false with
  | .ok ps => .ok (s.peekAll ps)
  | .bad k => .error k

/-- A device read of a 64-bit word. -/
def State.devWord (s : State) (sp : Space) (va : Nat) : Except Nat Nat := (s.devRead sp va 8).map leNat

/-- A device write, or the kind of failure. -/
def State.devWrite (s : State) (sp : Space) (va : Nat) (bs : List Byte) : Except Nat State :=
  match s.devAccess sp va bs.length true with
  | .ok ps => .ok (s.pokeAll 0 ps bs)
  | .bad k => .error k

/-- A host record (18 R380). -/
structure HostRec where
  /-- CAUSE. -/
  cause : Nat
  /-- CODE. -/
  code : Nat
  /-- QID. -/
  qid : Nat
  /-- GCID. -/
  gcid : Nat
  /-- ARG0. -/
  arg0 : Nat
  /-- ARG1. -/
  arg1 : Nat
  deriving DecidableEq, Repr

/-- The 32 bytes of a host record. -/
def HostRec.bytes (r : HostRec) (time : Nat) : List Byte :=
  leBytes (r.cause + 2 ^ 8 * r.code + 2 ^ 16 * r.qid + 2 ^ 32 * r.gcid) 8 ++ leBytes r.arg0 8 ++ leBytes r.arg1 8 ++
    leBytes time 8

/-- IOC `i` posts a record: written to its ring with WC raised and a message sent, or dropped and counted when the
ring is full or unwritable (18 R380, R421). -/
def State.postHost (s : State) (i : Nat) (r : HostRec) : State :=
  let c := s.ioc i
  let n := 2 ^ bits c.hirs.toNat 0 5
  let drop := s.setIoc i { c with idrop := BitVec.ofNat 64 (min (2 ^ 32 - 1) (c.idrop.toNat + 1)) }
  if (c.hiwc - c.hirc).toNat = n then drop
  else
    match s.devWrite s.sysSpace (c.hirb.toNat + 32 * (c.hiwc.toNat % n)) (r.bytes s.now) with
    | .error _ => drop
    | .ok s1 => s1.setIoc i { s1.ioc i with hiwc := c.hiwc + 1, msg := true }

/-- A notification record of a hot frame (17 R376). -/
def State.hotNotify (s : State) (u frame node req : Nat) : State :=
  let m := s.unit u
  let n := 2 ^ bits m.hnrs.toNat 0 5
  let drop := s.setUnit u { m with hndrop := BitVec.ofNat 64 (min (2 ^ 32 - 1) (m.hndrop.toNat + 1)) }
  if (m.hnwc - m.hnrc).toNat = n then drop
  else
    match s.devWrite s.sysSpace (m.hnrb.toNat + 16 * (m.hnwc.toNat % n))
        (leBytes (frame + 2 ^ 26 * node + 2 ^ 32 * req) 8 ++ leBytes s.now 8) with
    | .error _ => drop
    | .ok s1 => s1.setUnit u { s1.unit u with hnwc := m.hnwc + 1 }

/-- Whether a known leaf that names the frame of a key has M = 1 now (17 R376; log 31). -/
def State.frameMoves (s : State) (pa : Nat) : Bool :=
  s.spcs.any fun (k : Nat × Spc) => k.2.leaves.any fun a =>
    let w := s.word a
    bits w 63 1 == 1 && bits w 56 1 == 1 && leafKey w 0 == pa / 2 ^ 16 * 2 ^ 16

/-- An access performed at a CUP or LP6 controller is counted, but for one to a frame that moves, and a count that reaches TH is
notified and cleared (17 R375, R376). -/
def State.hotCount (s : State) (pa req : Nat) : State :=
  match homeUnit pa with
  | none => s
  | some u =>
    if (12 ≤ u && u < 20) || s.frameMoves pa then s
    else
      let m := s.unit u
      let th := bits m.hotcfg.toNat 0 16
      if th = 0 then s
      else
        let frame := pa % 2 ^ 48 / 2 ^ 16
        let (t, n) := hotBump m.hot frame req
        if n < th then s.setUnit u { m with hot := t }
        else
          let s1 := s.setUnit u { m with hot := t.map fun e => if e.1 == frame && e.2.1 == req then (frame, req, 0) else e }
          s1.hotNotify u frame (pa / 2 ^ 48) req

/-- The size of a unit in pseudo-channels, banks or ranks (17 R364; log 31). -/
def unitSize (u : Nat) : Nat := if u < 12 then 64 else Config.unitParts u

/-- The state of a pseudo-channel, bank or rank: 0 active (17 R365). -/
def MemUnit.state (m : MemUnit) (j : Nat) : Nat := m.ps.at 0 j

/-- The pseudo-channel, bank or rank that holds a key begins the exit from its power state (06 R119; 17 R364). -/
def State.wake (s : State) (pa : Nat) : State :=
  match homeUnit pa with
  | none => s
  | some u =>
    let m := s.unit u
    let j := Config.partOf u (pa % 2 ^ 48) % unitSize u
    if m.state j = 1 || m.state j = 2 then s.setUnit u { m with exits := insertNat j m.exits } else s

/-- The power state of the pseudo-channel, bank or rank that holds a key (17 R364). -/
def State.stateAt (s : State) (u pa : Nat) : Nat := (s.unit u).state (Config.partOf u (pa % 2 ^ 48) % unitSize u)

/-- The bank that a key lies in (17 R366; log 31). -/
def bankAt (u pa : Nat) : Nat := Config.bankOf u (pa % 2 ^ 48)

/-- The unit at which requests for a key wait: held by its temperature, in a power state whose exit is not over, or with the bank
blocked by an alert or being refreshed (17 R364, R366 to R368). -/
def State.waitsAt (s : State) (pa : Nat) : Option Nat :=
  match homeUnit pa with
  | none => none
  | some u =>
    let m := s.unit u
    if m.hold.isSome || s.stateAt u pa ≠ 0 || m.blocked.contains (bankAt u pa) || m.refr.contains (bankAt u pa) then some u else none

/-! ### Request queues -/

/-- Whether a request still waits: what made it has not gone on without it. -/
def State.waiting (s : State) (r : MemReq) : Bool :=
  match r with
  | .op g b sl => let c := s.ctx g; (c.flying ++ c.scb).any fun e => e.bundle == b && e.slot == sl
  | .read g b =>
    let c := s.ctx g
    c.st == .issuing && c.bseq == b &&
      ((match c.stall with | some (.mem _) => true | _ => false) ||
        match c.todo with | .load .. :: _ => true | .wait .. :: _ => true | _ => false)
  | .mx g b => (s.ctx g).mx.any fun o => o.eff == .held && o.req.bundle == b
  | .cmd i => (s.cmds.find? i).any (·.absent.isNone) || (s.subs.find? i).any (·.absent.isNone)

/-- Whether an entry of a queue is that of a request for a bank. -/
def queueEntry (r : MemReq) (bank : Nat) (e : MemReq × Option Nat) : Bool := e.1 == r && e.2.all (· == bank)

/-- Whether a request waits in the queue of the unit of a key. -/
def State.queued (s : State) (r : MemReq) (pa : Nat) : Bool :=
  match homeUnit pa with
  | some u => (s.unit u).queue.any (queueEntry r (bankAt u pa))
  | none => false

/-- Whether requests for the bank of a key, or for its whole unit, arrived before a request and still wait (17 R368). -/
def State.ahead (s : State) (r : MemReq) (pa : Nat) : Bool :=
  match homeUnit pa with
  | some u => ((s.unit u).queue.takeWhile fun e => e.1 != r).any fun e => s.waiting e.1 && e.2.all (· == bankAt u pa)
  | none => false

/-- Whether a request for a key must wait: its unit holds it back, or others arrived before it (17 R364 to R368). -/
def State.holdsBack (s : State) (r : MemReq) (pa : Nat) : Bool := (s.waitsAt pa).isSome || s.ahead r pa

/-- Requests that wait in the queue of the unit of a key. -/
def State.queueLength (s : State) (pa : Nat) : Nat :=
  match homeUnit pa with
  | some u => ((s.unit u).queue.filter fun e => s.waiting e.1).length
  | none => 0

/-- A request that must wait joins the queue of its unit, where that has room, and the exit of a power state begins (17 R364, R368):
for the whole unit while that is held, else for its bank. -/
def State.arrive (s : State) (r : MemReq) (pa : Nat) : State :=
  match homeUnit pa with
  | none => s
  | some u =>
    let m := s.unit u
    let l := m.queue.filter fun e => s.waiting e.1
    let s1 := if s.queued r pa || 512 ≤ l.length then s
      else s.setUnit u { m with queue := l ++ [(r, if m.hold.isSome || s.stateAt u pa = 3 then none else some (bankAt u pa))] }
    s1.wake pa

/-- A request that leaves every queue. -/
def State.leave (s : State) (r : MemReq) : State :=
  { s with units := s.units.map fun (e : Nat × MemUnit) => (e.1, { e.2 with queue := e.2.queue.filter fun q => q.1 != r }) }

/-- A reader that waits for one key at a time waits for this one. -/
def State.waitFor (s : State) (r : MemReq) (pa : Nat) : State := if s.queued r pa then s.wake pa else (s.leave r).arrive r pa

/-- Whether a reader waits for a key already, with the exit of its power state begun. -/
def State.waitsFor (s : State) (r : MemReq) (pa : Nat) : Bool :=
  (s.queued r pa || decide (512 ≤ s.queueLength pa)) &&
    match homeUnit pa with
    | some u => !(s.stateAt u pa == 1 || s.stateAt u pa == 2) || (s.unit u).exits.contains (Config.partOf u (pa % 2 ^ 48) % unitSize u)
    | none => true

/-- A read performed at the home of a key: counted (17 R375). -/
def State.countRead (s : State) (g pa : Nat) : State := s.hotCount pa (requesterOf g)

/-- Reads counted, in order. -/
def State.countReads (s : State) (g : Nat) (pas : List Nat) : State := pas.foldl (fun s pa => s.countRead g pa) s

/-- Bytes performed at their home by a request of a source (0 read, 1 write, 3 engine) for a context (06 R113; 17 R364, R374,
R375). -/
def State.performAs (s : State) (src g pa : Nat) (bs : List Byte) : State :=
  ((((s.poke pa bs).mergePoison src g (wordsOf pa bs.length)).hotCount pa (requesterOf g)).wake pa).stale pa

/-- Bytes of one access performed at their home for a context: written with the poison rules of R113, counted, and
shadow frames copied from the frame marked stale (15 R323). -/
def State.perform (s : State) (g pa : Nat) (bs : List Byte) : State :=
  s.performAs 1 g pa bs

/-- Addressed bytes gathered into runs within one 8-byte word, the last run first. -/
def byteRuns (bs : List (Nat × Byte)) : List (Nat × List Byte) :=
  bs.foldl (fun acc e =>
    match acc with
    | (b, l) :: r => if b + l.length = e.1 && e.1 / 8 = b / 8 then (b, l ++ [e.2]) :: r else (e.1, [e.2]) :: (b, l) :: r
    | [] => [(e.1, [e.2])]) []

/-- The poisoned words that addressed bytes cover whole lose their poison, in whatever order the bytes come (R113). -/
def State.replacePoison (s : State) (bs : List (Nat × Byte)) : State :=
  { s with poison := s.poison.filter fun w => !(List.range 8).all fun i => bs.any fun b => b.1 == w + i }

/-- Addressed bytes of one store performed in order, neighbours of one 8-byte word together. -/
def State.performBytes (s : State) (src g : Nat) (bs : List (Nat × Byte)) : State :=
  (byteRuns bs).reverse.foldl (fun s r => s.performAs src g r.1 r.2) (s.replacePoison bs)

end Sys2Proof.Machine
end

