-- ==== Sys2Proof/Machine/MxEngine.lean ====
section
/-! DEFINITION. The arithmetic of the matrix engine: plane blocks, weight images, k-steps, checksums, their tests and
the epilogue (10 R198 to R219). -/

namespace Sys2Proof.Machine

/-- Element width in bits of an operand format (10 R198). -/
def fmtWidth (fmt : Nat) : Nat :=
  match fmt with
  | 0 => 8
  | 1 => 16
  | 2 => 8
  | 3 => 4
  | _ => 1

/-- Significand planes at full width (10 R198). -/
def fmtPlanes (fmt : Nat) : Nat :=
  match fmt with
  | 0 => 4
  | 1 => 8
  | 2 => 8
  | 3 => 4
  | _ => 1

/-- Block size in bytes (10 R198). -/
def blockSize (fmt : Nat) : Nat := 16 * fmtWidth fmt

/-- MXCFG.FMT. -/
def cfgFmt (cfg : Nat) : Nat := bits cfg 0 3
/-- MXCFG.PREC. -/
def cfgPrec (cfg : Nat) : Nat := bits cfg 3 4
/-- MXCFG.SP. -/
def cfgSp (cfg : Nat) : Bool := bits cfg 7 1 == 1
/-- MXCFG.QA. -/
def cfgQA (cfg : Nat) : Nat := bits cfg 8 2
/-- MXCFG.QS. -/
def cfgQS (cfg : Nat) : Nat := bits cfg 10 2
/-- MXCFG.QB. -/
def cfgQB (cfg : Nat) : Nat := bits cfg 12 2
/-- MXCFG.TOLF. -/
def cfgTol (cfg : Nat) : Nat := bits cfg 14 4
/-- MXCFG.XC. -/
def cfgXC (cfg : Nat) : Bool := bits cfg 18 1 == 1
/-- MXCFG.CHN. -/
def cfgChn (cfg : Nat) : Bool := bits cfg 63 1 == 1

/-- The precision p of an operation (10 R205). -/
def cfgP (cfg : Nat) : Nat := if cfgPrec cfg = 0 then fmtPlanes (cfgFmt cfg) else cfgPrec cfg

/-- Whether a format is floating. -/
def fmtFloat (fmt : Nat) : Bool := fmt ≤ 1

/-- Element `k` of a block whose planes of `n` bytes each hold `n * 8` elements (10 R198, R201). -/
def planeElem (bs : List Byte) (w n k : Nat) : Nat :=
  (List.range w).foldl (fun acc j => acc * 2 + bits (bs.getD (n * j + k / 8) 0).toNat (k % 8) 1) 0

/-- The 128 elements of a block. -/
def blockElems (bs : List Byte) (fmt : Nat) : List Nat :=
  (List.range 128).map fun k => planeElem bs (fmtWidth fmt) 16 k

/-- The bytes of the plane block of 128 elements (10 R198). -/
def elemsBlock (xs : List Nat) (w : Nat) : List Byte :=
  (List.range (16 * w)).map fun i =>
    BitVec.ofNat 8 ((List.range 8).foldl (fun acc b =>
      acc + bits (xs.getD (i % 16 * 8 + b) 0) (w - 1 - i / 16) 1 * 2 ^ b) 0)

/-- Elements as a column of 16-bit encodings. -/
def packCol (xs : List Nat) : BitVec 2048 := BitVec.ofNat 2048 (xs.zipIdx.foldl (fun acc e => acc + e.1 * 2 ^ (16 * e.2)) 0)

/-- Element `k` of a column. -/
def colElem (c : BitVec 2048) (k : Nat) : Nat := bits c.toNat (16 * k) 16

/-- A 4-bit group of a 2:4 mask: the two positions, or none unless exactly two bits are set (10 R201). -/
def maskPair (m : Nat) : Option (Nat × Nat) :=
  match (List.range 4).filter fun i => bits m i 1 == 1 with
  | [a, b] => some (a, b)
  | _ => none

/-- The first bad group of a column's mask (10 R201). -/
def badGroup (mask : List Byte) : Option Nat :=
  (List.range 32).find? fun g => (maskPair (bits (mask.getD (g / 2) 0).toNat (g % 2 * 4) 4)).isNone

/-- The 128 elements of a compressed column of 64 with its mask (10 R201). -/
def expandCol (xs : List Nat) (mask : List Byte) : List Nat :=
  (List.range 128).map fun k =>
    let g := k / 4
    match maskPair (bits (mask.getD (g / 2) 0).toNat (g % 2 * 4) 4) with
    | some (a, b) => if k % 4 = a then xs.getD (2 * g) 0 else if k % 4 = b then xs.getD (2 * g + 1) 0 else 0
    | none => 0

/-- The size of a weight image in the LSP (10 R201). -/
def imageSize (fmt : Nat) (sp : Bool) : Nat := if sp then 64 * blockSize fmt + 2048 else 128 * blockSize fmt

/-- A weight buffer read from an image, and the offset of the byte that holds a bad mask group (10 R201). -/
def readImage (bs : List Byte) (fmt : Nat) (sp : Bool) (scB : BitVec 32) : WBuf × Option Nat :=
  let bsz := blockSize fmt
  if sp then
    let mask (n : Nat) : List Byte := (bs.drop (64 * bsz + 16 * n)).take 16
    let col (n : Nat) : BitVec 2048 :=
      let half := (bs.drop (n * (bsz / 2))).take (bsz / 2)
      packCol (expandCol ((List.range 64).map fun e => planeElem half (fmtWidth fmt) 8 e) (mask n))
    let bad := (List.range 128).findSome? fun n => (badGroup (mask n)).map fun g => 64 * bsz + 16 * n + g / 2
    (⟨true, true, fmt, scB, (List.range 128).map col⟩, bad)
  else
    (⟨true, true, fmt, scB, (List.range 128).map fun n => packCol (blockElems ((bs.drop (n * bsz)).take bsz) fmt)⟩, none)

/-- An integer element (10 R198). -/
def intElem (fmt x : Nat) : Int :=
  match fmt with
  | 2 => toSigned x 8
  | 3 => toSigned x 4
  | _ => if x = 1 then 1 else -1

/-- A floating element. -/
def fpElem (fmt x : Nat) : FVal := (if fmt = 0 then Fmt.e4m3 else Fmt.bf16).decode x

/-- A floating A element read from p significand planes: unread mantissa bits are zero (10 R205). -/
def truncElem (fmt p x : Nat) : Nat :=
  let k := fmtPlanes fmt - p
  x / 2 ^ k * 2 ^ k

/-- The exact sum of floating values (10 R205): NaN on a NaN or on infinities of both signs. -/
def sumV (l : List FVal) : FVal :=
  if l.any (· == .nan) || (l.any (· == .inf true) && l.any (· == .inf false)) then .nan
  else if l.any (· == .inf true) then .inf true
  else if l.any (· == .inf false) then .inf false
  else
    let d := Dy.sum (l.map FVal.dy)
    .num (decide (d.m < 0)) d.m.natAbs d.e

/-- A value rounded to FP32, RNE; an exact zero is +0. -/
def rneV (x : FVal) : Nat :=
  match x with
  | .num _ 0 _ => 0
  | _ => (Fmt.f32.ofV .rne x).1

/-- The exact sum of FP32 values, rounded once: −0 where every term is −0 (02 R46). -/
def rneSum (l : List FVal) : Nat :=
  if l.all fun v => (match v with | .num true 0 _ => true | _ => false) then 2 ^ 31 else rneV (sumV l)

/-- The negation of a value. -/
def negV : FVal → FVal
  | .nan => .nan
  | .inf a => .inf (!a)
  | .num a m e => .num (!a) m e

/-- S of R205: the products truncated to a window of 61 bits below the largest, and summed. -/
def windowSum (prods : List FVal) : FVal :=
  let s := sumV prods
  match s with
  | .num _ _ _ =>
    let tops := prods.filterMap fun v => match v with
      | .num _ m e => if m = 0 then none else some (e + (Nat.log2 m : Int))
      | _ => none
    match tops with
    | [] => .num false 0 0
    | t :: ts =>
      let bot := ts.foldl max t - 60
      sumV (prods.map fun v => match v with
        | .num a m e => if e < bot then .num a (m / 2 ^ (bot - e).toNat) bot else v
        | w => w)
  | _ => s

/-- t of R205 for floating formats. -/
def stepFp (fmt : Nat) (prods : List FVal) (scale : Nat) : Nat :=
  let p := rneV (windowSum prods)
  if fmt = 0 then mul32 p scale else p

/-- Checksum column entry cB[k] of a floating buffer (10 R200). -/
def WBuf.cBf (b : WBuf) (k : Nat) : FVal := sumV (b.cols.map fun c => fpElem b.fmt (colElem c k))

/-- Checksum column entry cB[k] of an integer buffer. -/
def WBuf.cBi (b : WBuf) (k : Nat) : Int := (b.cols.map fun c => intElem b.fmt (colElem c k)).sum

/-- A list of 32-bit patterns as a row, entry 0 lowest. -/
def packRow (xs : List Nat) : Vec := BitVec.ofNat 4096 (xs.zipIdx.foldl (fun acc e => acc + e.1 * 2 ^ (32 * e.2)) 0)

/-- Entry `n` of a row. -/
def rowEntry (r : Vec) (n : Nat) : Nat := bits r.toNat (32 * n) 32

/-- The t values of one row of a k-step: its entries and its checksum column entry (10 R205). -/
def stepRow (fmt p : Nat) (a : List Nat) (buf : WBuf) (cBf : List FVal) (cBi : List Int) (scA : Nat) : Vec × Word :=
  if fmtFloat fmt then
    let av := a.map fun x => fpElem fmt (truncElem fmt p x)
    let sc := if fmt = 0 then mul32 scA buf.scB.toNat else 0x3F800000
    let dot (bv : List FVal) : Nat := stepFp fmt ((av.zip bv).map fun e => (mulV e.1 e.2).1) sc
    (packRow (buf.cols.map fun c => dot ((List.range 128).map fun k => fpElem fmt (colElem c k))), BitVec.ofNat 64 (dot cBf))
  else
    let av := a.map (intElem fmt)
    let dot (bv : List Int) : Int := ((av.zip bv).map fun e => e.1 * e.2).sum
    (packRow (buf.cols.map fun c => intBits (dot ((List.range 128).map fun k => intElem fmt (colElem c k))) 32),
      BitVec.ofNat 64 (intBits (dot cBi) 64))

/-- A row of the store. -/
def AccStore.row (a : AccStore) (r : Nat) : Vec := a.rows.at 0 r

/-- A checksum column entry. -/
def AccStore.col (a : AccStore) (r : Nat) : Word := a.chkcol.at 0 r

/-- A checksum row entry. -/
def AccStore.chk (a : AccStore) (region n : Nat) : Word := a.chkrow.at 0 (128 * region + n)

/-- One entry accumulated (10 R205): the value and whether it saturates. -/
def accEntry (fp z : Bool) (c t : Nat) : Nat × Bool :=
  if fp then (if z then t else add32 c t, false)
  else
    let (v, s) := satSigned ((if z then 0 else toSigned c 32) + toSigned t 32) 32
    (intBits v 32, s)

/-- One row accumulated, with exclusion bits (10 R203, R205, R206); how many entries saturate. `inv` names an entry
whose stored bit AINJ inverts (20 R401). -/
def AccStore.stepInto (a : AccStore) (fp z : Bool) (row : Nat) (t : Vec) (tc : Word) (inv : Option (Nat × Nat)) :
    AccStore × Nat :=
  let old := a.row row
  let es := (List.range 128).map fun n => accEntry fp z (rowEntry old n) (rowEntry t n)
  let vals := es.map (·.1)
  let cc : Word := if fp then BitVec.ofNat 64 (if z then tc.toNat else add32 (a.col row).toNat tc.toNat)
    else if z then tc else a.col row + tc
  let badCols := (List.range 128).filter fun n => (es.getD n (0, false)).2 || (fp && nonFinite32 (vals.getD n 0))
  let rowBad := badCols != [] || (fp && nonFinite32 (cc.toNat % 2 ^ 32))
  let region := row / 128
  let ex0 := if z then setBit a.rowEx row false else a.rowEx
  let stored := match inv with
    | some (col, bit) => vals.zipIdx.map fun e => if e.2 = col then e.1 ^^^ 2 ^ bit else e.1
    | none => vals
  ({ a with
      rows := a.rows.set row (packRow stored)
      bad := if z then a.bad.filter fun e => e / 128 != row else a.bad
      chkcol := a.chkcol.set row cc
      rowEx := if rowBad then setBit ex0 row true else ex0
      colEx := badCols.foldl (fun x n => setBit x (128 * region + n) true) a.colEx },
    (es.filter (·.2)).length)

/-- The sum of FP32 patterns and their values. -/
def vals32 (l : List Nat) : List FVal := l.map val32

/-- The checksum row of a region after an operation: `minus` are the old rows taken away, `plus` the rows or t values
added, with one rounding (10 R206, R214, R219). -/
def AccStore.chkUpdate (a : AccStore) (fp : Bool) (region : Nat) (minus plus : List Vec) : AccStore :=
  let new (n : Nat) : Word :=
    let c := a.chk region n
    if fp then
      BitVec.ofNat 64 (rneSum (val32 (c.toNat % 2 ^ 32) :: (minus.map fun r => negV (val32 (rowEntry r n))) ++
        plus.map fun r => val32 (rowEntry r n)))
    else
      BitVec.ofInt 64 ((c.toNat : Int) - (minus.map fun r => toSigned (rowEntry r n) 32).sum +
        (plus.map fun r => toSigned (rowEntry r n) 32).sum)
  { a with
    chkrow := (List.range 128).foldl (fun m n => m.set (128 * region + n) (new n)) a.chkrow
    colEx := (List.range 128).foldl (fun x n =>
      if fp && nonFinite32 ((new n).toNat % 2 ^ 32) then setBit x (128 * region + n) true else x) a.colEx }

/-- The 64-row groups that rows cover whole. -/
def wholeGroups (rows : List Nat) : List Nat :=
  ((rows.map (· / 64)).eraseDups).filter fun g => 64 ≤ (rows.filter fun r => r / 64 == g).eraseDups.length

/-- Group invalid bits cleared for the groups that an XMACZ, XACCLD or XCLR writes whole (10 R223). -/
def AccStore.validate (a : AccStore) (rows : List Nat) : AccStore :=
  { a with ginv := (wholeGroups rows).foldl (fun x g => setBit x g false) a.ginv }

/-- Rows replaced by an XACCLD or an XCLR, with checksums rebuilt; an XCLR of a whole region sets its checksum row to zero
(10 R214, R219). -/
def AccStore.replace (a : AccStore) (fp clr : Bool) (data : List (Nat × Vec)) : AccStore :=
  match data with
  | [] => a
  | (r0, _) :: _ =>
    let region := r0 / 128
    -- a row named twice by a stride of 0 holds one row of data
    let rows := (data.map (·.1)).eraseDups
    let whole := 128 ≤ rows.length
    let a1 := a.chkUpdate fp region (rows.map a.row) (data.map (·.2))
    let a2 := if whole && clr then
        { a1 with chkrow := (List.range 128).foldl (fun m n => m.set (128 * region + n) 0) a1.chkrow } else a1
    let a3 := if whole then { a2 with colEx := (List.range 128).foldl (fun x n => setBit x (128 * region + n) false) a2.colEx } else a2
    let put (s : AccStore) (e : Nat × Vec) : AccStore :=
      let es := (List.range 128).map (rowEntry e.2)
      let cc : Word := if fp then BitVec.ofNat 64 (rneSum (vals32 es))
        else BitVec.ofInt 64 ((es.map fun x => toSigned x 32).sum)
      let badCols := if fp then (List.range 128).filter fun n => nonFinite32 (es.getD n 0) else []
      { s with
        rows := s.rows.set e.1 e.2
        bad := s.bad.filter fun x => x / 128 != e.1
        chkcol := s.chkcol.set e.1 cc
        rowEx := setBit s.rowEx e.1 (badCols != [] || (fp && nonFinite32 (cc.toNat % 2 ^ 32)))
        colEx := badCols.foldl (fun x n => setBit x (128 * region + n) true) s.colEx }
    (data.foldl put a3).validate rows

/-- The checksum row of a region rebuilt exactly from its rows, rounded once (10 R223, 16 R352). -/
def AccStore.rebuild (a : AccStore) (fp : Bool) (region : Nat) : AccStore :=
  let a0 := { a with chkrow := (List.range 128).foldl (fun m n => m.set (128 * region + n) 0) a.chkrow }
  a0.chkUpdate fp region [] ((List.range 128).map fun i => a.row (128 * region + i))

/-- The test |Σ xs − c| > tol * (Σ |xs| + |c|) of R217; a value that is not finite fails nothing. -/
def fpTest (tolf : Nat) (xs : List Nat) (c : Nat) : Bool :=
  let vs := vals32 (c :: xs)
  if vs.any fun v => match v with | .num _ _ _ => false | _ => true then false
  else
    let cd := (val32 c).dy
    let diff := ((Dy.sum ((vals32 xs).map FVal.dy)).add cd.neg).abs
    let tot := Dy.sum (((vals32 xs).map fun v => v.dy.abs) ++ [cd.abs])
    (Dy.mul tot ⟨1, -(12 + tolf : Int)⟩).lt diff

/-- The integer test of R217. -/
def intTest (xs : List Nat) (c : Word) : Bool := BitVec.ofInt 64 ((xs.map fun x => toSigned x 32).sum) != c

/-- Whether a named row fails its row-sum test. -/
def AccStore.rowFails (a : AccStore) (fp : Bool) (tolf r : Nat) : Bool :=
  let es := (List.range 128).map (rowEntry (a.row r))
  if fp then fpTest tolf es ((a.col r).toNat % 2 ^ 32) else intTest es (a.col r)

/-- Whether a column of a region fails its column-sum test. -/
def AccStore.colFails (a : AccStore) (fp : Bool) (tolf region n : Nat) : Bool :=
  let es := (List.range 128).map fun i => rowEntry (a.row (128 * region + i)) n
  if fp then fpTest tolf es ((a.chk region n).toNat % 2 ^ 32) else intTest es (a.chk region n)

/-- Failing named rows, as places among them, and failing columns, exclusions skipped; whether some named row or
column of the region was excluded (10 R217). -/
def AccStore.tests (a : AccStore) (fp : Bool) (tolf : Nat) (rows : List Nat) : List Nat × List Nat × Bool :=
  let region := rows.headD 0 / 128
  let fr := (rows.zipIdx.filter fun e => !a.rowEx.getLsbD e.1 && a.rowFails fp tolf e.1).map (·.2)
  let fc := (List.range 128).filter fun n => !a.colEx.getLsbD (128 * region + n) && a.colFails fp tolf region n
  (fr, fc, rows.any (fun r => a.rowEx.getLsbD r) || (List.range 128).any (fun n => a.colEx.getLsbD (128 * region + n)))

/-- The status word of XCHK (10 R217); `row0` is the first named row in the allocation. -/
def AccStore.chkStatus (a : AccStore) (fp : Bool) (tolf row0 : Nat) (rows : List Nat) : Word :=
  let (fr, fc, ex) := a.tests fp tolf rows
  let frow := match fr with | [] => 0 | i :: _ => row0 + i
  let fcol := fc.headD 0
  let loc := fr.length == 1 && fc.length == 1
  BitVec.ofNat 64 (fr.length + 2 ^ 8 * fc.length + 2 ^ 16 * frow + 2 ^ 25 * fcol + 2 ^ 32 * loc.toNat + 2 ^ 33 * ex.toNat)

/-- XFIX on a physical row and column (10 R218): the code and the corrected entry. -/
def AccStore.fix (a : AccStore) (fp : Bool) (tolf row col : Nat) : Nat × Option Nat :=
  let region := row / 128
  if a.rowEx.getLsbD row || a.colEx.getLsbD (128 * region + col) then (3, none)
  else
    let others := ((List.range 128).filter fun i => 128 * region + i != row).map fun i => rowEntry (a.row (128 * region + i)) col
    let c := a.chk region col
    let iv := (c - BitVec.ofInt 64 ((others.map fun x => toSigned x 32).sum)).toInt
    let corrected : Option Nat :=
      if fp then some (rneSum (val32 (c.toNat % 2 ^ 32) :: others.map fun x => negV (val32 x)))
      else if (satSigned iv 32).2 then none else some (intBits iv 32)
    match corrected with
    | none => (3, none)
    | some x =>
      let es := (List.range 128).map fun n => if n = col then x else rowEntry (a.row row) n
      let fails := if fp then fpTest tolf es ((a.col row).toNat % 2 ^ 32) else intTest es (a.col row)
      if fails then (2, none) else (0, some x)

/-- One entry of an epilogue (10 R215): the result of its output format. -/
def epiEntry (fmt ofmt act : Nat) (sc : Bool) (x qs qb : Nat) : El :=
  if 2 ≤ fmt && !sc && act ≠ 2 && (ofmt = 3 || ofmt = 4) then
    let y := toSigned x 32
    let y := if act = 1 && y < 0 then 0 else y
    if ofmt = 3 then convII y true 8 else ⟨intBits y 32, 0, []⟩
  else
    let y0 := if 2 ≤ fmt then (convIF (toSigned x 32) .f32 .rne).x else x
    let y1 := if sc then
        (match mulV (val32 y0) (val32 qs) with
          | (p, _) => (Fmt.f32.addV .rne p (val32 qb)).1)
      else y0
    let y2 := if act = 1 && (bits y1 31 1 = 1) && val32 y1 ≠ .nan then 0 else y1
    let y3 := if act = 2 then
        (match val32 y2 with
          | .nan => Fmt.f32.nan
          | .inf a => if a then 0xBF800000 else 0x3F800000
          | .num a m e => if m = 0 then y2 else (Fmt.f32.tanhR .rne (FVal.num a m e).dy).1)
      else y2
    match ofmt with
    | 0 => if val32 y3 = .nan then ⟨Fmt.f32.nan, 0, [2]⟩ else ⟨y3, 0, []⟩
    | 1 => convFF .f32 .bf16 .rne y3
    | 2 => convFF .f32 .e4m3 .rne y3
    | 3 => convFI .f32 true 8 .rne y3
    | _ => convFI .f32 true 32 .rne y3

/-- Width in bits of an output format (10 R215). -/
def ofmtWidth (ofmt : Nat) : Nat :=
  match ofmt with
  | 0 => 32
  | 1 => 16
  | 2 => 8
  | 3 => 8
  | _ => 32

/-- The payload of a row of results: element order, or one plane block with PL = 1 (10 R215). -/
def epiPayload (ofmt : Nat) (pl : Bool) (xs : List Nat) : List Byte :=
  let w := ofmtWidth ofmt
  if pl then elemsBlock xs w else xs.flatMap fun x => leBytes x (w / 8)

/-- The transport checksum of a payload (10 R216). -/
def transportSum (bs : List Byte) : Nat := go bs.length bs 0
where
  /-- Sum of the 32-bit words so far. -/
  go : Nat → List Byte → Nat → Nat
    | 0, _, acc => acc
    | n + 1, l, acc => if l = [] then acc else go n (l.drop 4) ((acc + leNat (l.take 4)) % 2 ^ 32)

end Sys2Proof.Machine
end

