-- ==== Sys2Proof/Machine/Shadow.lean ====
section
/-! DEFINITION. Shadow frames and the shadow pool of an SPC (15 R323, R324; 13 R280). -/

namespace Sys2Proof.Machine

/-- The shadow frames in use with their SPCs, those of the SPC on which a context runs last: a task that has moved keeps
the frames of its grants in the pool they came from. -/
def State.allShadows (s : State) (g : Nat) : List (Nat × Shadow) :=
  (s.spcs.filter fun (k : Nat × Spc) => k.1 != spcOf g).flatMap (fun (k : Nat × Spc) => k.2.shadows.map fun f => (k.1, f)) ++
    (s.spc (spcOf g)).shadows.map fun f => (spcOf g, f)

/-- The shadow frame that a context's TST to a tile writes now: that of its OPEN interval, or of its grant (15 R323,
13 R280). -/
def State.shadowNow (s : State) (g : Nat) (key : Nat × Nat × Nat) : Option Shadow :=
  let iv := (((s.ctx g).ivs.getLast?).map (·.id))
  (((s.allShadows g).map (·.2)).reverse).find? fun f => f.g == g && f.key == key && (f.iv == none || f.iv == iv)

/-- The newest shadow frame of a tile that a context has written; its TLD reads it (06 R118). -/
def State.shadowRead (s : State) (g : Nat) (key : Nat × Nat × Nat) : Option Shadow :=
  (((s.allShadows g).map (·.2)).reverse).find? fun f => f.g == g && f.key == key

/-- Whether a frame is one that a context writes under a grant (13 R280). -/
def State.grantFrame (s : State) (g frame : Nat) : Bool :=
  (s.allShadows g).any fun f => f.2.g == g && f.2.frame == frame && f.2.iv == none

/-- What taking a frame from the pool finds (15 R324; 18 R421). -/
inductive Pool where
  /-- A frame: place of its word and physical key. -/
  | frame (word key : Nat)
  /-- No free frame. -/
  | empty
  /-- The table cannot be read: address and kind. -/
  | bad (va kind : Nat)
  deriving DecidableEq, Repr

/-- The first frame word from `i` on, of `n`, that is valid and in use by no shadow. -/
def State.poolScan (s : State) (used : List Nat) (base i : Nat) : Nat → Pool
  | 0 => .empty
  | n + 1 =>
    if used.contains i then s.poolScan used base (i + 1) n
    else
      match s.devWord s.sysSpace (base + 8 * i) with
      | .error k => .bad (base + 8 * i) k
      | .ok w =>
        if bits w 63 1 = 1 then .frame i (pkNode (bits w 58 2) (bits w 16 26 * 2 ^ 16)) else s.poolScan used base (i + 1) n

/-- The free frame a CMPE takes next. -/
def State.poolTake (s : State) (spc : Nat) : Pool :=
  let k := s.spc spc
  s.poolScan (k.shadows.map (·.word)) (k.sftb.toNat % 2 ^ 57) 0 4096

/-- The S bit of a leaf written (06 R107). -/
def State.setShadowBit (s : State) (leaf : Nat) (b : Bool) : State :=
  let w := s.word leaf
  s.poke leaf (leBytes ((setBit (BitVec.ofNat 64 w) 55 b).toNat) 8)

/-- A shadow frame added for a tile: taken, copied from the committed frame or from the context's own newest frame of
the tile, which is then the frame copied from, and the leaf's S bit set. `iv` is none under a grant. False when no frame can be had (15 R323). -/
def State.shadowAdd (s : State) (g : Nat) (key : Nat × Nat × Nat) (iv : Option Nat) : State × Bool :=
  let spc := spcOf g
  match s.walkTile (coreOf g) (s.ctx g).space key.2.1 key.2.2 with
  | .leaf at' w =>
    match s.poolTake spc with
    | .frame i fk =>
      let src := match s.shadowRead g key with
        | some f => f.frame
        | none => leafKey w 0
      let f : Shadow := ⟨g, key, i, fk, src, at', iv, [], false⟩
      let s1 := ((s.poke fk (s.peek src (2 ^ 16))).setShadowBit at' true)
      let k := s1.spc spc
      (s1.setSpc spc { k with shadows := k.shadows ++ [f] }, true)
    | .empty => (s, false)
    | .bad va kind => (s.postHost 0 ⟨14, 0, 0, 0, va, kind + 16⟩, false)
  | _ => (s, true)

/-- Bytes written into a shadow frame, with the granules marked; an access that the frame's controller counts (17 R375). -/
def State.shadowWrite (s : State) (g frame : Nat) (bs : List (Nat × Byte)) : State :=
  let s1 := { s with mem := bs.foldl (fun m (b : Nat × Byte) => memSet m b.1 b.2) s.mem }
  let mark (f : Shadow) : Shadow :=
    if f.frame == frame && f.g == g then
      { f with mask := bs.foldl (fun l (b : Nat × Byte) => insertNat ((b.1 - frame) / 8 * 8) l) f.mask }
    else f
  let s2 := { s1 with spcs := s1.spcs.map fun (k : Nat × Spc) => (k.1, { k.2 with shadows := k.2.shadows.map mark }) }
  match bs.head? with
  | some b => (s2.countRead g b.1).wake b.1
  | none => s2

/-- A tile dropped from every tile cache (15 R323, 16 R359). -/
def State.dropTile (s : State) (p : Nat × Nat × Nat → Bool) : State :=
  { s with
    cores := s.cores.map fun kc => (kc.1, { kc.2 with tlb := kc.2.tlb.filter fun e => !p e.1 })
    spcs := s.spcs.map fun kc => (kc.1, { kc.2 with tlb := kc.2.tlb.filter fun e => !p e.1 }) }

/-- A shadow frame returned to the pool; S clears when no shadow of the tile remains (15 R323). -/
def State.shadowDrop (s : State) (spc : Nat) (f : Shadow) : State :=
  let k := s.spc spc
  let s1 := s.setSpc spc { k with shadows := k.shadows.filter fun x => !(x.word == f.word) }
  let left := s1.spcs.any fun kc => kc.2.shadows.any fun x => x.leaf == f.leaf
  if left then s1 else s1.setShadowBit f.leaf false

/-- The frame word of a pool after a remap: the replaced frame (15 R324). -/
def frameWord (key : Nat) : Nat := 2 ^ 63 + key / 2 ^ 48 * 2 ^ 58 + key % 2 ^ 48 / 2 ^ 16 * 2 ^ 16

/-- A shadow frame committed: remapped, or its granules copied (15 R323; log 22 for NODE). -/
def State.shadowCommit (s : State) (spc : Nat) (f : Shadow) : State :=
  let w := s.word f.leaf
  let now := leafKey w 0
  let s1 :=
    if bits w 63 1 = 1 && now = f.orig && !f.stale then
      let w' := w - bits w 16 26 * 2 ^ 16 - bits w 58 2 * 2 ^ 58 + f.frame % 2 ^ 48 / 2 ^ 16 * 2 ^ 16 + f.frame / 2 ^ 48 * 2 ^ 58
      let s2 := s.poke f.leaf (leBytes w' 8)
      match s2.devWrite s2.sysSpace ((s2.spc spc).sftb.toNat % 2 ^ 57 + 8 * f.word) (leBytes (frameWord f.orig) 8) with
      | .ok s3 => s3
      | .error k => s2.postHost 0 ⟨14, 0, 0, 0, (s2.spc spc).sftb.toNat % 2 ^ 57 + 8 * f.word, k + 16⟩
    else f.mask.foldl (fun s o => s.perform f.g (now + o) (s.peek (f.frame + o) 8)) s
  (s1.shadowDrop spc f).dropTile (· == f.key)

/-- The frames of a context that a predicate names, with their SPCs, oldest first. -/
def State.shadowsOf (s : State) (g : Nat) (p : Shadow → Bool) : List (Nat × Shadow) :=
  (s.allShadows g).filter fun f => f.2.g == g && p f.2

/-- Frames of a context dropped unused (15 R323, 13 R275). -/
def State.shadowDiscard (s : State) (g : Nat) (p : Shadow → Bool) : State :=
  (s.shadowsOf g p).foldl (fun s f => s.shadowDrop f.1 f.2) s

/-- Frames of a context committed in order; those of the twin whose entries are not performed are returned unused. -/
def State.shadowCommits (s : State) (g : Nat) (follows : Bool) (p : Shadow → Bool) : State :=
  if follows then s.shadowDiscard g p
  else (s.shadowsOf g p).foldl (fun s f => s.shadowCommit f.1 f.2) s

end Sys2Proof.Machine
end

