-- ==== Sys2Proof/Machine/Runs.lean ====
section
/-! DEFINITION. Runs and the ready queues of a core (04 R60, R65, R66), and the accounts that events keep: exception
counts, suspicion, CMPE events (08 R159; 15 R332 to R335). -/

namespace Sys2Proof.Machine

/-! ### Priorities -/

/-- The priority of a trap cause, 1 the highest (16 R342). -/
def causePriority (cause : Nat) : Nat :=
  match cause with
  | 0x10 => 1
  | 0x11 => 2
  | 0x12 => 2
  | 0x13 => 3
  | 0x18 => 4
  | 0x04 => 5
  | 0x05 => 5
  | 0x01 => 6
  | 0x02 => 7
  | 0x03 => 7
  | 0x08 => 8
  | 0x07 => 9
  | 0x06 => 10
  | 0x09 => 11
  | 0x0A => 12
  | 0x16 => 13
  | 0x15 => 13
  | 0x17 => 14
  | 0x0B => 15
  | 0x0C => 15
  | 0x14 => 16
  | _ => 17

/-- The trap that is reported: the highest priority, then the lowest slot (16 R342). -/
def bestTrap : List TrapReq → Option TrapReq
  | [] => none
  | t :: r =>
    match bestTrap r with
    | none => some t
    | some u =>
      if causePriority u.cause * 16 + u.slot < causePriority t.cause * 16 + t.slot then some u else some t

/-- The place of a context in a batch: descending PRIO, then round-robin from the context after `last` (04 R65). -/
def State.batchKey (s : State) (last g : Nat) : Nat := (3 - (s.ctx g).prio.toNat % 4) * 8 + (g % 8 + 7 - last % 8) % 8

/-- A context put into a sorted batch. -/
def State.batchInsert (s : State) (last g : Nat) : List Nat → List Nat
  | [] => [g]
  | h :: r => if s.batchKey last g < s.batchKey last h then g :: h :: r else h :: s.batchInsert last g r

/-- A batch in the order of R65. -/
def State.sortBatch (s : State) (last : Nat) (l : List Nat) : List Nat := l.foldl (fun acc g => s.batchInsert last g acc) []

/-- The context that issues on a core. -/
def State.issuer (s : State) (core : Nat) : Option Nat :=
  ((List.range 8).map fun x => 8 * core + x).find? fun g => (s.ctx g).st == .issuing

/-- The run limit: RUNLIM, with 0 read as 65,536 (02 R41). -/
def Ctx.runLimit (c : Ctx) : Nat := let n := c.runlim.toNat % 2 ^ 32; if n = 0 then 65536 else n

/-- The head of the ready queue becomes ISSUING with its counter loaded; with none the clock is gated (R65, R66). -/
def State.startHead (s : State) (core : Nat) : State :=
  let k := s.core core
  match k.ready with
  | [] => s.setCore core { k with gated := true }
  | g :: r =>
    let s1 := s.setCore core { k with ready := r, gated := false }
    let c := s1.ctx g
    s1.setCtx g { c with st := .issuing, run := c.runLimit, due := false }

/-- A context becomes READY in the present run: it joins the batch (R65). -/
def State.makeReady (s : State) (g : Nat) : State :=
  let c := s.ctx g
  let s1 := s.setCtx g { c with st := .ready }
  let k := s1.core (coreOf g)
  s1.setCore (coreOf g) { k with batch := k.batch ++ [g] }

/-- A context taken out of the ready queue and batch. -/
def State.unready (s : State) (g : Nat) : State :=
  let k := s.core (coreOf g)
  s.setCore (coreOf g) { k with ready := k.ready.filter (· != g), batch := k.batch.filter (· != g) }

/-- What is left of a bundle once the run has ended at it: nothing that would end a run (R61). -/
def afterRun (l : List Tail) : List Tail :=
  l.filter fun t => match t with
    | .yield => false
    | .runEnd => false
    | .expire _ => false
    | _ => true

/-- The run of a context ends and the context enters a state; from another state than ISSUING it just enters it, READY
through the batch (R60, R61, R65). -/
def State.endRun (s : State) (g : Nat) (st : CtxSt) : State :=
  let c := s.ctx g
  match c.st with
  | .issuing =>
    let s1 := s.setCtx g { c with st := st, todo := afterRun c.todo }
    let k := s1.core (coreOf g)
    let batch := if st = .ready then k.batch ++ [g] else k.batch
    let s2 := s1.setCore (coreOf g) { k with ready := k.ready ++ s1.sortBatch (g % 8) batch, batch := [], last := g % 8 }
    s2.startHead (coreOf g)
  | .ready => if st = .ready then s else (s.unready g).setCtx g { c with st := st }
  | _ => if st = .ready then s.makeReady g else s.setCtx g { c with st := st }

/-- A gated core restarts: its batch is sorted against the context that ran last, and the head issues (R65). -/
def State.restartClock (s : State) (core : Nat) : State :=
  let k := s.core core
  if k.gated && k.batch != [] then
    (s.setCore core { k with ready := k.ready ++ s.sortBatch k.last k.batch, batch := [] }).startHead core
  else s

/-- The kernel of a context's task. -/
def State.kernelOf (s : State) (g : Nat) : Option Kernel := s.kernels.find? (s.ctx g).al.kernel

/-- A kernel replaced. -/
def State.setKernel (s : State) (k : Nat) (x : Kernel) : State := { s with kernels := s.kernels.set k x }

/-- A count added to a table of counts by 4 * TID + kind with room for `lim` TIDs; none where a further TID finds no
room (08 R159). -/
def addCount (lim : Nat) (m : SMap Nat) (key n : Nat) : Option (SMap Nat) :=
  let tids := (m.map fun e => e.1 / 4).eraseDups
  if tids.contains (key / 4) || tids.length < lim then some (m.set key (min (2 ^ 32 - 1) (m.at 0 key + n))) else none

/-- Events that found no room added to a kernel's overflow count. -/
def State.kernelOverflow (s : State) (k n : Nat) : State :=
  match s.kernels.find? k with
  | some x => s.setKernel k { x with excOvf := x.excOvf.set 0 (min (2 ^ 32 - 1) (x.excOvf.at 0 0 + n)) }
  | none => s

/-- A count added to a kernel's table (08 R159). -/
def State.kernelCount (s : State) (k : Nat) (e : Nat × Nat) : State :=
  match s.kernels.find? k with
  | none => s
  | some x =>
    match addCount 256 x.excs e.1 e.2 with
    | some m => s.setKernel k { x with excs := m }
    | none => s.kernelOverflow k e.2

/-- The last interval replaced. -/
def mapLast (f : Interval → Interval) : List Interval → List Interval
  | [] => []
  | [i] => [f i]
  | i :: r => i :: mapLast f r

/-- An exception counted in the OPEN interval of a context, or in the kernel's overflow (08 R159). -/
def State.countExc (s : State) (g : Nat) (e : Nat × Nat) : State :=
  let c := s.ctx g
  match c.ivs.getLast? with
  | none => s
  | some iv =>
    match addCount 4 iv.excs e.1 e.2 with
    | some m => s.setCtx g { c with ivs := mapLast (fun i => { i with excs := m }) c.ivs }
    | none => s.kernelOverflow c.al.kernel e.2

/-- Accumulator groups and weight buffers marked as written in the OPEN interval (10 R223). -/
def State.markDirty (s : State) (g : Nat) (l : List Nat) : State :=
  let c := s.ctx g
  s.setCtx g { c with ivs := mapLast (fun i => { i with dirty := l.foldl (fun d x => insertNat x d) i.dirty }) c.ivs }

/-- The suspicion score of an SPC (15 R332). -/
def State.spcScore (s : State) (k : Nat) : Nat := ((List.range 16).map fun i => (s.core (16 * k + i)).score).sum

/-- Retired cores of an SPC. -/
def State.spcRetired (s : State) (k : Nat) : Nat := ((List.range 16).filter fun i => (s.core (16 * k + i)).ret).length

/-- Pre-emption requested of the contexts of a list that hold a task, and of their twins (15 R333; 16 R347, R348);
`whole` at their next checkpoint bundle. -/
def State.requestSave (s : State) (whole : Bool) : List Nat → State
  | [] => s
  | g :: r =>
    let one (s : State) (g : Nat) : State :=
      let c := s.ctx g
      if c.st = .free then s
      else s.setCtx g { c with pend := (match c.pend with | some t => some t | none => some s.now), pendWhole := c.pendWhole || whole }
    let s1 := one s g
    let s2 := match (s.ctx g).twin with
      | some t => one s1 t
      | none => s1
    s2.requestSave whole r

/-- The contexts of a core. -/
def coreCtxs (core : Nat) : List Nat := (List.range 8).map fun x => 8 * core + x

/-- A core retired, as the record keeps it, its contexts saved at their next checkpoint bundle (15 R333). -/
def State.retireCore (s : State) (core : Nat) : State :=
  ({ s with msc := { s.msc with recCores := insertNat core s.msc.recCores } }.setCore core
    { s.core core with ret := true }).requestSave true (coreCtxs core)

/-- The threshold actions of R333 for a core, in table order. -/
def State.thresholds (s : State) (core : Nat) : State :=
  let t := s.msc.susth.toNat
  let k := s.core core
  let fen := decide (bits t 0 16 ≤ k.score)
  let s1 := s.setCore core { k with fen := fen }
  let s2 := if fen && !k.fen then s1.requestSave false ((coreCtxs core).filter fun g => 1 ≤ (s1.ctx g).pcls) else s1
  let s3 := if bits t 16 16 ≤ k.score && !k.ret then s2.retireCore core else s2
  let spc := core / 16
  if !(s3.spc spc).ret && (bits t 48 4 ≤ s3.spcRetired spc || bits t 32 16 ≤ s3.spcScore spc) then
    let m := s3.msc
    let s4 := { s3 with msc := { m with recSpcs := insertNat spc m.recSpcs } }.setSpc spc { s3.spc spc with ret := true }
    (s4.requestSave true ((List.range 128).map fun i => 128 * spc + i)).postHost 0 ⟨7, 0, 0, 0, spc, 0⟩
  else s3

/-- Points added to the score of a core (15 R332). -/
def State.addScore (s : State) (core pts : Nat) : State :=
  if pts = 0 then s
  else
    let k := s.core core
    (s.setCore core { k with score := min (2 ^ 32 - 1) (k.score + pts) }).thresholds core

/-- An entry of the event ring of a CMPE (15 R335). -/
def State.cmpeEvent (s : State) (spc act cause gcid pts : Nat) (third : Option Nat) (pc sig : Word) : State :=
  let k := s.spc spc
  let th := match third with
    | some n => n % 32 + 32
    | none => 0
  let e : BitVec 256 := BitVec.ofNat 256 (act + 2 ^ 4 * cause + 2 ^ 12 * gcid + 2 ^ 24 * pts + 2 ^ 32 * th +
    2 ^ 64 * pc.toNat + 2 ^ 128 * sig.toNat + 2 ^ 192 * (s.now % 2 ^ 64))
  s.setSpc spc { k with events := ringPush k.events e, evWc := k.evWc + 1 }

/-- The SPC whose CMPE keeps a task's events: that of the primary (15 R335). -/
def State.cmpeOf (s : State) (g : Nat) : Nat :=
  let c := s.ctx g
  match c.second, c.twin with
  | true, some t => spcOf t
  | _, _ => spcOf g

/-- Whether a context waits for the status of a request for an object: an abandoned wait takes none (13 R283). -/
def Ctx.awaitsLock (c : Ctx) (n : LockName) : Bool :=
  (match c.wait with | some (.lock _ m, _, _) => m == n | _ => false) ||
    c.todo.any fun t => match t with | .wait (.lock _ m) _ _ _ => m == n | _ => false

/-- Open intervals of a context: those that have not agreed (15 R318). -/
def Ctx.openCount (c : Ctx) : Nat := (c.ivs.filter fun (i : Interval) => !i.agreed).length

/-- The checkpoint bundles of open intervals whose point of delivery a context has passed or still has, counted from its last agreed
interval: with the one past that point, the next (13 R275, R285). -/
def Ctx.woundPlace (c : Ctx) : Nat :=
  let past := (match c.ivs.getLast? with
      | some i => i.agreed || i.sig.isSome
      | none => false) ||
    match c.todo.find? fun t => match t with | .wound _ => true | .close => true | _ => false with
    | some .close => true
    | _ => false
  c.openCount + past.toNat

/-- Whether a wound is delivered at a checkpoint bundle that a context finishes: of twins at the matching one, the first that
neither had passed (13 R275, R285). -/
def Ctx.woundDue (c : Ctx) : Bool := c.wndp && (c.twin.isNone || decide (c.wndAt ≤ c.openCount))

/-- What the lock managers asked of contexts, carried out (13 R275, R276, R283): an answer for a parked request; a
wound, pending until its delivery; a lease trap. -/
def State.lkEffect (s : State) (e : LkEff) : State :=
  match e with
  | .wake g n st => if (s.ctx g).awaitsLock n then s.setCtx g { s.ctx g with answer := some st } else s
  | .wound g =>
    let c := s.ctx g
    let n := max c.woundPlace ((c.twin.map fun t => (s.ctx t).woundPlace).getD 0)
    let mark (s : State) (g : Nat) : State :=
      if (s.ctx g).wndp then s else s.setCtx g { s.ctx g with wndp := true, wndAt := n }
    match c.twin with
    | some t => mark (mark s g) t
    | none => mark s g
  | .lease g =>
    let mark (s : State) (g : Nat) : State :=
      let c := s.ctx g
      s.setCtx g { c with due' := c.due' ++ [⟨0x0C, 0, c.r.pc, 0, 0, 0, 0, 0, .handler⟩] }
    match (s.ctx g).twin with
    | some t => mark (mark s g) t
    | none => mark s g

/-- Several effects in order. -/
def State.lkEffects (s : State) (es : List LkEff) : State := es.foldl State.lkEffect s

/-- A value given to the other twin of a class 2 pair under the next number (15 R317; 12 R249). -/
def State.giveTwin (s : State) (g : Nat) (x : BitVec 128) : State :=
  let c := s.ctx g
  match c.twin with
  | some t =>
    let s1 := s.setCtx g { c with shared := c.shared + 1 }
    s1.setCtx t { s1.ctx t with deliver := (s1.ctx t).deliver.set c.shareKey x }
  | none => s

/-- A value delivered to the secondary of a class 2 primary (15 R317). -/
def State.shareTwin (s : State) (g : Nat) (x : BitVec 128) : State :=
  if (s.ctx g).second then s else s.giveTwin g x

end Sys2Proof.Machine
end

