-- ==== Sys2Proof/Machine/Perform.lean ====
section
/-! DEFINITION. What an entry of the store containment buffer does at the home of its bytes, and when it may: released
operations on their way, the flags and records of completions (02 R36; 04 R70; 07 R127 to R137; 11 R230, R240; 12 R255
to R264; 15 R316, R321). -/

namespace Sys2Proof.Machine

/-! ### Flags and records -/

/-- The flag register with bits set. -/
def Regs.setF (r : Regs) (m : BitVec 17) : Regs := { r with f := r.f ||| m }

/-- Flags set by an engine: in the live register and in every copy that the context holds (04 R70; 15 R319). -/
def State.setFlags (s : State) (g : Nat) (m : BitVec 17) : State :=
  let c := s.ctx g
  s.setCtx g { c with
    r := c.r.setF m
    ivs := c.ivs.map fun i => { i with copy := i.copy.setF m }
    tcopy := c.tcopy.map fun r => r.setF m }

/-- ERRF. -/
def errF : BitVec 17 := 0x10000

/-- What an engine fault names besides its command (11 R230). -/
structure EngFault where
  /-- KIND. -/
  kind : Nat
  /-- TID. -/
  tid : Nat
  /-- RANKM1. -/
  rk : Nat
  /-- VA. -/
  va : Nat
  /-- C01. -/
  c01 : Nat
  /-- C23. -/
  c23 : Nat
  /-- The poisoned key, for the error log (17 R371). -/
  log : Option Nat
  deriving DecidableEq, Repr

/-- A fault of a kind at an address. -/
def EngFault.at' (kind va : Nat) : EngFault := ⟨kind, 0, 0, va, 0, 0, none⟩

/-- The engine-fault record (11 R230). -/
def EngFault.record (f : EngFault) (opc : Nat) (xcl fe : Bool) (flag : Nat) : BitVec 256 :=
  BitVec.ofNat 256 (opc % 64 + 2 ^ 6 * xcl.toNat + 2 ^ 7 * f.kind + 2 ^ 11 * (flag % 16) + 2 ^ 15 * fe.toNat +
    2 ^ 32 * (f.tid % 2 ^ 20) + 2 ^ 52 * (f.rk % 8) + 2 ^ 64 * (f.va % 2 ^ 64) + 2 ^ 128 * (f.c01 % 2 ^ 64) +
    2 ^ 192 * (f.c23 % 2 ^ 64))

/-- A record posted to a context's queue of 8, or OVF (11 R230). -/
def State.pushEf (s : State) (g : Nat) (r : BitVec 256) : State :=
  let c := s.ctx g
  s.setCtx g (if 8 ≤ c.efq.length then { c with efOvf := true } else { c with efq := c.efq ++ [r] })

/-- A context and its twin, where both are told (15 R316). -/
def State.told (s : State) (g : Nat) (both : Bool) : List Nat :=
  match both, (s.ctx g).twin with
  | true, some t => [g, t]
  | _, _ => [g]

/-- A fault posted: ERRF, the flag where FE = 1, and the record (11 R229, R230). -/
def State.postFault (s : State) (gs : List Nat) (opc : Nat) (xcl fe : Bool) (flag : Nat) (f : EngFault) : State :=
  let s1 := match f.log with
    | some pa => s.logError pa 2 3 (gs.headD 0)
    | none => s
  gs.foldl (fun s g =>
    (s.setFlags g (errF ||| (if fe then BitVec.ofNat 17 (2 ^ flag) else 0))).pushEf g (f.record opc xcl fe flag)) s1

/-! ### Operations at their homes -/

/-- Whether a key lies in an LSP. -/
def isLsp (pa : Nat) : Bool := (lspOf pa).isSome

/-- The new contents that an atomic of `n` bytes writes over `old`; none where a compare fails (12 R255, R257). -/
def atomNew (op : AtomOp) (n old x e : Nat) : Option Nat :=
  let w := 8 * n
  let less : Bool := decide (toSigned old w < toSigned x w)
  match op with
  | .add => some ((old + x) % 2 ^ w)
  | .and => some (old &&& x)
  | .or => some (old ||| x)
  | .xor => some (old ^^^ x)
  | .min => some (if less then old else x)
  | .max => some (if less then x else old)
  | .minn => some (min old x)
  | .maxn => some (max old x)
  | .xchg => some x
  | .cas => if old = e then some x else none
  | .fadd => some (add32 old x)
  | .fmax => some (fpMinMax .f32 true old x)

/-- The opcode of an atomic within the M class, for records (12 R253). -/
def AtomOp.opc : AtomOp → Nat
  | .add => 0x15
  | .and => 0x16
  | .or => 0x17
  | .xor => 0x18
  | .min => 0x19
  | .max => 0x1A
  | .minn => 0x1B
  | .maxn => 0x1C
  | .xchg => 0x1D
  | .cas => 0x1E
  | .fadd => 0x1F
  | .fmax => 0x21

/-- The opcode of a vector atomic within the M class. -/
def AtomOp.vopc : AtomOp → Nat
  | .add => 0x1F
  | .fadd => 0x1F
  | .or => 0x20
  | _ => 0x21

/-- An atomic performed at its home: the old contents, or none where its read meets an uncorrectable error (12 R255,
R256). One that writes nothing is an access too (17 R375). -/
def State.atomAt (s : State) (g : Nat) (op : AtomOp) (pa n x e : Nat) : State × Option Nat :=
  if s.poisonedRange pa n then (s.logError pa 2 0 g, none)
  else
    let old := leNat (s.peek pa n)
    match atomNew op n old x e with
    | some y => (s.perform g pa (leBytes y n), some old)
    | none => ((s.countRead g pa).wake pa, some old)

/-- A CADD performed at a key: the counter saturates (12 R258). False where the counter is poisoned. -/
def State.caddAt (s : State) (g pa n : Nat) : State × Bool :=
  if s.poisonedRange pa 8 then (s, false)
  else (s.perform g pa (leBytes (min (s.word pa + n) (2 ^ 64 - 1)) 8), true)

/-- A barrier object after an arrival of count `n`, and the status returned (12 R262). -/
def barArrive (obj n : Nat) : Nat × Nat :=
  let exp := bits obj 0 16
  let arr := bits obj 16 16
  let ph := bits obj 32 4
  let ovr := bits obj 37 1
  let mk (arr ph ovr cmpl : Nat) : Nat := exp + arr * 2 ^ 16 + ph * 2 ^ 32 + ovr * 2 ^ 37 + cmpl * 2 ^ 64
  let cmpl := bits obj 64 64
  if bits obj 36 1 = 1 || exp = 0 || bits obj 38 26 ≠ 0 then (obj, 3 + 256 * ph)
  else if exp < arr + n then (mk arr ph 1 cmpl, 2 + 256 * ph)
  else if arr + n = exp then
    (mk 0 ((ph + 1) % 16) ovr ((cmpl + 1) % 2 ^ 64), (if ovr = 1 then 2 else 4) + 256 * ph)
  else (mk (arr + n) ph ovr cmpl, (if ovr = 1 then 2 else 0) + 256 * ph)

/-- BARV performed at its bank unit: the status, or none where the object is poisoned. -/
def State.barvAt (s : State) (g pa n : Nat) : State × Option Nat :=
  if s.poisonedRange pa 16 then (s.logError pa 2 0 g, none)
  else
    let r := barArrive (leNat (s.peek pa 16)) n
    (s.perform g pa (leBytes r.1 16), some r.2)

/-- BINIT performed: PH and CMPL are kept (12 R261). -/
def State.binitAt (s : State) (g pa x : Nat) : State :=
  let obj := leNat (s.peek pa 16)
  s.perform g pa (leBytes (x % 2 ^ 16 + bits obj 32 4 * 2 ^ 32 + bits obj 64 64 * 2 ^ 64) 16)

/-- The BRK bit of a barrier object set (12 R264). -/
def State.breakBarrier (s : State) (pa : Nat) : State :=
  let b := memGet s.mem (pa + 4)
  s.poke (pa + 4) [b ||| 16]

/-- The BRK bit of a ring entry set (12 R264). -/
def State.breakRing (s : State) (core rix : Nat) : State :=
  let k := s.core core
  s.setCore core { k with rings := k.rings.set rix (setBit (k.rings.at 0 rix) 34 true) }

/-- Filled slots of a ring entry (11 R236). -/
def ringFilled (w : BitVec 128) : Nat := (bits w.toNat 64 32 + 2 ^ 32 - bits w.toNat 96 32) % 2 ^ 32

/-- Slots of a ring entry. -/
def ringSlots (w : BitVec 128) : Nat := bits w.toNat 25 8 + 1

/-- A ring entry replaced. -/
def State.setRing (s : State) (core rix : Nat) (x : BitVec 128) : State :=
  let k := s.core core
  s.setCore core { k with rings := k.rings.set rix x }

/-- A ring entry. -/
def State.ring (s : State) (core rix : Nat) : BitVec 128 := (s.core core).rings.at 0 rix

/-- A ring entry with the count of a side advanced (11 R236). -/
def ringAdvance (w : BitVec 128) (prod : Bool) (n : Nat) : BitVec 128 :=
  let at' := if prod then 64 else 96
  let x := bits w.toNat at' 32
  BitVec.ofNat 128 (w.toNat - x * 2 ^ at' + (x + n) % 2 ^ 32 * 2 ^ at')

/-- HADV performed at the bank unit of its ring (11 R240). -/
def State.hadvAt (s : State) (core rix : Nat) (prod : Bool) (n : Nat) : State :=
  let w := s.ring core rix
  if bits w.toNat 34 1 = 1 then s
  else if bits w.toNat (if prod then 35 else 36) 1 = 1 || (if prod then ringSlots w - ringFilled w else ringFilled w) < n then
    s.breakRing core rix
  else s.setRing core rix (ringAdvance w prod n)

/-! ### What a context sees of its own operations -/

/-- The byte that a list of addressed bytes last gives an address. -/
def lastByte (l : List (Nat × Byte)) (a : Nat) : Option Byte :=
  l.foldl (fun r b => if b.1 = a then some b.2 else r) none

/-- The operations of a context that are not yet performed, in entry order: those on their way, then those held. -/
def Ctx.unperformed (c : Ctx) : List Entry := c.flying ++ c.scb

/-- A byte under the stores of a context that are not yet performed (07 R135). -/
def Ctx.overlay (c : Ctx) (b : Byte) (a : Nat) : Byte :=
  c.unperformed.foldl (fun b e =>
    match e.op with
    | .store bs => (lastByte bs a).getD b
    | .bits pa m x => if pa = a then blend b m x else b
    | .shadow _ bs => (lastByte bs a).getD b
    | _ => b) b

/-- The bytes at a key as a context sees them. -/
def State.view (s : State) (g pa n : Nat) : List Byte :=
  let c := s.ctx g
  (List.range n).map fun i => c.overlay (memGet s.mem (pa + i)) (pa + i)

/-- Whether a store not yet performed supplies a byte by itself. -/
def Ctx.supplies (c : Ctx) (a : Nat) : Bool :=
  c.unperformed.any fun e => match e.op with
    | .store bs => bs.any fun b => b.1 == a
    | .shadow _ bs => bs.any fun b => b.1 == a
    | _ => false

/-- The first poisoned word that a read of a context meets, in a range: the bytes its own stores supply are not read
from memory. -/
def State.meetsPoison (s : State) (g pa n : Nat) : Option Nat :=
  if s.poisonedRange pa n then
    ((List.range n).map (pa + ·)).find? fun a => s.poisoned a && !(s.ctx g).supplies a
  else none

/-- The bytes that an operation of the synchronisation chapter touches: key and length (12 R251). -/
def EntOp.syncRanges : EntOp → List (Nat × Nat)
  | .atomic _ pa n _ _ _ => [(pa, n)]
  | .vatomic _ _ l => l.map fun x => (x.2.1, 4)
  | .cadd pa _ => [(pa, 8)]
  | .binit pa _ => [(pa, 16)]
  | .barv pa _ _ => [(pa, 16)]
  | .obrk pa => [(pa, 16)]
  | _ => []

/-- Whether a load overlaps a synchronisation operation of the context that is not yet performed (12 R251). -/
def Ctx.overlapsSync (c : Ctx) (ld : Load) : Bool :=
  c.unperformed.any fun e => e.op.syncRanges.any fun r => ld.parts.any fun p =>
    decide (p.2.1 / 8 < r.1 + r.2) && decide (r.1 < (p.2.1 + p.2.2 + 7) / 8)

/-! ### Entries performed -/

/-- Whether a context performs an operation of an entry at a key: all but those outside the LSPs of entries that follow
the twin's (15 R316). -/
def Ctx.performs (c : Ctx) (iv pa : Nat) : Bool := !c.follows (some iv) || isLsp pa

/-- A non-returning operation that met an uncorrectable error (12 R256): told to both twins where it is performed once. -/
def State.poisonedOp (s : State) (g opc pa c01 : Nat) (va : Word) : State :=
  s.postFault (s.told g (!isLsp pa)) opc false false 0 ⟨3, 0, 0, va.toNat, c01, 0, none⟩

/-- The lanes of a vector atomic performed, in lane order (12 R257). -/
def State.vatomicAt (s : State) (g iv : Nat) (op : AtomOp) (tid : Nat) (l : List (Nat × Nat × Nat × Word)) : State :=
  l.foldl (fun s e =>
    if !(s.ctx g).performs iv e.2.1 then s
    else
      match s.atomAt g op e.2.1 4 e.2.2.1 0 with
      | (s1, none) => s1.poisonedOp g op.vopc e.2.1 e.1 e.2.2.2
      | (s1, some old) =>
        let nan := (op == .fadd || op == .fmax) && val32 ((atomNew op 4 old e.2.2.1 0).getD 0) == .nan
        if nan then s1.kernelCount (s1.ctx g).al.kernel (4 * tid + 2, 1) else s1) s

/-- The bytes that an operation reads or writes at its home: keys and lengths. -/
def EntOp.ranges : EntOp → List (Nat × Nat)
  | .store bs => bs.map fun b => (b.1, 1)
  | .bits pa _ _ => [(pa, 1)]
  | .atomic _ pa n _ _ _ => [(pa, n)]
  | .vatomic _ _ l => l.map fun x => (x.2.1, 4)
  | .cadd pa _ => [(pa, 8)]
  | .binit pa _ => [(pa, 16)]
  | .barv pa _ _ => [(pa, 16)]
  | .obrk pa => [(pa, 16)]
  | _ => []

/-- Whether two operations meet in some 8-byte granule (07 R129). -/
def EntOp.meets (x y : EntOp) : Bool :=
  x.ranges.any fun a => y.ranges.any fun b => decide (a.1 / 8 ≤ (b.1 + b.2 - 1) / 8) && decide (b.1 / 8 ≤ (a.1 + a.2 - 1) / 8)

/-- Whether an operation touches the LSP of a core. -/
def EntOp.inLsp (x : EntOp) (core : Nat) : Bool := x.ranges.any fun a => lspOf a.1 == some core

/-- The core whose ring an operation acts on (11 R240; 12 R264). -/
def EntOp.ringCore : EntOp → Option Nat
  | .hadv k _ _ _ => some k
  | .obrkRing k _ => some k
  | _ => none

/-- Whether an operation of a context of `core` may be performed before an earlier one that is still on its way: not
where they meet (07 R129), where both go to the context's own LSP (R127), and a CADD or an arrival never (R137), nor a
HADV before an earlier one to that LSP or its rings (11 R240), nor an OBRK of a ring before an earlier operation on it. -/
def EntOp.passes (core : Nat) (earlier x : EntOp) : Bool :=
  match x with
  | .cadd _ _ => false
  | .barv _ _ _ => false
  | .hadv k _ _ _ => !earlier.inLsp k && earlier.ringCore != some k
  | .obrkRing k _ => earlier.ringCore != some k
  | _ => !(earlier.meets x) && !(earlier.inLsp core && x.inLsp core)

/-- The request of an entry (17 R368). -/
def Entry.req (e : Entry) (g : Nat) : MemReq := .op g e.bundle e.slot

/-- Whether the units of an operation serve it: none holds it back, and where it waits in a queue it is the first (17 R364 to
R368). -/
def State.serves (s : State) (g : Nat) (e : Entry) : Bool :=
  e.op.ranges.all fun r => (s.waitsAt r.1).isNone && (!s.queued (e.req g) r.1 || !s.ahead (e.req g) r.1)

/-- The places in a list of operations on their way that may be performed next. -/
def State.mayPerform (s : State) (g : Nat) : List Entry → List Entry → Nat → List Nat
  | _, [], _ => []
  | before, e :: r, i =>
    (if s.serves g e && before.all fun x => x.op.passes (coreOf g) e.op then [i] else []) ++ s.mayPerform g (before ++ [e]) r (i + 1)

/-- An operation on its way joins the queues of the units that hold it back (17 R368). -/
def State.joinQueues (s : State) (g : Nat) (e : Entry) : State :=
  e.op.ranges.foldl (fun s r => if s.holdsBack (e.req g) r.1 then s.arrive (e.req g) r.1 else s) s

/-- Whether the queue of a unit that holds an operation back is full: its entry stays unreleased (17 R368). -/
def State.queueFull (s : State) (g : Nat) (e : Entry) : Bool :=
  e.op.ranges.any fun r => s.holdsBack (e.req g) r.1 && decide (512 ≤ s.queueLength r.1)

/-- Whether a path bit belongs to a mask (07 R122). -/
def onPath (paths : BitVec 6) (p : Nat) : Bool := paths.getLsbD p

/-- Whether a command of `g` counts as one of context `h`: its own, or for a class 2 secondary those that its primary
performs for both (15 R316). -/
def Ctx.owns (c : Ctx) (h g : Nat) : Bool := g == h || (c.second && c.twin == some g)

/-- The path of the memory reads of an X operation (07 R122; 10 R212, R213, R214); none for those that read none. -/
def mxReadPath (op : Nat) : Option Nat :=
  match op with
  | 1 => some 3
  | 2 => some 2
  | 3 => some 2
  | 7 => some 2
  | _ => none

/-- Whether the primary of a class 2 secondary still has released operations on named paths to perform for both, or entries of agreed
intervals (15 R316). -/
def State.twinOpen (s : State) (g : Nat) (paths : BitVec 6) : Bool :=
  match (s.ctx g).second, (s.ctx g).twin with
  | true, some t =>
    let d := s.ctx t
    (onPath paths 0 && d.flying != []) ||
      d.scb.any fun e => onPath paths e.path && !(d.ivs.any fun i => i.id == e.iv && !i.agreed)
  | _, _ => false

/-- Whether accesses of a context on named paths, of bundles before one, are still to be performed, those in the buffer
aside, and for a class 2 secondary those that its primary performs for it (07 R139; 15 R316). -/
def State.pathOpen (s : State) (g : Nat) (paths : BitVec 6) (bundle : Nat) : Bool :=
  let c := s.ctx g
  s.twinOpen g paths || (onPath paths 0 && c.flying.any fun e => decide (e.bundle < bundle)) ||
    s.cmds.any (fun (e : Nat × EngCmd) => c.owns g e.2.c.g && !e.2.dead && onPath paths e.2.path && decide (e.2.bundle < bundle)) ||
    s.subs.any (fun (e : Nat × Sub) => c.owns g e.2.c.g && onPath paths 4 && decide (e.2.bundle < bundle)) ||
    c.mx.any fun o => o.eff == .held && decide (o.req.bundle < bundle) && (mxReadPath o.req.op).any (onPath paths)

/-- The entries of a bundle that wait for a new interval, or for a stage slot (15 R322). -/
def Ctx.entering (c : Ctx) : List Entry := c.todo.flatMap fun t => match t with | .enter es => es | _ => []

/-- Whether some FENCE marker in the buffer, or on its way there, made by a bundle before `bundle`, orders accesses on a path behind
others of its context that are still to be performed (07 R139; 15 R322). -/
def State.fencedAt (s : State) (g path bundle : Nat) : Bool := go [] ((s.ctx g).scb ++ (s.ctx g).entering)
where
  /-- The entries from here on, with those before. -/
  go : List Entry → List Entry → Bool
    | _, [] => false
    | before, e :: r =>
      (match e.op with
        | .fence bef aft =>
          onPath aft path && decide (e.bundle < bundle) &&
            (before.any (fun x => onPath bef x.path && decide (x.bundle < e.bundle)) || s.pathOpen g bef e.bundle)
        | _ => false) || go (before ++ [e]) r

/-- Whether a command reads memory through an engine for its own bundle (02 R36). -/
def CmdOp.reads : CmdOp → Bool
  | .cpyH => true
  | .cpyA => true
  | .cpypH => true
  | .cpypA => true
  | .cpyw => true
  | .coll => true
  | .fput => true
  | .attq => true
  | _ => false

/-- Bytes about to be overwritten kept for a command of the same bundle, the oldest first (02 R36). -/
def Cmd.keep (c : Cmd) (l : List (Nat × Byte)) : Cmd := if c.op.reads then { c with pre := c.pre ++ l } else c

/-- The bytes of ranges kept for the commands of a bundle that have not been performed, and for its X operations that still wait
to read: every memory read of a bundle precedes its memory writes (02 R36; 07 R126). -/
def State.keepOld (s : State) (g bundle : Nat) (rs : List (Nat × Nat)) : State :=
  let c := s.ctx g
  let held := c.scb.any fun e => e.bundle == bundle && (match e.op with | .cmd m => m.op.reads | _ => false)
  let open' := s.cmds.any fun (e : Nat × EngCmd) => e.2.c.g == g && e.2.bundle == bundle && !e.2.dead && e.2.c.op.reads
  let waits (o : MxOp) : Bool := o.eff == .held && o.req.bundle == bundle
  if !held && !open' && !c.mx.any waits then s
  else
    let old := rs.flatMap fun r => (List.range r.2).map fun i => (r.1 + i, memGet s.mem (r.1 + i))
    let s1 := s.setCtx g { c with
      scb := c.scb.map fun e =>
        match e.op with
        | .cmd m => if e.bundle == bundle then { e with op := .cmd (m.keep old) } else e
        | _ => e
      mx := c.mx.map fun o => if waits o then { o with pre := o.pre ++ old } else o }
    { s1 with cmds := s1.cmds.map fun (e : Nat × EngCmd) =>
      (e.1, if e.2.c.g == g && e.2.bundle == bundle && !e.2.dead then { e.2 with c := e.2.c.keep old } else e.2) }

/-- The bytes at a key, those kept of them as they were before a bundle's writes (02 R36). -/
def State.peekPre (s : State) (pre : List (Nat × Byte)) (pa n : Nat) : List Byte :=
  (List.range n).map fun i => ((pre.find? fun b => b.1 == pa + i).map (·.2)).getD (memGet s.mem (pa + i))

/-- The bytes at a key as a command reads them. -/
def State.peekFor (s : State) (c : Cmd) (pa n : Nat) : List Byte := s.peekPre c.pre pa n

/-- What a plan writes: key, bit, number of bits, value. -/
abbrev BitWrite := Nat × Nat × Nat × Nat

/-- The bytes that writes leave: by key, the mask of the bits written and their values. -/
def writeBytes (ws : List BitWrite) : SMap (Byte × Byte) :=
  ws.foldl (fun m w =>
    if w.2.1 = 0 && w.2.2.1 % 8 = 0 then
      (List.range (w.2.2.1 / 8)).foldl (fun m i => m.set (w.1 + i) (0xFF, BitVec.ofNat 8 (bits w.2.2.2 (8 * i) 8))) m
    else
      let old := m.at (0, 0) w.1
      let k : Byte := BitVec.ofNat 8 ((2 ^ w.2.2.1 - 1) * 2 ^ w.2.1)
      m.set w.1 (old.1 ||| k, blend old.2 k (BitVec.ofNat 8 (w.2.2.2 * 2 ^ w.2.1)))) []

/-- Writes performed: whole bytes by 8-byte granule, a partly written byte by itself. -/
def State.performWrites (s : State) (g : Nat) (ws : List BitWrite) : State :=
  let m := writeBytes ws
  let whole := (m.filter fun (e : Nat × (Byte × Byte)) => e.2.1 == 0xFF).map fun (e : Nat × (Byte × Byte)) => (e.1, e.2.2)
  let part := m.filter fun (e : Nat × (Byte × Byte)) => e.2.1 != 0xFF
  part.foldl (fun s (e : Nat × (Byte × Byte)) => s.performAs 3 g e.1 [blend (memGet s.mem e.1) e.2.1 e.2.2]) (s.performBytes 3 g whole)

/-- The fault of a command that still waits on an absent tile when its task is killed (R422). -/
def absentFault (k : Nat × Nat × Nat) : EngFault := ⟨2, k.1, 0, if k.1 = 0 then k.2.2 else k.2.1 * 2 ^ 16, 0, 0, none⟩

/-- An entry's operation performed at its home (07 R135; 15 R321). -/
def State.performOp (s : State) (g : Nat) (e : Entry) : State :=
  let c := s.ctx g
  match e.op with
  | .store bs => s.performBytes 1 g (bs.filter fun b => c.performs e.iv b.1)
  | .bits pa m x => if c.performs e.iv pa then s.perform g pa [blend (memGet s.mem pa) m x] else s
  | .atomic op pa n x ex _ =>
    if !c.performs e.iv pa then s
    else
      match s.atomAt g op pa n x ex with
      | (s1, none) => s1.poisonedOp g op.opc pa 0 e.va
      | (s1, some _) => s1
  | .vatomic op tid lanes => s.vatomicAt g e.iv op tid lanes
  | .cadd pa x =>
    if !c.performs e.iv pa then s
    else
      match s.caddAt g pa x.toNat with
      | (s1, true) => s1
      | (s1, false) => (s1.logError pa 2 0 g).poisonedOp g 0x22 pa 0 e.va
  | .binit pa x => s.binitAt g pa x
  | .barv pa n _ =>
    match s.barvAt g pa n with
    | (s1, none) => s1.poisonedOp g 0x25 pa 0 e.va
    | (s1, some _) => s1
  | .obrk pa => s.breakBarrier pa
  | .obrkRing core rix => s.breakRing core rix
  | .hadv core rix prod n => s.hadvAt core rix prod n
  | _ => s

/-- A released entry performed, the bytes it overwrites kept for the commands of its bundle. -/
def State.performEntry (s : State) (g : Nat) (e : Entry) : State :=
  ((s.keepOld g e.bundle e.op.ranges).performOp g e).leave (e.req g)

/-- Every operation of a context that is on its way performed, in order. -/
def State.flush (s : State) (g : Nat) : State :=
  let c := s.ctx g
  c.flying.foldl (fun s e => s.performEntry g e) (s.setCtx g { c with flying := [] })

end Sys2Proof.Machine
end

