-- ==== Sys2Proof/Machine/MxOps.lean ====
section
/-! DEFINITION. Matrix operations of a context: what waits for what, the start on a part, and the landing (10 R196,
R197, R203, R205 to R208, R212 to R223; 20 R401). -/

namespace Sys2Proof.Machine

/-- The part of an X operation: 0 weight path, 1 array, 2 row port (R196). -/
def mxPart (op : Nat) : Nat := if op = 1 then 0 else if op = 2 || op = 3 then 1 else 2

/-- Steps for which an operation on `m` rows keeps its part (R221). -/
def mxBusy (op m cfg : Nat) : Nat :=
  match op with
  | 1 => 72
  | 2 | 3 => if cfgFmt cfg = 4 then (m + 3) / 4 else (m + 1) / 2 * cfgP cfg
  | 6 => 6 + (m + 3) / 4
  | 7 | 8 => 4 + (m + 3) / 4
  | 11 => 2 + (m + 3) / 4
  | _ => 40

/-- The weight buffer of a core. -/
def Core.wb (k : Core) (i : Nat) : WBuf := if i = 0 then k.wb0 else k.wb1

/-- A weight buffer replaced. -/
def Core.setWb (k : Core) (i : Nat) (b : WBuf) : Core := if i = 0 then { k with wb0 := b } else { k with wb1 := b }

/-- The physical row of a row of the allocation (R204). -/
def Alloc.physRow (a : Alloc) (r : Nat) : Nat := a.regions.getD (r / 128) 0 * 128 + r % 128

/-- What an X operation on rows must wait for before it starts (R196, R212, R214, R235): an operation held back by a FENCE
has not begun on its part, and one that follows it there waits behind it without holding the bundle (07 R140). -/
def State.mxWaits (s : State) (g op ds : Nat) (rows : List Nat) : Option StallOn :=
  let c := s.ctx g
  let k := s.core (coreOf g)
  let part := mxPart op
  let meets (o : MxOp) : Bool := o.req.rows.any fun x => rows.contains x
  let rowPort (n : Nat) : Bool := n == 7 || n == 10 || n == 11
  if c.mx.any fun o => o.part == part && o.eff != .held && decide (c.mstep < o.busyTo) then some (.part part)
  else if part = 1 && c.mx.any (fun o => !o.landed && rowPort o.req.op && meets o) then some .rows
  else if rowPort op && c.mx.any (fun o => !o.landed && o.part == 1 && meets o) then some .rows
  else if part ≠ 0 && c.mx.any (fun o => !o.landed && o.req.op == 7 && meets o) then some .rows
  else if part = 1 && k.wload.any (fun w => w.1 == bits ds 16 1) then some .rows
  else if part = 0 && k.wload != [] then some .rows
  else none

/-- The rows that an operation writes as it lands: an XFIX only the one that it corrects (R223). -/
def MxOp.writes (o : MxOp) : List Nat :=
  match o.eff with
  | .mac _ _ _ => o.req.rows
  | .ld _ _ => o.req.rows
  | .clr _ => o.req.rows
  | .status _ _ (some (row, _, _)) => [row]
  | _ => []

/-- The groups and the buffer that an operation writes as it lands, for the marks of R223: 0 to 7 groups, 8 and 9 buffers. -/
def MxOp.dirty (o : MxOp) : List Nat :=
  match o.eff with
  | .wld wb _ none => [8 + wb]
  | _ => (o.writes.map (· / 64)).eraseDups

/-- The bytes of an operand row. -/
def State.peekPieces (s : State) (pre : List (Nat × Byte)) (ps : List (Nat × Nat)) : List Byte :=
  ps.flatMap fun p => s.peekPre pre p.1 p.2

/-- Bytes laid over pieces, as addressed runs. -/
def cutPieces : List (Nat × Nat) → List Byte → List (Nat × List Byte)
  | [], _ => []
  | (pa, n) :: r, bs => (pa, bs.take n) :: cutPieces r (bs.drop n)

/-- t values of a k-step, one for each named row (R205). -/
def State.mxProducts (s : State) (pre : List (Nat × Byte)) (r : XReq) (buf : WBuf) : List (Nat × Vec × Word × Bool) :=
  let fmt := cfgFmt r.cfg
  let bs := blockSize fmt
  let cBf := if fmtFloat fmt then (List.range 128).map buf.cBf else []
  let cBi := if fmtFloat fmt then [] else (List.range 128).map buf.cBi
  let base := ((r.pas.headD []).headD (0, 0)).1
  r.rows.zipIdx.map fun e =>
    let a := blockElems (s.peekPre pre (base + e.2 * bs) bs) fmt
    let (v, w) := stepRow fmt (cfgP r.cfg) a buf cBf cBi (rowEntry r.q1 e.2)
    (e.1, v, w, r.op == 3)

/-- Results of an XEPI on one row: patterns and exception kinds (R215). -/
def epiRow (r : XReq) (row : Vec) : List El :=
  let ofmt := bits r.ds 16 3
  (List.range 128).map fun n =>
    epiEntry (cfgFmt r.cfg) ofmt (bits r.ds 20 2) (bits r.ds 22 1 == 1) (rowEntry row n) (rowEntry r.q1 n) (rowEntry r.q2 n)

/-- The payload of an XACCST or XEPI row, with its exceptions. -/
def mxPayload (r : XReq) (row : Vec) : List Byte × List Nat :=
  if r.op = 8 then (leBytes row.toNat 512, [])
  else
    let es := epiRow r row
    (epiPayload (bits r.ds 16 3) (bits r.ds 19 1 == 1) (es.map (·.x)), es.flatMap (·.exc))

/-- The command of an XACCST or XEPI that has taken its payload (R214). -/
def mxCmd (g : Nat) (c : Ctx) (r : XReq) (payload : List (List Byte)) : Cmd :=
  { op := if r.op = 8 then .xaccst else .xepi, g := g, opc := r.op, xcl := true,
    fe := bits r.ds 23 1 == 1, flag := bits r.ds 24 4, ctr := none, ws := [r.wa, r.wb], nh := 0,
    rows := ((r.pas.zip payload).map fun e => cutPieces e.1 e.2).flatten, cfg := r.ds,
    asid := c.space.asid, ttb := c.space.ttb, home := c.al.home, pos := c.al.pos, kernel := c.al.kernel, pre := [] }

/-- A context with an operation added to those in flight. -/
def Ctx.addMx (c : Ctx) (o : MxOp) : Ctx := { c with mx := c.mx ++ [o] }

/-- The bytes that an X operation reads: keys and lengths (R212, R213, R214). -/
def XReq.reads (r : XReq) : List (Nat × Nat) := if (mxReadPath r.op).isSome then r.pas.flatten else []

/-- The bytes that rows of a command write: keys and lengths (R214). -/
def Cmd.rowRanges (c : Cmd) : List (Nat × Nat) := c.rows.map fun r => (r.1, r.2.length)

/-- Whether two lists of ranges meet in some 8-byte granule (07 R129). -/
def rangesMeet (a b : List (Nat × Nat)) : Bool :=
  a.any fun x => b.any fun y => decide (x.1 / 8 ≤ (y.1 + y.2 - 1) / 8) && decide (y.1 / 8 ≤ (x.1 + x.2 - 1) / 8)

/-- Whether rows that the context has sent by XACCST or XEPI in earlier bundles, and that are not performed yet, meet bytes
that a MAT-path operation reads (07 R129). -/
def State.matBehind (s : State) (g : Nat) (r : XReq) : Bool :=
  let c := s.ctx g
  let sends (m : Cmd) : Bool := (m.op == .xaccst || m.op == .xepi) && rangesMeet m.rowRanges r.reads
  mxReadPath r.op == some 2 &&
    (c.scb.any (fun e => (match e.op with | .cmd m => sends m | _ => false) && decide (e.bundle < r.bundle)) ||
      s.cmds.any fun (e : Nat × EngCmd) => c.owns g e.2.c.g && !e.2.dead && sends e.2.c && decide (e.2.bundle < r.bundle))

/-- Whether the memory reads of an X operation wait for earlier accesses (07 R129, R139). -/
def State.mxBehind (s : State) (g : Nat) (r : XReq) : Bool :=
  (mxReadPath r.op).any (fun p => s.fencedAt g p (r.bundle + 1)) || s.matBehind g r

/-- The key at which a memory unit holds back the reads of an X operation (17 R364 to R368). -/
def State.mxHeld (s : State) (g : Nat) (r : XReq) : Option Nat :=
  (r.reads.find? fun p => s.holdsBack (.mx g r.bundle) p.1).map (·.1)

/-- Whether an operation of an earlier bundle on the same part still waits to begin: operations of a part begin in issue order
(R208; 07 R140). -/
def Ctx.mxQueued (c : Ctx) (r : XReq) : Bool :=
  c.mx.any fun o => o.eff == .held && o.part == mxPart r.op && decide (o.req.bundle < r.bundle)

/-- A state in which everything of a context but the entries of its OPEN interval has been performed. -/
def State.onlyOpen (s : State) (g : Nat) : State :=
  let c := s.ctx g
  { s with cmds := [], subs := [] }.setCtx g { c with scb := c.scb.filter fun e => e.iv == c.openId, flying := [] }

/-- Whether an operation that waits to begin waits for entries of the OPEN interval of its context, or behind one that does: it
cannot begin before that interval closes (R64 against 07 R139; log 62). -/
def State.mxStuck (s : State) (g : Nat) (o : MxOp) : Bool :=
  o.eff == .held && (s.ctx g).mx.any fun x =>
    x.eff == .held && x.part == o.part && decide (x.req.bundle ≤ o.req.bundle) && (s.onlyOpen g).mxBehind g x.req

/-- What an X operation that reads memory brings, and the engine steps from its start to its landing; none for XACCLD,
which lands when its data arrives (R221). All its bytes are read at its start, the model's choice: the manual places A reads in the
array's occupancy and fixes no step (R213; DESIGN CHOICE, log 15). -/
def State.mxRead (s : State) (pre : List (Nat × Byte)) (r : XReq) : Option Nat × MxEff :=
  let fmt := cfgFmt r.cfg
  let base := ((r.pas.headD []).headD (0, 0)).1
  match r.op with
  | 1 =>
    let (buf, bad) := readImage (s.peekPre pre base (imageSize fmt (cfgSp r.cfg))) fmt (cfgSp r.cfg) (r.wb.truncate 32)
    (some 72, .wld (bits r.ds 0 1) buf (bad.map fun o => r.wa + BitVec.ofNat 64 o))
  | 7 => (none, .ld (fmtFloat fmt) (r.rows.zip (r.pas.map fun ps => BitVec.ofNat 4096 (leNat (s.peekPieces pre ps)))))
  | _ =>
    (some (14 + mxBusy r.op r.rows.length r.cfg), .mac (r.op == 3) (fmtFloat fmt) (s.mxProducts pre r (r.buf.getD WBuf.reset)))

/-- The start of an X operation on its part (R221): the operation in flight, and for XACCST and XEPI the entry of the
command with its folds. One whose automatic check fails takes an entry and no payload (R215; 15 R321; 20 R408). XCHK and XFIX
read and compare at their start, the model's choice: the manual gives the step at which they write (R217, R218; DESIGN CHOICE, log
15). The exceptions of XEPI are charged to the EXTID of its start (log 64). -/
def State.mxStart (s : State) (g : Nat) (r : XReq) : State × Option (EntOp × List Word) :=
  let c := s.ctx g
  let k := s.core (coreOf g)
  let fmt := cfgFmt r.cfg
  let fp := fmtFloat fmt
  let m := r.rows.length
  let busy := mxBusy r.op m r.cfg
  let op (land : Option Nat) (eff : MxEff) (landed : Bool) : MxOp := ⟨r, mxPart r.op, c.mstep + busy, land, eff, landed, []⟩
  let put (o : MxOp) : State × Option (EntOp × List Word) := (s.setCtx g (c.addMx o), none)
  let checked := 1 ≤ c.pcls || cfgXC r.cfg
  let fails := checked && (match k.acc.tests fp (cfgTol r.cfg) r.rows with | (a, b, _) => a != [] || b != [])
  if (mxReadPath r.op).isSome then
    if s.mxBehind g r || c.mxQueued r then put (op none .held false)
    else
      match s.mxHeld g r with
      | some pa => ((put (op none .held false)).1.waitFor (.mx g r.bundle) pa, none)
      | none =>
        let (d, eff) := s.mxRead [] r
        ((put (op (d.map (c.mstep + ·)) eff false)).1.countReads g (r.reads.map (·.1)), none)
  else
    match r.op with
    | 9 =>
      put (op (some (c.mstep + 40)) (.status r.d (k.acc.chkStatus fp (cfgTol r.cfg) (bits r.ds 7 9) r.rows) none) false)
    | 10 =>
      let w := r.wa.toNat
      if bits w 32 1 = 0 then put (op (some (c.mstep + 40)) (.status r.d 1 none) false)
      else
        let row := r.rows.headD 0
        let col := bits w 25 7
        let (code, x) := k.acc.fix fp (cfgTol r.cfg) row col
        put (op (some (c.mstep + 40)) (.status r.d (BitVec.ofNat 64 code) (x.map fun v => (row, col, BitVec.ofNat 32 v))) false)
    | 11 => put (op (some (c.mstep + busy)) (.clr fp) false)
    | _ =>
      if fails then
        (s.setCtx g (c.addMx (op (some (c.mstep + busy)) (.chk true) false)), some (.cmd { mxCmd g c r [] with rows := [] }, []))
      else
        let rows := r.rows.map fun x => mxPayload r (k.acc.row x)
        let folds := (rows.zipIdx.map fun e =>
          [r.wa + BitVec.ofNat 64 e.2 * r.wb, BitVec.ofNat 64 (transportSum e.1.1)]).flatten
        let tid := c.r.extid.toNat % 2 ^ 20
        let excs := rows.flatMap (·.2)
        let s1 := s.setCtx g (c.addMx (op none (.chk false) true))
        let s2 := excs.foldl (fun s e => s.countExc g (4 * tid + e, 1)) s1
        let k2 := s2.core (coreOf g)
        (s2.setCore (coreOf g) { k2 with outst := k2.outst + 1 }, some (.cmd (mxCmd g c r (rows.map (·.1))), folds))

/-- An operation that was held back starts: it reads memory, keeps its part and lands as one that starts now (07 R139). -/
def State.mxResume (s : State) (g : Nat) (o : MxOp) : State :=
  let c := s.ctx g
  let (d, eff) := s.mxRead o.pre o.req
  let o' := { o with busyTo := c.mstep + mxBusy o.req.op o.req.rows.length o.req.cfg, land := d.map (c.mstep + ·), eff := eff }
  (s.setCtx g { c with mx := c.mx.map fun x => if x == o then o' else x }).countReads g (o.req.reads.map (·.1))

/-- The armed array injector on a row about to be written: the bit to invert, with the injector disarmed (20 R401). -/
def State.inject (s : State) (core row : Nat) : State × Option (Nat × Nat) :=
  let k := s.core core
  let w := k.ainj.toNat
  if s.msc.dbgen.toNat % 2 = 1 && bits w 0 1 = 1 && bits w 13 9 = row then
    (s.setCore core { k with ainj := setBit k.ainj 0 false }, some (bits w 6 7, bits w 1 5))
  else (s, none)

/-- One row of a k-step accumulated, with its saturations counted (R205). -/
def State.mxAccum (s : State) (g : Nat) (fp z : Bool) (row : Nat) (t : Vec) (tc : Word) (tid : Nat) : State :=
  let (s1, inv) := s.inject (coreOf g) row
  let k := s1.core (coreOf g)
  let (acc, sats) := k.acc.stepInto fp z row t tc inv
  let s2 := s1.setCore (coreOf g) { k with acc := acc }
  if sats = 0 then s2 else s2.countExc g (4 * tid, sats)

/-- A chain of a context replaced. -/
def Ctx.setChain (c : Ctx) (ch : Chain) : Ctx := { c with chains := c.chains.map fun x => if x.id = ch.id then ch else x }

/-- The chain that an operation belongs to. -/
def Ctx.chainOf (c : Ctx) (r : XReq) : Option Chain := r.chain.bind fun i => c.chains.find? (·.id == i)

/-- What a k-step that lands does, by row, with the checksum row of its region (R205, R206). -/
def MxOp.parts (o : MxOp) : List KPart :=
  match o.eff with
  | .mac _ fp t => .sums fp (o.req.rows.headD 0 / 128) (t.map (·.2.1)) :: t.map (.row fp)
  | _ => []

/-- A part of a k-step done (R205, R206). -/
def State.doPart (s : State) (g : Nat) (p : KPart) : State :=
  match p with
  | .row fp t => s.mxAccum g fp false t.1 t.2.1 t.2.2.1 ((s.ctx g).r.extid.toNat % 2 ^ 20)
  | .sums fp region ts =>
    let k := s.core (coreOf g)
    s.setCore (coreOf g) { k with acc := k.acc.chkUpdate fp region [] ts }

/-- Parts of k-steps of a chain done one after another, each freely chosen of those left, until `stop` says so or none is left;
those that are left. Parts of one row, and the sums, come in any order so (R208; log 7). -/
def State.doParts (s : State) (g seed : Nat) (stop : Nat → Bool) : Nat → List KPart → State × List KPart
  | 0, l => (s, l)
  | n + 1, l =>
    if stop n then (s, l)
    else
      let i := Config.chainPlace (seed * 65536 + n) % l.length
      match l[i]? with
      | some p => (s.doPart g p).doParts g seed stop n (l.eraseIdx i)
      | none => (s, l)

/-- The word that a chain or an XMACZ folds (R222). -/
def AccStore.foldWord (a : AccStore) (op : Nat) (rows : List Nat) : Word :=
  let cols := (rows.eraseDups.map fun r => (a.col r).toNat % 2 ^ 32).sum
  let regions := (rows.map (· / 128)).eraseDups
  let rws := (regions.map fun r => ((List.range 128).map fun n => (a.chk r n).toNat % 2 ^ 32).sum).sum
  BitVec.ofNat 64 (op * 2 ^ 56 + (cols + rws) % 2 ^ 56)

/-- A word folded into SIGHI in classes 1 and 2 (15 R325). -/
def Ctx.foldHi (c : Ctx) (w : Word) : Ctx := if 1 ≤ c.pcls then { c with sighi := sigFold c.sighi w } else c

/-- Words folded into SIGLO in classes 1 and 2. -/
def Ctx.foldLo (c : Ctx) (ws : List Word) : Ctx := if 1 ≤ c.pcls then { c with siglo := sigFolds c.siglo ws } else c

/-- Whether the last row of a chain has landed after its XEND (R222): an XWLD in flight writes none. -/
def Ctx.chainDone (c : Ctx) (ch : Chain) : Bool :=
  ch.closed && !(c.mx.any fun o => !o.landed && o.req.op != 1 && o.req.chain == some ch.id)

/-- What k-steps of the chains that are over have left to do, done. -/
def State.chainEnds (s : State) (g : Nat) : State :=
  let l := ((s.ctx g).chains.filter (s.ctx g).chainDone).flatMap (·.late)
  if l = [] then s else (s.doParts g s.ticks (fun _ => false) l.length l).1

/-- The folds of the chains whose last row has landed after their XEND; these chains are then done (R222). -/
def State.chainFolds (s0 : State) (g : Nat) : State :=
  let s := s0.chainEnds g
  let c := s.ctx g
  let (done, left) := c.chains.partition c.chainDone
  s.setCtx g (done.foldl (fun (c : Ctx) ch => c.foldHi ((s.core (coreOf g)).acc.foldWord 5 ch.wrote)) { c with chains := left })

/-- Marks an operation as landed. -/
def markLanded (o : MxOp) (l : List MxOp) : List MxOp := l.map fun x => if x == o then { x with landed := true } else x

/-- A k-step of a chain of class 0 or 1 lands: of what the k-steps of the chain have still to do, some is done, in a free order
(R208; log 7). -/
def State.mxLate (s : State) (g : Nat) (ch : Chain) (o : MxOp) : State :=
  let l := ch.late ++ o.parts
  let seed := s.ticks + o.req.bundle
  let (s1, left) := s.doParts g seed (fun n => Config.freeBool (seed * 65536 + n)) l.length l
  let c1 := s1.ctx g
  s1.setCtx g (match c1.chains.find? (·.id == ch.id) with
    | some x => c1.setChain { x with late := left }
    | none => c1)

/-- The chain in which the k-steps of an operation are applied in any order: one of class 0 or 1, of an XMAC (R208). -/
def Ctx.freeChain (c : Ctx) (o : MxOp) : Option Chain := if c.pcls = 2 || o.req.op ≠ 2 then none else c.chainOf o.req

/-- An operation lands (R205, R206, R212 to R219), the status of XCHK and XFIX aside, which lands with the other results: the
state, and the trap it raises. The saturations of a k-step are charged to the EXTID of its landing, the model's choice: the manual
says 'as read at issue' of vector instructions only (R205; DESIGN CHOICE, log 64). -/
def State.mxLand (s : State) (g : Nat) (o : MxOp) : State × Option TrapReq :=
  let c := s.ctx g
  let core := coreOf g
  let c0 := { c with mx := markLanded o c.mx }
  let s0 := (s.setCtx g (match c0.chainOf o.req with
    | some ch => c0.setChain { ch with wrote := if o.req.op = 1 then ch.wrote else ch.wrote ++ o.req.rows }
    | none => c0)).markDirty g o.dirty
  let k := s0.core core
  let tid := c.r.extid.toNat % 2 ^ 20
  let trap (cause : Nat) (va : Word) (how : How) : TrapReq := ⟨cause, 0, o.req.pc, o.req.slot, va, 0, 0, 0, how⟩
  match o.eff with
  | .held => (s0, none)
  | .wld wb buf none => (s0.setCore core (k.setWb wb buf), none)
  | .wld _ _ (some va) => (s0, some (trap 0x09 va .handler))
  | .mac z fp t =>
    match c.freeChain o with
    | some _ => (s0.mxLate g (((s0.ctx g).chainOf o.req).getD ⟨0, false, false, [], [], false, []⟩) o, none)
    | none =>
    let region := o.req.rows.headD 0 / 128
    let minus := if z then o.req.rows.map k.acc.row else []
    let s1 := s0.setCore core { k with acc := k.acc.chkUpdate fp region minus (t.map (·.2.1)) }
    let s2 := t.foldl (fun s e => s.mxAccum g fp z e.1 e.2.1 e.2.2.1 tid) s1
    let k2 := s2.core core
    let s3 := s2.setCore core { k2 with acc := if z then k2.acc.validate o.req.rows else k2.acc }
    (if z && o.req.chain.isNone then s3.setCtx g ((s3.ctx g).foldHi ((s3.core core).acc.foldWord 3 o.req.rows)) else s3, none)
  | .ld fp data => (s0.setCore core { k with acc := k.acc.replace fp false data }, none)
  | .chk fails => (s0, if fails then some (trap 0x13 0 .check) else none)
  | .status _ _ none => (s0, none)
  | .status _ _ (some (row, col, v)) =>
    let old := k.acc.row row
    let new := packRow ((List.range 128).map fun n => if n = col then v.toNat else rowEntry old n)
    -- a correction that is infinite or NaN excludes its row and column (R203)
    let bad := fmtFloat (cfgFmt o.req.cfg) && nonFinite32 v.toNat
    ((s0.setCore core { k with acc := { k.acc with
      rows := k.acc.rows.set row new
      rowEx := if bad then setBit k.acc.rowEx row true else k.acc.rowEx
      colEx := if bad then setBit k.acc.colEx (128 * (row / 128) + col) true else k.acc.colEx } }).addScore core 4, none)
  | .clr fp => (s0.setCore core { k with acc := k.acc.replace fp true (o.req.rows.map fun r => (r, 0)) }, none)

/-- The engine step at which an unlanded operation lands is a given one. -/
def MxOp.landsAt (o : MxOp) (n : Nat) : Bool := !o.landed && o.land == some n

/-- The earliest engine step at which an operation of a list that is due lands. -/
def mxFirst (mstep : Nat) (l : List MxOp) : Option Nat :=
  ((l.filter fun o => !o.landed).filterMap fun o => match o.land with | some n => if n ≤ mstep then some n else none | none => none).min?

/-- The trap of highest priority among those of the operations that land at one engine step (R20, 16 R342). -/
def State.mxTrapAt (s : State) (g n : Nat) : Option TrapReq :=
  bestTrap ((((s.ctx g).mx.filter (·.landsAt n)).filterMap fun o => match o.eff with
    | .wld _ _ (some _) => (s.mxLand g o).2
    | .chk true => (s.mxLand g o).2
    | _ => none))

/-- A trap of a result that lands, or a higher one of the matrix operations that land with it (R20, 16 R342). -/
def State.withMxTrap (s : State) (g : Nat) (t : TrapReq) : TrapReq :=
  let c := s.ctx g
  match (mxFirst c.mstep c.mx).bind (s.mxTrapAt g) with
  | some u => (bestTrap [t, u]).getD t
  | none => t

/-- Every operation due by the context's engine step lands, earliest first, until one traps (R221), and the chains that are
over fold; `n` bounds how many. -/
def State.mxLandDue (s : State) (g : Nat) : Nat → State × Option TrapReq
  | 0 => (s.chainFolds g, none)
  | n + 1 =>
    let c := s.ctx g
    match mxFirst c.mstep c.mx with
    | none => ((s.setCtx g { c with mx := c.mx.filter fun o => !o.landed || decide (c.mstep < o.busyTo) }).chainFolds g, none)
    | some k =>
      match s.mxTrapAt g k with
      | some t => (s, some t)
      | none =>
        match c.mx.find? (·.landsAt k) with
        | some o => (s.mxLand g o).1.mxLandDue g n
        | none => (s, none)

end Sys2Proof.Machine
end

