-- ==== Sys2Proof/Machine/TaskQueue.lean ====
section
/-! DEFINITION. Task records on their way to a cluster: classes, types, the queues, pools and spill buffer (14 R300 to
R303, R308). -/

namespace Sys2Proof.Machine

/-- TYPE of a task record (R302). -/
def recType (w : Word) : Nat := bits w.toNat 52 12

/-- DEP of a task record: a dependence word follows. -/
def recDep (w : Word) : Bool := bits w.toNat 49 1 == 1

/-- Operand `i` of a command. -/
def Cmd.w (c : Cmd) (i : Nat) : Nat := (c.ws.getD i 0).toNat

/-- The control word of a command: its last operand. -/
def Cmd.ctl (c : Cmd) : Nat := (c.ws.getLastD 0).toNat

/-- PCLS of a task record. -/
def recPcls (w : Word) : Nat := bits w.toNat 50 2

/-- A type table entry of a kernel (03 R57). -/
def Kernel.type (k : Kernel) (i : Nat) : Nat := (k.types.getD i 0).toNat

/-- Fields of a type table entry: SPAD, ACC, VREGS, PCLS, LKCLS, CORES, SPILL. -/
def tySpad (t : Nat) : Nat := bits t 32 16
/-- ACC. -/
def tyAcc (t : Nat) : Nat := bits t 48 4
/-- VREGS as a count. -/
def tyVregs (t : Nat) : Nat := 8 * (bits t 52 2 + 1)
/-- PCLS. -/
def tyPcls (t : Nat) : Nat := bits t 54 2
/-- LKCLS. -/
def tyLkcls (t : Nat) : Nat := bits t 56 2
/-- CORES. -/
def tyCores (t : Nat) : Nat := bits t 58 4
/-- SPILL. -/
def tySpill (t : Nat) : Nat := bits t 64 7

/-- A field of a packet. -/
def Packet.fld (p : Packet) (i : Nat) : Nat := (vget p.f i 0).toNat

/-- Whether a kernel is paired (R298). -/
def Kernel.paired (k : Kernel) : Bool := k.twins != []

/-- The protection class of a record: the record's, the packet's, the type's; none where it is refused (R300). -/
def taskClass (paired : Bool) (pkt : Nat) (ty : Nat) (w : Word) : Option Nat :=
  let c := if recPcls w ≠ 3 then recPcls w else if pkt ≠ 3 then pkt else tyPcls ty
  if c = 3 || (c = 2 && !paired) then none else some c

/-- The class of a record of a kernel. -/
def Kernel.class' (k : Kernel) (w : Word) : Option Nat := taskClass k.paired (k.pkt.fld 4 % 4) (k.type (recType w)) w

/-- Records that the FIFOs of a cluster hold. -/
def Cluster.queued (c : Cluster) : Nat := (c.fifo.toList.map (·.length)).sum

/-- A record put at the tail of its FIFO. -/
def Cluster.push (c : Cluster) (r : TaskRec) : Cluster :=
  { c with fifo := vset c.fifo r.prio (vget c.fifo r.prio [] ++ [r]) }

/-- Whether a record finds its place in a cluster: the pool for one with a dependence, else its FIFO (R303). -/
def Cluster.hasRoom (c : Cluster) (r : TaskRec) : Bool :=
  if recDep r.word && !r.met then decide (c.pool.length < 256) else decide (c.queued < 1024)

/-- A record in its place in a cluster. -/
def Cluster.accept (c : Cluster) (r : TaskRec) : Cluster :=
  if recDep r.word && !r.met then { c with pool := c.pool ++ [r] } else c.push r

/-- A record that arrives at a cluster: its place there, else the spill buffer of 4,096; none with no room (R303). -/
def State.enqueue (s : State) (cl : Nat) (r : TaskRec) : Option State :=
  let c := s.cluster cl
  if c.hasRoom r then some (s.setCluster cl (c.accept r))
  else if s.spill.length < 4096 then some { s with spill := s.spill ++ [(cl, r)] }
  else none

/-- The flat space of a kernel's ASID as the device walks it (18 R421). -/
def Kernel.space (k : Kernel) : Space := rootSpace k.asid k.root

/-- The address of the counter of a dependence word (R302). -/
def Kernel.depAddr (k : Kernel) (dep : Word) : Nat := k.ctrb.toNat + 8 * bits dep.toNat 40 24

/-- The refusal of a spawn told to its task, in the context in which it runs (R303, R308). -/
def State.refuseSpawn (s : State) (by' : Option (Nat × Nat)) : State :=
  match (s.ctxs.filter fun (e : Nat × Ctx) => e.2.st != .free && !e.2.second && by' == some (s.lkId e.1)).head? with
  | some e => s.postFault (s.told e.1 true) 9 false false 0 (EngFault.at' 5 0)
  | none => s

/-- A TSPAWN released: the record enters its queue as a live task, or the spawn is refused with kind 5 (R300, R302, R303,
R308). -/
def State.spawn (s : State) (c : Cmd) : State :=
  let x := s.ctx c.g
  let place := c.w 0
  let word : Word := c.ws.getD 1 0
  let refuse := s.postFault (s.told c.g true) 9 false false 0 (EngFault.at' 5 0)
  match s.kernels.find? x.al.kernel with
  | none => refuse
  | some k =>
    let vc := if c.nh = 1 || bits place 7 1 = 1 then x.al.vc else bits place 0 7
    let r : TaskRec := ⟨word, c.ws.getD 2 0, if c.nh = 1 then c.cfg else bits place 8 2, x.al.kernel, vc,
      if bits place 10 1 = 1 then some x.lkage else none, false, some (s.lkId c.g)⟩
    if (k.class' word).isNone || (recDep word && k.ctrb.toNat % 8 ≠ 0) then refuse
    else
      match s.enqueue (k.clus.getD vc 0) r with
      | none => refuse
      | some s1 => s1.setKernel x.al.kernel { k with live := k.live + 1 }

end Sys2Proof.Machine
end

