-- ==== Sys2Proof/Machine/Release.lean ====
section
/-! DEFINITION. What an entry of the store containment buffer does when it is released: locks given up, commands started,
operations sent on their way (07 R135; 11 R225, R241; 13 R284; 15 R316, R321; 16 R358). -/

namespace Sys2Proof.Machine

/-! ### Commands of twins -/

/-- Whether an address names an LSP. -/
def isLocal (ea : Nat) : Bool := let r := regionOf ea; r == 0 || (decide (2 ≤ r) && decide (r ≤ 5))

/-- DIR of a copy: into the LSP, or out of it. -/
def ctlOut (ctl : Nat) : Bool := bits ctl 48 1 == 1

/-- Whether each twin performs a command for itself: it writes an LSP or its core (15 R316). -/
def Cmd.perTwin (c : Cmd) : Bool :=
  match c.op with
  | .cpyH => !ctlOut c.ctl
  | .cpyA => !ctlOut c.ctl || isLocal (c.w 1)
  | .cpypH => !ctlOut c.ctl
  | .cpypA => !ctlOut c.ctl || isLocal (c.w 1)
  | .cpyw => true
  | .subsLoad => true
  | .subsStore => true
  | .sube => true
  | .xaccst => c.rows.any fun r => isLsp r.1
  | .xepi => c.rows.any fun r => isLsp r.1
  | _ => false

/-- The space of a command's task. -/
def Cmd.space (c : Cmd) : Space := ⟨c.asid, c.ttb, none⟩

/-! ### Ring handles -/

/-- BND of a ring handle (11 R237). -/
def hBnd (x : BitVec 128) : Bool := bits x.toNat 33 1 == 1

/-- CORE of a ring handle. -/
def hCore (x : BitVec 128) : Nat := bits x.toNat 36 2

/-- RIX of a ring handle. -/
def hRix (x : BitVec 128) : Nat := bits x.toNat 38 5

/-! ### Locks -/

/-- The shadow frames under grants that a release or downgrade of a name commits (13 R280, R284): none of a WOUNDED
grant. -/
def State.lockCommit (s : State) (g : Nat) (p : Nat × Nat × Nat → Bool) : State :=
  if s.woundedId (s.lkId g) then s.shadowDiscard g fun f => f.iv == none && p f.key
  else s.shadowCommits g false fun f => f.iv == none && p f.key

/-- Whether a tile lies under a lock name. -/
def LockName.holdsTile (n : LockName) (key : Nat × Nat × Nat) : Bool := (lockTile key.1 key.2.1 key.2.2).under n

/-- A failure of LKDWN or LKREL found when it is performed (13 R284). -/
def State.lockFail (s : State) (g opc tid : Nat) : State :=
  s.postFault (s.told g true) opc false false 0 ⟨5, tid, 0, 0, 0, 0, none⟩

/-- LKREL of a name performed (13 R284). -/
def State.releaseLock (s : State) (g : Nat) (n : LockName) : State :=
  if (s.lkm (lkmHome n.asid n.tid)).heldBy n (s.lkId g) = 0 then s.lockFail g 0x2C n.tid
  else
    match (s.lockCommit g n.holdsTile).lkRelease g n with
    | (s1, true, fs) => s1.lkEffects fs
    | (s1, false, fs) => (s1.lkEffects fs).lockFail g 0x2C n.tid

/-- LKREL of every lock performed (13 R284). -/
def State.releaseLocks (s : State) (g : Nat) : State :=
  match (s.lockCommit g fun _ => true).lkReleaseAll (s.lkId g) with
  | (s1, fs) => s1.lkEffects fs

/-- LKDWN performed: to a mode that covers no write, from X, SIX, or the INC that X became, the object's frames are committed (13
R269, R280, R284). -/
def State.downgradeLock (s : State) (g : Nat) (n : LockName) (mode : Nat) : State :=
  match s.lkDowngrade g n mode with
  | (_, false, _) => s.lockFail g 0x2B n.tid
  | (_, true, _) =>
    let was := (s.lkm (lkmHome n.asid n.tid)).heldBy n (s.lkId g)
    let s0 := if (was = 5 || was = 6 || was = 7) && mode ≠ 6 && mode ≠ 7 then s.lockCommit g n.holdsTile else s
    match s0.lkDowngrade g n mode with
    | (s1, _, fs) => s1.lkEffects fs

/-- An LKDWN or LKREL of a class 2 secondary, after its primary's: the frames that the primary no longer has are returned (13 R284,
R285). -/
def State.secondLock (s : State) (g : Nat) (n : LockName) : State :=
  match (s.ctx g).twin with
  | some t =>
    s.shadowDiscard g fun f => f.iv == none && n.holdsTile f.key && (s.shadowsOf t fun x => x.iv == none && x.key == f.key) == []
  | none => s

/-! ### Commands -/

/-- The place of a command among those that engines have accepted. -/
def State.addCmd (s : State) (e : Entry) (c : Cmd) (order : Nat) : State :=
  { s with
    cmds := s.cmds.set s.nextId ⟨c, e.bundle, e.path, order, none, [], false, false, []⟩
    nextId := s.nextId + 1 }

/-- The stack that holds the first tile of a tensor, else 0 (11 R241). -/
def State.firstCup (s : State) (c : Cmd) (tid : Nat) : Nat :=
  match s.walkTile (coreOf c.g) c.space tid 0 with
  | .leaf _ w => if bits w 58 2 = 1 then bits w 16 26 / 2 ^ 20 else 0
  | _ => 0

/-- The CUP that takes a subscription: the first with room from `u` on, of `n` (11 R241). -/
def State.cupRoom (s : State) (u : Nat) : Nat → Option Nat
  | 0 => none
  | n + 1 => if (s.subs.filter fun e => e.2.cup == u % 12).length < 256 then some (u % 12) else s.cupRoom (u + 1) n

/-- SUBS released: placed at a CUP, and the side taken; or kind 5 (11 R241). -/
def State.placeSub (s : State) (e : Entry) (c : Cmd) (load : Bool) : State :=
  let x : BitVec 128 := BitVec.ofNat 128 (c.nh / 2 ^ 256)
  let core := 4 * c.home + hCore x
  let rix := hRix x
  let w := s.ring core rix
  let side := if load then 35 else 36
  let refuse := s.postFault [c.g] c.opc false c.fe c.flag (EngFault.at' 5 0)
  match s.cupRoom (s.firstCup c (c.nh % 2 ^ 20)) 12 with
  | none => refuse
  | some u =>
    if bits w.toNat side 1 = 1 || bits w.toNat 34 1 = 1 then refuse
    else
      let s1 := s.setRing core rix (setBit w side true)
      { s1 with subs := s1.subs.set s1.nextId ⟨c, load, core, rix, u, 0, false, e.bundle, none, [], false, false, []⟩, nextId := s1.nextId + 1 }

/-- SUBE released: every subscription on the ring stops after the slot in progress (11 R242). -/
def State.stopSubs (s : State) (c : Cmd) : State :=
  let x : BitVec 128 := BitVec.ofNat 128 (c.nh / 2 ^ 256)
  if !hBnd x then s
  else
    { s with subs := s.subs.map fun (e : Nat × Sub) =>
      (e.1, if e.2.core == 4 * c.home + hCore x && e.2.rix == hRix x then { e.2 with stop := true } else e.2) }

/-- A command released: it starts at its engine; a class 2 secondary starts only those that each twin performs (11 R225;
15 R316). -/
def State.startCmd (s : State) (e : Entry) (c : Cmd) : State :=
  let second := (s.ctx c.g).follows (some e.iv)
  if second && !c.perTwin then
    -- its payload leaves the output stage with the primary's
    (if c.xcl then let k := s.core (coreOf c.g); s.setCore (coreOf c.g) { k with outst := k.outst - 1 } else s)
  else
    match c.op with
    | .tspawn => s.spawn c
    | .sube => s.stopSubs c
    | .subsLoad => s.placeSub e c true
    | .subsStore => s.placeSub e c false
    | .coll =>
      let grp := bits c.ctl 32 16
      let n := s.collSeq.at 0 grp
      ({ s with collSeq := s.collSeq.set grp (n + 1) }).addCmd e c n
    | .attq => let s1 := s.addCmd e c s.nextId; { s1 with msc := { s1.msc with quotes := s1.msc.quotes ++ [.attq s.nextId] } }
    | _ => s.addCmd e (if second then { c with rows := c.rows.filter fun r => isLsp r.1 } else c) s.nextId

/-! ### Entries -/

/-- What an entry does when it is released: an operation starts towards its home, and the others take effect (07 R135;
15 R321). -/
def State.releaseEntry (s : State) (g : Nat) (e : Entry) : State :=
  let c := s.ctx g
  let second := c.follows (some e.iv)
  match e.op with
  | .cmd m => s.startCmd e m
  | .lkdwn n mode => if second then s.secondLock g n else s.downgradeLock g n mode
  | .lkrel n => if second then s.secondLock g n else s.releaseLock g n
  | .lkrelAll => if second then s.shadowDiscard g fun f => f.iv == none else s.releaseLocks g
  | .step x =>
    if second then s
    else (s.told g true).foldl (fun s g => s.setCtx g { s.ctx g with stepno := BitVec.ofNat 64 (max (s.ctx g).stepno.toNat x.toNat) }) s
  | .shadow frame bs => if s.grantFrame g frame then s.shadowWrite g frame bs else s
  | .fence _ _ => s
  | _ => (s.setCtx g { c with flying := c.flying ++ [e] }).joinQueues g e

/-- Every entry that a context still holds released, and every operation on its way performed: what has agreed stays performed
(01 R20). -/
def State.releaseRest (s : State) (g : Nat) : State :=
  let c := s.ctx g
  c.scb.foldl (fun s e => (s.releaseEntry g e).flush g) ((s.setCtx g { c with scb := [] }).flush g)

end Sys2Proof.Machine
end

