-- ==== Sys2Proof/Machine/SavePool.lean ====
section
/-! DEFINITION. Device accesses of any length, the pool of save slots, and the release of a kernel's clusters (14 R312; 16
R347, R351; 18 R421). -/

namespace Sys2Proof.Machine

/-! ### Device accesses over any number of tiles -/

/-- The pieces of a device access, tile by tile; or the address of the first failing part and its kind (18 R421). -/
def State.devSpan (s : State) (sp : Space) (write : Bool) : Nat → Nat → Nat → Except (Nat × Nat) (List (Nat × Nat))
  | 0, _, _ => .ok []
  | k + 1, va, n =>
    if n = 0 then .ok []
    else
      let m := min n (2 ^ 16 - va % 2 ^ 16)
      match s.devAccess sp va m write with
      | .bad kind => .error (va, kind)
      | .ok p =>
        match s.devSpan sp write k (va + m) (n - m) with
        | .ok q => .ok (p ++ q)
        | .error e => .error e

/-- Bytes that the device reads; or the failing address and kind. -/
def State.devGet (s : State) (sp : Space) (va n : Nat) : Except (Nat × Nat) (List Byte) :=
  (s.devSpan sp false (n / 2 ^ 16 + 2) va n).map s.peekAll

/-- A word that the device reads. -/
def State.devGetWord (s : State) (sp : Space) (va : Nat) : Except (Nat × Nat) Nat := (s.devGet sp va 8).map leNat

/-- Bytes that the device writes, all or none; or the failing address and kind. -/
def State.devPut (s : State) (sp : Space) (va : Nat) (bs : List Byte) : Except (Nat × Nat) State :=
  match s.devSpan sp true (bs.length / 2 ^ 16 + 2) va bs.length with
  | .ok ps => .ok (s.pokeAll 0 ps bs)
  | .error e => .error e

/-! ### Save slots -/

/-- The number of save slots an IOC has (16 R347). -/
def Ioc.nslot (i : Ioc) : Nat := bits i.svps.toNat 0 16

/-- A save slot is free again (16 R347). -/
def Ioc.giveSlot (i : Ioc) (n : Nat) : Ioc := { i with used := i.used.erase n, fullTold := false }

/-- The save slots that a context has taken are free again. -/
def Ioc.giveSlots (i : Ioc) (g : Nat) : Ioc :=
  let used : SMap Nat := i.used.filter fun (u : Nat × Nat) => u.2 != g
  { i with used := used, fullTold := i.fullTold && used.length == i.used.length }

/-- Whether an IOC has a free save slot. -/
def Ioc.slotFree (i : Ioc) : Option Nat := (List.range i.nslot).find? fun n => (i.used.find? n).isNone

/-- The host is told, once, that a request finds the save pool full (16 R347). -/
def State.tellFull (s : State) (i : Nat) : State :=
  let io := s.ioc i
  if io.slotFree.isSome || io.fullTold then s
  else (s.setIoc i { io with fullTold := true }).postHost i ⟨8, 0, 0, 0, 0, 0⟩

/-! ### The release of clusters -/

/-- Whether a tenant runs on an IOC: any before the first gang instant (R312). -/
def State.tenantRuns (s : State) (i t : Nat) : Bool :=
  match (s.ioc i).tenant with
  | none => true
  | some x => x == t

/-- The clusters of a kernel freed. -/
def State.freeClusters (s : State) (id : Nat) : State :=
  { s with clusters := s.clusters.map fun (c : Nat × Cluster) => (c.1, if c.2.kernel == some id then Cluster.reset else c.2) }

/-- The records that a cluster of a kernel holds, in FIFO order and then the pool's. -/
def Cluster.records (c : Cluster) : List TaskRec := c.fifo.toList.flatten ++ c.pool

/-- Save slots for the cores of a kernel, as many as it has cores; none where too few are free. -/
def Ioc.takeSlots (c : Ioc) (n : Nat) : Option (List Nat) :=
  let l := ((List.range c.nslot).filter fun j => (c.used.find? j).isNone).take n
  if l.length = n then some l else none

/-- What is saved of a core with its kernel (16 R351). -/
def State.saveCore (s : State) (id : Nat) (k : Kernel) (vc pos core slot : Nat) : SavedCore :=
  ⟨id, vc, pos, k.ioc, slot, s.peek (pkLsp core 0) k.spads, (s.core core).rings, (s.core core).swz⟩

/-- The bytes saved of a core: its `.spad` region, ring table and swizzle map (16 R351). -/
def SavedCore.bytes (c : SavedCore) : List Byte :=
  c.spad ++ ((List.range 32).flatMap fun i => leBytes (c.rings.at 0 i).toNat 16) ++
    (List.range 12).flatMap fun i => leBytes (c.swz.at 0 i).toNat 8

/-- What is saved of a core written to its slot, in an arrangement that the manual leaves open (16 R351; log 29); none where it
cannot be written. -/
def State.writeCoreSlot (s : State) (c : SavedCore) : Option State :=
  let bs := c.bytes
  match s.devPut s.sysSpace ((s.ioc c.ioc).svpb.toNat % 2 ^ 57 + 2 ^ 21 * c.slot) ((List.range bs.length).map fun i => Config.coreByte i bs) with
  | .ok s1 => some s1
  | .error _ => none

/-- Whether the slot of a saved core can be read back (18 R421). -/
def State.coreSlotReads (s : State) (c : SavedCore) : Bool :=
  (s.devGet s.sysSpace ((s.ioc c.ioc).svpb.toNat % 2 ^ 57 + 2 ^ 21 * c.slot) c.bytes.length).isOk

/-- Several cores written to their slots; none where one cannot be. -/
def State.writeCoreSlots (s : State) : List SavedCore → Option State
  | [] => some s
  | c :: r =>
    match s.writeCoreSlot c with
    | some s1 => s1.writeCoreSlots r
    | none => none

/-- The cores of a kernel with virtual cluster and position; positions 4 to 7 are the twin's. -/
def Kernel.places (k : Kernel) : List (Nat × Nat × Nat) :=
  (k.clus.zipIdx.flatMap fun e => (List.range 4).map fun p => (e.2, p, 4 * e.1 + p)) ++
    k.twins.zipIdx.flatMap fun e => (List.range 4).map fun p => (e.2, 4 + p, 4 * e.1 + p)

/-- A kernel all of whose contexts are saved releases its clusters, its cores saved and its records kept (R312; 16 R351);
it waits while too few save slots are free. Where a core's slot cannot be written, that save is not made, and the kernel
keeps its clusters (18 R421; log 63). -/
def State.releaseKernel (s : State) (id : Nat) (k : Kernel) : State :=
  let on := s.ctxs.any fun (e : Nat × Ctx) => e.2.st != .free && decide (e.1 < 4096) && e.2.al.kernel == id
  let io := s.ioc k.ioc
  if k.saved || on || s.tenantRuns k.ioc k.tenant then s
  else
    match io.takeSlots k.places.length with
    | none => s.tellFull k.ioc
    | some slots =>
      let cores := (k.places.zip slots).map fun e => s.saveCore id k e.1.1 e.1.2.1 e.1.2.2 e.2
      match s.writeCoreSlots cores with
      | none => s
      | some s0 =>
      let s1 := s0.setIoc k.ioc { io with used := slots.foldl (fun m j => m.set j 4096) io.used }
      let recs := (k.clus.flatMap fun cl => (s.cluster cl).records) ++ ((s.spill.filter fun e => e.2.kernel == id).map (·.2))
      let s2 := ({ s1 with
        savedCores := s1.savedCores ++ cores
        spill := s1.spill.filter fun e => e.2.kernel != id }).freeClusters id
      s2.setKernel id { k with saved := true, kept := recs }

/-- Every kernel of an IOC that can release its clusters does. -/
def State.releaseKernels (s : State) (i : Nat) : State :=
  (s.kernels.filter fun (k : Nat × Kernel) => k.2.ioc == i).foldl (fun s (k : Nat × Kernel) => s.releaseKernel k.1 k.2) s

end Sys2Proof.Machine
end

