-- ==== Sys2Proof/Machine/Ops.lean ====
section
/-! DEFINITION. The shared operations of contexts: landing, rollback, taking a trap and returning from one, the kill of
a task, intervals and checkpoint copies, the work at the end of a bundle, waits, and the issue of a bundle (02 R35 to
R37; 04 R60 to R82; 12 R248; 15 R318 to R331; 16 R342 to R348). -/

namespace Sys2Proof.Machine

/-! ### Rollback -/

/-- The registers with the flag of an open chain cleared (10 R223). -/
def Regs.noChain (r : Regs) : Regs := { r with mxcfg := setBit r.mxcfg 63 false }

/-- An accumulator store in which each named row, its checksums and their exclusion bits are as in one of two stores,
freely (10 R223, log 6). -/
def AccStore.mixed (tick : Nat) (old new : AccStore) (rows : List Nat) : AccStore :=
  let pick (i : Nat) : Bool := Config.freeBool (tick * 65536 + i)
  let a := rows.foldl (fun (a : AccStore) r => { a with
    rows := a.rows.set r (if pick (4 * r) then new.row r else old.row r)
    chkcol := a.chkcol.set r (if pick (4 * r + 1) then new.col r else old.col r)
    rowEx := setBit a.rowEx r ((if pick (4 * r + 2) then new.rowEx else old.rowEx).getLsbD r) }) old
  ((rows.map (· / 128)).eraseDups.flatMap fun q => (List.range 128).map fun n => (q, n)).foldl (fun (a : AccStore) e =>
    let i := 128 * e.1 + e.2
    { a with
      chkrow := a.chkrow.set i (if pick (4096 + 2 * i) then new.chk e.1 e.2 else old.chk e.1 e.2)
      colEx := setBit a.colEx i ((if pick (4097 + 2 * i) then new.colEx else old.colEx).getLsbD i) }) a

/-- The accumulator groups and weight buffers of a list become invalid: 0 to 7 groups, 8 and 9 buffers (10 R223). -/
def Core.spoil (k : Core) (dirty : List Nat) : Core :=
  let k1 := { k with acc := { k.acc with ginv := (dirty.filter (· < 8)).foldl (fun x d => setBit x d true) k.acc.ginv } }
  let k2 := if dirty.contains 8 then { k1 with wb0 := { k1.wb0 with valid := false } } else k1
  if dirty.contains 9 then { k2 with wb1 := { k2.wb1 with valid := false } } else k2

/-- Matrix operations in flight abandoned: each row that they would write, and each checksum, holds its old or its new
contents, and their groups are invalid (10 R223). A weight buffer that a load in flight has not made current is as it was. -/
def State.mxAbandon (s : State) (g : Nat) : List MxOp → State
  | [] => s
  | o :: r =>
    let k := s.core (coreOf g)
    let new := ((s.mxLand g { o with req := { o.req with chain := Option.none } }).1.core (coreOf g)).acc
    let s1 := if o.landed then s
      else s.setCore (coreOf g) (({ k with acc := k.acc.mixed (s.ticks + o.req.bundle) new o.writes } : Core).spoil
        ((o.writes.map (· / 64)).eraseDups))
    s1.mxAbandon g r

/-- What a rollback to the oldest open interval leaves of a context beside its entries: the copy, one interval, nothing in
flight, the captured signature and the count of shared values as they stood there, no replays (01 R20; 15 R320, R339). -/
def Ctx.restored (c : Ctx) (copy : Regs) : Ctx :=
  let c1 := { c with cap := (c.ivs.head?.map fun (i : Interval) => i.cap).getD c.cap, shared := (c.ivs.head?.map fun (i : Interval) => i.shared).getD c.shared }
  { c1 with
    r := copy
    fl := []
    mx := []
    chains := []
    ivs := [c1.openWith copy]
    nextIv := c.nextIv + 1
    opened := c.bseq
    siglo := 0
    sighi := 0
    todo := []
    wait := none
    answer := none
    replay := 0 }

/-- The values that a primary shared after the point it has rolled back to are forgotten (15 R317; MODEL). -/
def State.forgetShared (s : State) (g : Nat) : State :=
  let c := s.ctx g
  match c.second, c.twin with
  | false, some t =>
    let d := s.ctx t
    s.setCtx t { d with deliver := d.deliver.filter fun (e : Nat × BitVec 128) => decide (e.1 < c.shareKey) || e.1 / 2 ^ 32 != c.epoch }
  | _, _ => s

/-- A context rolled back to the copy that begins its oldest open interval; the values it has shared stay with its twin, which may
still be before the places that take them (01 R20, 10 R223, 15 R317, R320). -/
def State.unwind (s : State) (g : Nat) : State :=
  let s0 := s.mxAbandon g (s.ctx g).mx
  let c := s0.ctx g
  let open' := c.ivs.filter fun i => !i.agreed
  let ids := open'.map (·.id)
  let s1 := (s0.setCore (coreOf g) ((s0.core (coreOf g)).spoil (open'.flatMap (·.dirty)))).shadowDiscard g fun f =>
    match f.iv with
    | some i => ids.contains i
    | none => false
  let copy := c.oldest.noChain
  let gone := c.scb.filter fun e => ids.contains e.iv
  -- with those of the bundle that still wait to enter; a command without rows holds no payload (15 R322; 10 R215)
  let freed := ((gone ++ c.entering).filter fun e => match e.op with | .cmd m => m.xcl && m.rows != [] | _ => false).length
  let k4 := s1.core (coreOf g)
  -- a CPYW still held gives up the weight path (11 R235)
  let heldW := gone.any fun e => match e.op with | .cmd m => (match m.op with | .cpyw => true | _ => false) | _ => false
  let wl := if heldW then k4.wload.filter (·.2 != g) else k4.wload
  -- a save begun is given up with its slot (16 R348)
  let s2 := if c.saving.isNone then s1
    else { s1 with iocs := s1.iocs.map fun (e : Nat × Ioc) => (e.1, e.2.giveSlots g) }
  -- the units of results in flight are free again (05 R83)
  let busy := c.fl.filterMap (·.iter)
  let old := c.restored copy
  (s2.setCore (coreOf g) { k4 with
    outst := k4.outst - freed, wload := wl, iter := k4.iter.filter fun u => !busy.contains u }).setCtx g
    { old with
      scb := c.scb.filter fun e => !ids.contains e.iv
      saving := none
      stall := none }

/-- Rollback of a context whose twin does not pass what is discarded, or begins it again too (01 R20; 15 R317, R320). -/
def State.rollback (s : State) (g : Nat) : State := (s.unwind g).forgetShared g

/-- The trap CSRs written (16 R342). What FAULTVA receives where a fault has no address, and FAULTN to FAULTN2 where it has no element,
is 0: the manual gives only the register that applies (06 R101; DESIGN CHOICE, log 70). -/
def Ctx.setTrap (c : Ctx) (t : TrapReq) : Ctx :=
  { c with
    trapc := BitVec.ofNat 64 (t.cause + 256 * t.code)
    trappc := t.pc
    trapsl := BitVec.ofNat 64 t.slot
    faultva := t.va
    faultn := t.n
    faultn1 := t.n1
    faultn2 := t.n2 }

/-! ### Ends of tasks -/

/-- The IOC that owns a context's events: that which placed its kernel (18 R380). -/
def State.iocOf (s : State) (g : Nat) : Nat := ((s.kernelOf g).map (·.ioc)).getD 0

/-- The task of a context leaves its kernel's live tasks (14 R301). -/
def State.taskGone (s : State) (g : Nat) : State :=
  let c := s.ctx g
  match s.kernels.find? c.al.kernel with
  | some x => if c.second then s else s.setKernel c.al.kernel { x with live := x.live - 1 }
  | none => s

/-- A cluster that was taken for a task on a third SPC is given up when the task has left it (15 R331). -/
def State.leaveCluster (s : State) (cl k : Nat) : State :=
  let placed := match s.kernels.find? k with
    | some x => (x.clus ++ x.twins).contains cl
    | none => false
  if placed || (s.cluster cl).kernel != some k || ((List.range 32).any fun i => (s.ctx (32 * cl + i)).st != .free) then s
  else s.setCluster cl { s.cluster cl with kernel := none }

/-- A context becomes FREE with its allocation and its grant-cache entries (13 R279); TRAPC, TRAPPC and TRAPSL keep their values for the runtime (04 R81, 16
R345). -/
def State.freeCtx (s : State) (g : Nat) : State :=
  let c := s.ctx g
  (((s.dropGcid g).endRun g .free).setCtx g { Ctx.reset g with trapc := c.trapc, trappc := c.trappc, trapsl := c.trapsl }).leaveCluster
    (clusterOf g) c.al.kernel

/-- The cores that a kernel occupies. -/
def Kernel.cores (k : Kernel) : List Nat := (k.clus ++ k.twins).flatMap fun c => (List.range 4).map fun i => 4 * c + i

/-- Every ring and barrier object of a kernel broken, in every core it occupies (12 R264). -/
def State.breakObjects (s : State) (k : Kernel) : State :=
  k.cores.foldl (fun s core => k.objs.foldl (fun s o =>
    if o.1 then s.breakRing core o.2 else s.breakBarrier (pkLsp core o.2)) s) s

/-- The entry of a collective group in the table at GRTB (18 R382). -/
def State.group (s : State) (ioc grp : Nat) : Except Nat Nat :=
  (s.devRead s.sysSpace ((s.ioc ioc).grtb.toNat % 2 ^ 57 + 32 * grp) 32).map leNat

/-- Whether kernels of an ASID are registered with a group (18 R382). -/
def State.groupHas (s : State) (ioc grp asid : Nat) : Bool :=
  match s.group ioc grp with
  | .ok w => bits w 0 1 == 1 && bits w 16 16 == asid
  | .error _ => false

/-- The groups that kernels of an ASID are registered with. -/
def State.groupsOf (s : State) (ioc asid : Nat) : List Nat := (List.range 65536).filter fun n => s.groupHas ioc n asid

/-- The completed step of a kernel: the least STEPNO of its live tasks (16 R346); 2^64 − 1 with none. -/
def State.kernelStep (s : State) (k : Nat) : Word :=
  (s.ctxs.filter fun (e : Nat × Ctx) => e.2.st != .free && e.2.al.kernel == k).foldl
    (fun (m : Word) (e : Nat × Ctx) => if e.2.stepno.toNat < m.toNat then e.2.stepno else m) (BitVec.allOnes 64)

/-- An ABORT token sent to every package of a group: it reaches this package as an event (16 R346). -/
def State.sendAbort (s : State) (grp : Nat) (step : Word) : State :=
  { s with inbox := s.inbox ++ [.abortTokenReceive (BitVec.ofNat 16 grp) step] }

/-- The commands of a killed context that wait on absent tiles end with faults of kind 2; the writes before the waiting one
stand, those after it are not made (11 R422). -/
def State.endWaiting (s : State) (g : Nat) : State :=
  let own (c : Cmd) (a : Option (Nat × Nat × Nat)) : Bool := c.g == g && a.isSome
  let fault (s : State) (c : Cmd) (ws : List BitWrite) (k : Nat × Nat × Nat) : State :=
    (s.performWrites g ws).postFault [g] c.opc c.xcl c.fe c.flag (absentFault k)
  let s1 := s.cmds.foldl (fun s (e : Nat × EngCmd) =>
    if own e.2.c e.2.absent then fault s e.2.c e.2.before (e.2.absent.getD (0, 0, 0)) else s) s
  let s2 := s.subs.foldl (fun s (e : Nat × Sub) =>
    if own e.2.c e.2.absent then fault s e.2.c e.2.before (e.2.absent.getD (0, 0, 0)) else s) s1
  let k := s2.core (coreOf g)
  -- a CPYW gives up the weight path with its buffer (11 R235)
  let wb := k.wload.filter fun w => w.2 == g && s2.cmds.any fun (e : Nat × EngCmd) => own e.2.c e.2.absent && e.2.c.op == .cpyw
  let k1 := wb.foldl (fun (k : Core) w => { k.setWb w.1 { k.wb w.1 with valid := false } with wload := k.wload.erase w }) k
  let s3 := s2.setCore (coreOf g) k1
  -- a subscription releases its side (11 R241)
  let s4 := s3.subs.foldl (fun (s : State) (e : Nat × Sub) =>
    if own e.2.c e.2.absent then s.setRing e.2.core e.2.rix (setBit (s.ring e.2.core e.2.rix) (if e.2.load then 35 else 36) false) else s) s3
  { s4 with
    cmds := s2.cmds.filter fun (e : Nat × EngCmd) => !own e.2.c e.2.absent
    subs := s2.subs.filter fun (e : Nat × Sub) => !own e.2.c e.2.absent }

/-- The kill of a context that stands in a save slot: the slot is free again (16 R345, R347). -/
def State.killSaved (s : State) (g : Nat) : State :=
  let (s1, fs) := (s.shadowDiscard g fun _ => true).lkReleaseAll (s.lkId g)
  let s2 := (s1.lkEffects fs).taskGone g
  let gone := s2.saved.filter fun (e : Nat × Saved) => e.2.gcid == g
  let s3 := gone.foldl (fun (s : State) e => s.setIoc e.2.ioc ((s.ioc e.2.ioc).giveSlot e.2.slot)) s2
  { s3 with ctxs := s3.ctxs.erase g, saved := s3.saved.filter fun (e : Nat × Saved) => e.2.gcid != g }

/-- The kill of one context (16 R345 steps 1, 2 and 4). -/
def State.killCtx (s : State) (g : Nat) : State :=
  if 4096 ≤ g then s.killSaved g else
  let s1 := (((s.rollback g).releaseRest g).endWaiting g).shadowDiscard g fun _ => true
  let (s2, fs) := s1.lkReleaseAll (s1.lkId g)
  let s3 := s2.lkEffects fs
  let s4 := { s3 with
    cmds := s3.cmds.map fun (e : Nat × EngCmd) => (e.1, if e.2.c.g == g then { e.2 with dead := true, retry := true } else e.2)
    subs := s3.subs.map fun (e : Nat × Sub) => (e.1, if e.2.c.g == g then { e.2 with dead := true, retry := true } else e.2) }
  (s4.taskGone g).freeCtx g

/-- The kill of a task (16 R345); the kill record carries the trap registers. -/
def State.kill (s : State) (g : Nat) : State :=
  let c := s.ctx g
  let ioc := s.iocOf g
  let ker := s.kernelOf g
  let step := s.kernelStep c.al.kernel
  let s1 := s.killCtx g
  let s2 := match c.twin with
    | some t => s1.killCtx t
    | none => s1
  let s3 := match ker with
    | some k => s2.breakObjects k
    | none => s2
  let s4 := s3.postHost ioc ⟨6, c.trapc.toNat % 256, 0, c.tgcid, c.trappc.toNat, c.trapc.toNat⟩
  match ker with
  | some k => ((s4.groupsOf ioc k.asid).foldl (fun s n => s.sendAbort n step) s4).releaseKernels ioc
  | none => s4

/-! ### Taking a trap and returning from one -/

/-- Trap entry into the handler (16 R343): the context rolls back, the CSRs are written, and it is killed in handler
mode or without a handler; else TCOPY is taken, HND is set, the PC is the handler's and a checkpoint copy follows. A
secondary still before the trap takes the values that its primary shared (05 R95). -/
def State.enterHandler (s : State) (g : Nat) (t : TrapReq) : State :=
  let s1 := s.unwind g
  let c := (s1.ctx g).setTrap t
  let s2 := s1.setCtx g c
  if c.hnd then s2.kill g
  else
    match s2.devWord c.space (c.htb.toNat + 8 * t.cause) with
    | .error _ => s2.kill g
    | .ok e =>
      if e % 4 ≠ 0 || e < 2 ^ 32 then s2.kill g
      else
        let r := { c.r with pc := BitVec.ofNat 64 e }
        -- past the first deadline the implicit checkpoint is a save point (R348)
        let todo := if c.pendWhole then [Tail.save none] else []
        (s2.setCtx g { c with tcopy := some c.r, hnd := true, r := r, ivs := [c.openWith r], nextIv := c.nextIv + 1,
                              epoch := c.epoch + 1, wndAt := 0, todo := todo }).endRun g .ready

/-- The points of R332 for a cause. -/
def causePoints (cause : Nat) : Nat := if cause = 0x11 || cause = 0x12 then 8 else 0

/-- A context rolled back and resumed from its copy, with the trap's values and one replay more (15 R329, R330). A twin whose interval
has agreed and whose copy follows has nothing to roll back. -/
def State.replayCtx (s : State) (g : Nat) (t : TrapReq) : State :=
  let n := (s.ctx g).replay
  if (s.ctx g).between then s.setCtx g { (s.ctx g).setTrap t with replay := n + 1 }
  else
    let s1 := s.rollback g
    let c := (s1.ctx g).setTrap t
    (s1.setCtx g { c with
      replay := n + 1, wndAt := 0, poisonAt := if t.how = .poison then some c.r.pc else c.poisonAt }).endRun g .ready

/-- The other twin where it is rolled back and replayed with a context: it has a context, and waits for no vote (15 R329). -/
def State.replayTwin (s : State) (g : Nat) (t : TrapReq) : Option Nat :=
  match (s.ctx g).twin with
  | some w => if t.how = .replay && (s.ctx w).st != .free then some w else none
  | none => none

/-- A local replay of a context and of its twin (15 R329, R330). -/
def State.localReplay (s : State) (g : Nat) (t : TrapReq) : State :=
  let s1 := (s.replayCtx g t).cmpeEvent (s.cmpeOf g) 1 t.cause (s.ctx g).tgcid (causePoints t.cause) none t.pc 0
  match s.replayTwin g t with
  | some w => s1.replayCtx w t
  | none => s1

/-- Whether a replay would raise the count of a context or of the twin replayed with it to 4 (15 R330). -/
def State.replaysOver (s : State) (g : Nat) (t : TrapReq) : Bool :=
  decide (3 ≤ (s.ctx g).replay) ||
    match s.replayTwin g t with
    | some w => decide (3 ≤ (s.ctx w).replay)
    | none => false

/-- The context waits for a third SPC (15 R331); in class 2 its twin is part of the vote, and where that one already
waits for a third SPC this one waits for the vote. -/
def State.toThird (s : State) (g : Nat) (t : TrapReq) : State :=
  let s1 := s.rollback g
  let c := (s1.ctx g).setTrap t
  match c.twin with
  | some w =>
    if (s1.ctx w).recov = .none then
      ((s1.setCtx w { s1.ctx w with recov := .voting }).setCtx g { c with recov := .pending t.cause t.pc 0 true }).endRun g .held
    else (s1.setCtx g { c with recov := .voting }).endRun g .held
  | none => (s1.setCtx g { c with recov := .pending t.cause t.pc 0 false }).endRun g .held

/-- The handler entered after a failed re-execution or a replay that met poison again, with its event: the cause that began
the sequence, the points of the event itself (15 R331 step 3, R335). -/
def State.failedAgain (s : State) (g : Nat) (t : TrapReq) (third : Option Nat) : State :=
  let (at', cause) := match (s.ctx g).recov with
    | .rerun orig cause _ _ => (orig / 16, cause)
    | _ => (s.cmpeOf g, t.cause)
  let s1 := s.cmpeEvent at' 7 cause (s.ctx g).tgcid (causePoints t.cause) third t.pc 0
  (s1.setCtx g { s1.ctx g with recov := .none }).enterHandler g t

/-- A re-execution that a trap of the handler ends is over: its interval neither agrees nor fails (15 R331 step 3). -/
def State.endRerun (s : State) (g : Nat) : State :=
  match (s.ctx g).recov with
  | .rerun _ _ _ _ => s.setCtx g { s.ctx g with recov := .none }
  | _ => s

/-- Whether a context is the third of a vote. -/
def Recov.isThird : Recov → Bool
  | .third _ _ _ _ _ => true
  | _ => false

/-- One trap taken by a context: the disposition of R342 and R329. The third context of a vote stops: it has no
signature. -/
def State.takeNow (s : State) (g : Nat) (t : TrapReq) : State :=
  let s0 := s.addScore (coreOf g) (causePoints t.cause)
  let c := s0.ctx g
  if c.recov.isThird then (s0.rollback g).endRun g .held
  else
  match t.how with
  | .handler =>
    -- WOUND: the grants become WOUNDED, for twins with the first delivery, and the frames under them go (13 R275)
    let first := (c.twin.map fun w => (s0.ctx w).wndp).getD true
    let s1 := if t.cause = 0x0B then
        (if first then
            let (s1, fs) := s0.lkWounded (s0.lkId g)
            s1.lkEffects fs
          else s0).shadowDiscard g fun f => f.iv == none
      else s0
    ((s1.setCtx g { s1.ctx g with wndp := if t.cause = 0x0B then false else (s1.ctx g).wndp }).endRerun g).enterHandler g t
  | how =>
    match c.recov with
    | .rerun _ _ _ third =>
      -- a first poison is replayed in a re-execution too; any other failure is a second one (15 R329, R331 step 3)
      if how = .poison && c.poisonAt != some c.oldest.pc && !s0.replaysOver g t then s0.localReplay g t
      else s0.failedAgain g t (some third)
    | _ =>
      if how = .poison && c.poisonAt == some c.oldest.pc then s0.failedAgain g t none
      else if how = .check && 1 ≤ c.pcls then s0.toThird g t
      -- persistent fault (15 R330)
      else if s0.replaysOver g t then s0.toThird g t
      else s0.localReplay g t

/-- A trap strikes a context: of it and of the traps that wait to be delivered to the context, the one of the highest
priority is reported (01 R20; 16 R342, R362). -/
def State.takeTrap (s : State) (g : Nat) (t : TrapReq) : State :=
  let c := s.ctx g
  match bestTrap (t :: c.due') with
  | some u => if u = t then s.takeNow g t else (s.setCtx g { c with due' := c.due'.erase u }).takeNow g { u with pc := t.pc }
  | none => s.takeNow g t

/-- ERET: every item of TCOPY is restored, or the PC becomes the target; HND clears (16 R355). The checkpoint copy
follows. -/
def State.leaveHandler (s : State) (g : Nat) (target : Option Word) : State :=
  let c := s.ctx g
  let r := match target with
    | some a => { c.r with pc := a }
    | none => c.tcopy.getD c.r
  s.setCtx g { c with r := r, hnd := false, tcopy := none }

/-! ### Landing -/

/-- The word that a vector register folds as it lands, over the lanes that `m` touches (08 R175). -/
def vecFold (op : Nat) (m x : Vec) : Word :=
  BitVec.ofNat 64 (op * 2 ^ 56 + ((List.range 128).map fun i =>
    if bits m.toNat (32 * i) 32 = 0 then 0 else bits x.toNat (32 * i) 32 % 7 * (i + 1)).sum)

/-- The words that a V result folds as it lands in a context (08 R173, R175). -/
def Flight.foldWords (f : Flight) (c : Ctx) : List Word :=
  f.folds ++ (match f.vop, f.res with
    | some op, .v i m x => [vecFold op m (blend (c.r.rv i) m x)]
    | some op, .q i m x => [vecFold op m (blend (c.r.rq i) m x)]
    | some _, .l i m x => let y := (blend (c.r.rl i) m x).toNat; [BitVec.ofNat 64 y, BitVec.ofNat 64 (y / 2 ^ 64)]
    | _, _ => [])

/-- A result lands: the register where it wins, and in any case its folds, its VFLG bits and its counts (02 R37; 04 R62; 08
R152, R158, R159, R175). -/
def State.landFlight (s : State) (g : Nat) (wins : Bool) (f : Flight) : State :=
  let c := s.ctx g
  let c1 := if wins then c.put f.res else c
  let c2 := (f.foldWords c).foldl Ctx.foldHi c1
  let s1 := s.setCtx g { c2 with r := { c2.r with vflg := c2.r.vflg ||| f.vflg } }
  f.excs.foldl (fun s e => s.countExc g e) s1

/-- Whether a result wins over another that lands in its register in the same cycle (02 R37). -/
def Flight.beats (a b : Flight) : Bool := decide (b.bundle < a.bundle) || (a.bundle == b.bundle && decide (b.slot < a.slot))

/-- Whether no result of a list supersedes a result in its register (02 R37). -/
def Flight.wins (l : List Flight) (f : Flight) : Bool :=
  f.res.reg == none || !(l.any fun x => x.res.reg == f.res.reg && x.beats f)

/-- Results that land in one cycle: a trap of one of them, or all of them in the registers; their iterative units are free
(04 R62, 05 R83, 06 R114). Results of one pipe from different bundles fold in the order of their issue, and a VFLG bit that CSRW or CSRC
clears as one of them sets it is as that order has it, or for those of VB set: the manual names neither (08 R158, R175; DESIGN CHOICE,
log 71). -/
def State.landAll (s : State) (g : Nat) (l : List Flight) : State × Option TrapReq :=
  match bestTrap (l.filterMap (·.trap)) with
  | some t => (s, some t)
  | none =>
    let c := s.ctx g
    let s1 := s.setCtx g { c with fl := c.fl.filter fun f => !l.contains f }
    let k := s1.core (coreOf g)
    let busy := l.filterMap (·.iter)
    let s2 := if busy = [] then s1 else s1.setCore (coreOf g) { k with iter := k.iter.filter fun u => !busy.contains u }
    (((l.filter (·.pipe != 7)) ++ l.filter (·.pipe == 7)).foldl (fun s f => s.landFlight g (f.wins l) f) s2, none)

/-- The statuses of XCHK and XFIX that are due at the present engine step, as results that land with the others (02 R37;
10 R217, R218). -/
def Ctx.statusDue (c : Ctx) : List Flight :=
  c.mx.filterMap fun o =>
    match o.eff, o.land with
    | .status d x _, some n =>
      if !o.landed && decide (n ≤ c.mstep) then
        some ⟨.s d x, 0, true, o.req.bundle, o.req.slot, none, [], none, 0, none, 0, []⟩ else none
    | _, _ => none

/-- The exposed results due at the present bundle count land (04 R62). -/
def State.landExposed (s : State) (g : Nat) : State × Option TrapReq :=
  let c := s.ctx g
  s.landAll g (c.fl.filter (fun f => !f.ilk && decide (f.land ≤ c.bseq)) ++ c.statusDue)

/-- The exposed results with the earliest count land, as in the wait of R64. -/
def State.landEarliest (s : State) (g : Nat) : State × Option TrapReq :=
  let c := s.ctx g
  let ex := c.fl.filter fun f => !f.ilk
  match ex with
  | [] => (s, none)
  | f :: r =>
    let m := r.foldl (fun b x => min b x.land) f.land
    s.landAll g (ex.filter fun x => x.land == m)

/-- A state, or the trap taken in it. -/
def State.orTrap (g : Nat) (p : State × Option TrapReq) : State :=
  match p.2 with
  | some t => p.1.takeTrap g t
  | none => p.1

/-! ### Intervals -/

/-- Agreement of the oldest open interval: its counts reach the kernel, its removals take effect, its frames are
committed, the replay count clears; a re-executed interval charges the original core (08 R159; 11 R245; 15 R318, R323,
R330, R331). -/
def State.agreeOldest (s : State) (g : Nat) : State :=
  let c := s.ctx g
  match c.ivs with
  | [] => s
  | iv :: rest =>
    let s1 := iv.excs.foldl (fun s e => s.kernelCount c.al.kernel e) s
    let ivs := if rest = [] then [{ iv with agreed := true, excs := [], removed := 0, dirty := [] }] else rest
    let first := c.epoch * 2 ^ 32 + (rest.head?.map (·.shared)).getD 0
    let s2 := s1.setCtx g { c with
      ivs := ivs, replay := 0, wndAt := c.wndAt - 1, efq := c.efq.drop iv.removed, deliver := c.deliver.filter fun (e : Nat × BitVec 128) => decide (first ≤ e.1) }
    let s3 := s2.shadowCommits g (c.follows (some iv.id)) fun f => f.iv == some iv.id
    match c.recov with
    | .rerun orig cause pc third =>
      let s4 := (s3.addScore orig 64).cmpeEvent (orig / 16) 3 cause c.tgcid 64 (some third) pc 0
      s4.setCtx g { s4.ctx g with recov := .none }
    | _ => s3

/-- The OPEN interval closes: its signature is captured, and in class 0 it agrees at once (15 R319, R326). -/
def State.closeInterval (s : State) (g : Nat) : State :=
  let c := s.ctx g
  let s1 := s.setCtx g { c with
    ivs := mapLast (fun i => { i with sig := some (c.sighi, c.siglo), closedAt := s.now - (c.twin.map fun t => (s.ctx t).exempt).getD 0 }) c.ivs
    cap := if c.pcls = 0 then (0, 0) else (c.siglo, c.sighi) }
  if c.pcls = 0 then s1.agreeOldest g else s1

/-- The checkpoint copy is taken and a new interval opens (15 R319). -/
def State.takeCopy (s : State) (g : Nat) : State :=
  let c := s.ctx g
  s.setCtx g { c with
    ivs := (c.ivs.filter fun i => !i.agreed) ++ [c.openWith c.r]
    nextIv := c.nextIv + 1
    opened := c.bseq
    siglo := 0
    sighi := 0 }

/-! ### The store containment buffer -/

/-- Granules that a context holds. -/
def Ctx.held (c : Ctx) : Nat := (c.scb.map (·.gran)).sum

/-- Granules held on a core. -/
def State.heldOn (s : State) (core : Nat) : Nat := ((coreCtxs core).map fun g => (s.ctx g).held).sum

/-- Whether entries of so many granules find room (15 R322). -/
def State.scbRoom (s : State) (g n : Nat) : Bool :=
  let c := s.ctx g
  decide (c.held + n ≤ 128) && decide (s.heldOn (coreOf g) + n ≤ 512)

/-- An entry's granules, 0 where it merges with the preceding scalar store of its interval (15 R321). -/
def Ctx.granOf (c : Ctx) (e : Entry) : Nat :=
  match c.scb.getLast? with
  | some p =>
    match p.op with
    | .store _ => if e.block.isSome && p.block == e.block && p.iv == e.iv then 0 else e.gran
    | _ => e.gran
  | none => e.gran

/-- An entry put into the buffer, in the OPEN interval; a TST writes its shadow frame, but one under a grant only when its
interval has agreed, since that frame outlives a rollback (13 R280); a CPYW takes the weight path (11 R235; 15 R321,
R323). -/
def State.scbEnter (s : State) (g : Nat) (e : Entry) : State :=
  let c := s.ctx g
  let e1 := { e with iv := c.openId }
  let e2 := { e1 with gran := c.granOf e1 }
  let s1 := s.setCtx g { c with scb := c.scb ++ [e2] }
  match e.op with
  | .shadow frame bs => if s1.grantFrame g frame then s1 else s1.shadowWrite g frame bs
  | .cmd m =>
    (match m.op with
      | .cpyw =>
        let k := s1.core (coreOf g)
        s1.setCore (coreOf g) { k with wload := k.wload ++ [(bits ((m.ws.getD 1 0).toNat) 0 1, g)] }
      | _ => s1)
  | _ => s1

/-- Entries of a list entered while they find room; those that find none are left over. -/
def State.scbFill (s : State) (g : Nat) : List Entry → State × List Entry
  | [] => (s, [])
  | e :: r =>
    let e1 := { e with iv := (((s.ctx g).ivs.getLast?).map (·.id)).getD 0 }
    if s.scbRoom g ((s.ctx g).granOf e1) then (s.scbEnter g e).scbFill g r else (s, e :: r)

/-! ### Waits -/

/-- What the evaluation of a wait finds. -/
inductive Waited where
  /-- Satisfied, in this state. -/
  | sat (s : State)
  /-- Not satisfied. -/
  | park
  /-- The read of this key and address meets an uncorrectable error. -/
  | bad (pa : Nat) (va : Word)
  deriving DecidableEq, Repr

/-- A scalar register written at once by a wait that is satisfied. -/
def State.putS (s : State) (g d : Nat) (x : Word) : State := s.setCtx g ((s.ctx g).put (.s d x))

/-- The barrier status of BWAIT (12 R263): status and whether it is satisfied. -/
def barStatus (obj : Nat) (ph : Nat) (expired : Bool) : Option Nat :=
  let brk := bits obj 36 1 = 1 || bits obj 0 16 = 0 || bits obj 38 26 ≠ 0
  if brk then some 3
  else if bits obj 37 1 = 1 then some 2
  else if bits obj 32 4 ≠ ph then some 0
  else if expired then some 1
  else none

/-- HADVs of a context for a ring that are not yet performed: their counts on a side (11 R237, R240). -/
def Ctx.heldAdv (c : Ctx) (core rix : Nat) (prod : Bool) : Nat :=
  (c.unperformed.map fun e => match e.op with
    | .hadv k i p n => if k == core && i == rix && p == prod then n else 0
    | _ => 0).sum

/-- The entry of a ring as a handle views it: counts with the context's own held advances (11 R237). -/
def State.ringView (s : State) (g core rix : Nat) (prod : Bool) : BitVec 128 :=
  let w := (s.core core).rings.at 0 rix
  let n := (s.ctx g).heldAdv core rix prod
  let p := bits w.toNat 64 32 + (if prod then n else 0)
  let q := bits w.toNat 96 32 + (if prod then 0 else n)
  BitVec.ofNat 128 (w.toNat % 2 ^ 64 + p % 2 ^ 32 * 2 ^ 64 + q % 2 ^ 32 * 2 ^ 96)

/-- A wait whose value the primary of a class 2 pair delivers (15 R317). -/
def State.waitTwin (s : State) (g d : Nat) : Waited :=
  let c := s.ctx g
  match c.delivered 0 with
  | none => .park
  | some x => .sat ((s.setCtx g { c with shared := c.shared + 1 }).putS g d (x.truncate 64))

/-- A satisfied wait: its value in the register, and for the secondary. -/
def State.waitDone (s : State) (g d : Nat) (x : Word) : Waited := .sat ((s.putS g d x).shareTwin g (x.zeroExtend 128))

/-- Whether a FENCE orders the CORE-path accesses of a context's last bundle, but for loads, behind accesses not yet
performed (07 R139). -/
def State.coreFenced (s : State) (g : Nat) : Bool := s.fencedAt g 0 ((s.ctx g).bseq - 1)

/-- The key that a wait reads at its home (12 R259, R263). -/
def Wait.key : Wait → Option Nat
  | .ge _ pa _ _ => some pa
  | .bar _ pa _ _ _ => some pa
  | _ => none

/-- A wait evaluated (04 R68, R80; 11 R239; 12 R259, R263; 13 R283). WAITGE and BWAIT
evaluate the value at the home only (12 R251; log 66). -/
def State.evalWait (s : State) (g : Nat) (w : Wait) (expired : Bool) : Waited :=
  let c := s.ctx g
  match w with
  | .flag all mask =>
    let hit := c.r.f.truncate 16 &&& mask
    if (all && hit == mask) || (!all && hit != 0) then
      .sat (s.setCtx g { c with r := { c.r with f := c.r.f &&& ~~~hit.zeroExtend 17 } })
    else if c.r.f.getLsbD 16 then .sat s
    else .park
  | .ge d pa x va =>
    if c.second then s.waitTwin g d
    else if s.coreFenced g then .park
    else if s.poisonedRange pa 8 then .bad pa va
    else
      let v := leNat (s.peek pa 8)
      if x.toNat ≤ v then s.waitDone g d (BitVec.ofNat 64 v) else .park
  | .bar d pa ph _ va =>
    if c.second then s.waitTwin g d
    else if s.coreFenced g then .park
    else if s.poisonedRange pa 16 then .bad pa va
    else
      let obj := leNat (s.peek pa 16)
      match barStatus obj ph expired with
      | some st => s.waitDone g d (BitVec.ofNat 64 (st + 256 * bits obj 32 4))
      | none => .park
  | .ring d core rix prod _ n =>
    if c.second then s.waitTwin g d
    else
      let v := s.ringView g core rix prod
      if bits v.toNat 34 1 = 1 then s.waitDone g d 3
      else if n ≤ (if prod then ringSlots v - ringFilled v else ringFilled v) then s.waitDone g d 0
      else .park
  | .lock d _ =>
    if c.second then s.waitTwin g d
    else
      match c.answer with
      | some st => ({ s with ctxs := s.ctxs.set g { c with answer := none } } : State).waitDone g d st
      | none => .park

/-! ### The work at the end of a bundle -/

/-- Every read interval of a context has agreed. -/
def Ctx.allAgreed (c : Ctx) : Bool := c.ivs.all fun i => i.agreed

/-- Whether commands of a context on named paths are still without their completion. -/
def State.cmdsOpen (s : State) (g : Nat) (paths : BitVec 6) : Bool :=
  let c := s.ctx g
  s.cmds.any (fun e => c.owns g e.2.c.g && !e.2.dead && onPath paths e.2.path) ||
    s.subs.any (fun e => c.owns g e.2.c.g && onPath paths 4)

/-- DRAIN is over: no entry or command of the context on its paths is left, nor of the primary that performs them for a class 2
secondary, whose intervals have agreed with it (07 R142; 15 R316). Every released write is performed at its home, so the scope adds
nothing (log 10). -/
def State.drained (s : State) (g : Nat) (paths : BitVec 6) : Bool :=
  !s.twinOpen g paths && ((s.ctx g).twin.isNone || decide ((s.ctx g).ivs.length ≤ 1)) && !((s.ctx g).scb.any fun e => onPath paths e.path) && !(onPath paths 0 && (s.ctx g).flying != []) && !s.cmdsOpen g paths

/-- The conditions of TEND (04 R81 step 2). -/
def State.tendReady (s : State) (g : Nat) : Bool :=
  let c := s.ctx g
  c.allAgreed && c.scb == [] && c.flying == [] && (s.shadowsOf g fun f => f.iv != none) == [] && !s.cmdsOpen g 0x3F &&
    !(s.cmds.any fun e => e.2.c.g == g && !e.2.dead)

/-- A task ends: its locks are released, its shadows under grants committed, its context freed (04 R81 steps 3 and 4; 12
R264); with it a saved kernel's clusters may be free to go (14 R312). -/
def State.taskEnd (s : State) (g : Nat) : State :=
  let c := s.ctx g
  let s1 := s.shadowCommits g c.second fun _ => true
  let (s2, fs) := if c.second then (s1, []) else s1.lkReleaseAll (s1.lkId g)
  let s3 := s2.lkEffects fs
  -- a task that ends through ABORT breaks the objects of its kernel (12 R264)
  let s4 := match s3.kernelOf g with
    | some k => if c.hnd && c.trapc.toNat % 256 = 0x18 then s3.breakObjects k else s3
    | none => s3
  ((s4.taskGone g).freeCtx g).releaseKernels (s.iocOf g)

/-- How far a context has come since its last agreed interval: open intervals, then bundles of the OPEN one; twins that
have issued the same bundles have come as far (MODEL; 15 R316). -/
def Ctx.place (c : Ctx) : Nat := c.openCount * 2 ^ 64 + (c.bseq - c.opened)

/-- Whether a save of a context has been decided on. -/
def Ctx.savingNow (c : Ctx) : Bool := c.saving.isSome || c.todo.any fun t => match t with | .save _ => true | _ => false

/-- Whether the twin of a context is being saved. -/
def State.twinSaving (s : State) (g : Nat) : Bool :=
  match (s.ctx g).twin with
  | some t => (s.ctx t).savingNow
  | none => false

/-- Whether a context may be saved at a bundle that it is about to finish: a save slot is free, and a twin is saved at
the matching point (16 R347, R348). -/
def State.savePoint (s : State) (g : Nat) : Bool :=
  let c := s.ctx g
  let io := s.ioc (s.iocOf g)
  let free := io.nslot - (io.used.filter fun (e : Nat × Nat) => e.1 < io.nslot).length
  match c.twin with
  | none => decide (1 ≤ free)
  | some t =>
    let d := s.ctx t
    if d.savingNow then decide (1 ≤ free) && d.place == c.place + 1 else decide (2 ≤ free) && decide (d.place ≤ c.place)

/-- A context enters HELD for its save in a slot (16 R348); with no slot free the request waits and the host is told
once (R347). -/
def State.beginSave (s : State) (g : Nat) (hint : Option Hint) : State :=
  let i := s.iocOf g
  let io := s.ioc i
  match io.slotFree with
  | none => if io.fullTold then s else (s.setIoc i { io with fullTold := true }).postHost i ⟨8, 0, 0, 0, 0, 0⟩
  | some n =>
    let s1 := s.setIoc i { io with used := io.used.set n g }
    (s1.setCtx g { s1.ctx g with saving := some hint }).endRun g .held

/-- The bits of a load's parts, gathered at their destination places (06 R112 to R118). -/
def State.gather (s : State) (parts : List (Nat × Nat × Nat)) : Nat :=
  (parts.map fun p => bits (leNat (s.peek (p.2.1 / 8) ((p.2.1 % 8 + p.2.2 + 7) / 8))) (p.2.1 % 8) p.2.2 * 2 ^ p.1).sum

/-- The destination bits of a load's parts. -/
def partsMask (parts : List (Nat × Nat × Nat)) : Nat := (parts.map fun p => (2 ^ p.2.2 - 1) * 2 ^ p.1).sum

/-- The key of the first access of a load that meets poison, and what the fault registers receive from it (06 R101). -/
def State.loadPoisoned (s : State) (ld : Load) : Option (Nat × Word × Word × Word × Word) :=
  (ld.marks.find? fun m => s.poisonedRange m.1 m.2.1).map fun m => (m.1, m.2.2)

/-- Whether the primary of a secondary still has operations of agreed intervals to perform (15 R316). -/
def State.twinReleases (s : State) (g : Nat) : Bool :=
  match (s.ctx g).second, (s.ctx g).twin with
  | true, some t =>
    let d := s.ctx t
    d.flying != [] || d.scb.any fun e => !(d.ivs.any fun i => i.id == e.iv && !i.agreed)
  | _, _ => false

/-- The result of a load. -/
def State.loadRes (s : State) (ld : Load) : Res :=
  let x := s.gather ld.parts
  match ld.dst with
  | .s i => .s i (BitVec.ofNat 64 x)
  | .q i => .q i (BitVec.allOnes 4096) (BitVec.ofNat 4096 x)
  | .v i => .v i (BitVec.ofNat 4096 (partsMask ld.parts) ||| ld.zero) (BitVec.ofNat 4096 x)
  | _ => .none

/-- Whether a wound is delivered to a parked context now: of twins when both are parked at one place, or with the other's
(13 R275, R285). -/
def State.woundParked (s : State) (g : Nat) : Bool :=
  let c := s.ctx g
  c.st == .parked && c.wndp && match c.twin with
    | some t => let d := s.ctx t; !d.wndp || (d.st == .parked && d.place == c.place)
    | none => true

/-- Traps that wait for the end of a bundle are delivered, the best of them (16 R342). -/
def State.deliverDue (s : State) (g : Nat) (pc : Word) : State :=
  let c := s.ctx g
  match bestTrap c.due' with
  | none => s
  | some t => (s.setCtx g { c with due' := [] }).takeTrap g { t with pc := pc }

/-- The work of a context before its first bundle: what waited while it was HELD (13 R275; 16 R346). -/
def Ctx.firstWork (c : Ctx) : List Tail :=
  (if c.due' = [] then [] else [.due c.r.pc]) ++ if c.wndp then [.wound c.r.pc] else []

/-- The read of the work at the end of a bundle waits at the unit of a key; none while it does so already (17 R364 to R368). -/
def State.awaitUnit (s : State) (g pa : Nat) : Option State :=
  let q := MemReq.read g (s.ctx g).bseq
  if s.waitsFor q pa then none else some (s.waitFor q pa)

/-- The head of what is left to do at the end of a bundle, done; none while it must wait. -/
def State.settleOne (s : State) (g : Nat) : Option State :=
  let c := s.ctx g
  match c.todo with
  | [] => none
  | t :: r =>
    let s' := s.setCtx g { c with todo := r }
    match t with
    | .land => if c.fl = [] && c.mx.all (fun o => o.landed || s.mxStuck g o) then some s' else none
    | .wound pc => some (if c.woundDue then s'.takeTrap g ⟨0x0B, 0, pc, 0, 0, 0, 0, 0, .handler⟩ else s')
    | .close => if 4 ≤ c.ivs.length then none else some (s'.closeInterval g)
    | .agree => if c.allAgreed && c.scb = [] then some s' else none
    -- what could not land before the interval closed has landed now (04 R64; log 62)
    | .copy => if c.mx.all (·.landed) then some (s'.takeCopy g) else none
    | .enter es =>
      let (s1, left) := s'.scbFill g es
      let waits := es.any (fun e => e.path == 2) && decide (4 < (s.core (coreOf g)).outst)
      if left = [] && !waits then some s1 else none
    -- poison here enters the handler at once, as a returning atomic's does (12 R251, R256; 06 R114; DESIGN CHOICE, log 72)
    | .load pc slot ld =>
      if c.flying != [] then none else
      -- a secondary's load follows the operations that its primary performs for both (12 R251; 15 R316)
      if s.twinReleases g then none
      else
        match ld.marks.find? fun m => s.holdsBack (.read g c.bseq) m.1 with
        | some m => s.awaitUnit g m.1
        | none =>
        match s.loadPoisoned ld with
        | some (pa, va, n, n1, n2) => some (((s'.logError pa 2 0 g).takeCopy g).takeTrap g ⟨0x10, 0, pc, slot, va, n, n1, n2, .handler⟩)
        | none => some ((s'.setCtx g ((s'.ctx g).put (s.loadRes ld))).countReads g (ld.marks.map (·.1)))
    | .drain .. => none
    | .due pc => some (s'.deliverDue g pc)
    | .wait w pc slot again =>
      match w.key.filter fun pa => s.holdsBack (.read g c.bseq) pa with
      | some pa => s.awaitUnit g pa
      | none =>
      match (s'.countReads g w.key.toList).evalWait g w false with
      | .sat s1 => some s1
      | .bad pa va => some ((s'.logError pa 2 0 g).takeTrap g ⟨0x10, 0, pc, slot, va, 0, 0, 0, .poison⟩)
      | .park =>
        let s1 := s.countReads g w.key.toList
        if again then some ((s1.setCtx g { c with todo := r, wait := some (w, pc, slot) }).endRun g .parked)
        else some (s1.setCtx g { c with todo := .land :: .wait w pc slot true :: r })
    | .lock .. => none
    | .ttinv .. => none
    | .icinv .. => none
    | .save hint =>
      -- every entry must be released first (16 R348)
      if c.scb != [] then some (s.setCtx g { c with todo := .close :: .agree :: .copy :: t :: r })
      else if c.flying != [] || c.mx.any (fun o => !o.landed) then none
      else if (s.ioc (s.iocOf g)).slotFree.isNone && s.twinSaving g then none else some (s'.beginSave g hint)
    | .trap t => some (s'.takeTrap g t)
    | .abort grp => some (s'.sendAbort grp.toNat (s.kernelStep c.al.kernel))
    | .eret target => some (s'.leaveHandler g target)
    | .yield => some (s'.endRun g .ready)
    | .ending => some (s'.endRun g .ending)
    | .tend => if s.tendReady g then some (s'.taskEnd g) else none
    | .runEnd => some (s'.endRun g .ready)
    | .expire _ => if c.run = 0 then none else some s'

/-- The work at the end of a bundle done as far as it goes, in at most `n` steps, while the context may act. -/
def State.settleN (s : State) (g : Nat) : Nat → State
  | 0 => s
  | n + 1 =>
    if (s.ctx g).st = .issuing || (s.ctx g).st = .ending then
      match s.settleOne g with
      | some s1 => s1.settleN g n
      | none => s
    else s

/-- The work at the end of a bundle done as far as it goes. -/
def State.settle (s : State) (g : Nat) : State := s.settleN g 32

/-! ### The issue of a bundle -/

/-- A trap request at the bundle in issue. -/
def State.trapAt (s : State) (cause : Nat) (va : Word) : TrapReq :=
  ⟨cause, 0, s.iss.pc, s.iss.slot, va, 0, 0, 0, .handler⟩

/-- What the slots have asked for, of one kind. -/
def Issue.pickActs {α : Type} (i : Issue) (f : Nat → Act → Option α) : List α := i.acts.filterMap fun e => f e.1 e.2

/-- The checkpoint kinds of a bundle: whether it is one, and whether it waits as a returning operation does. -/
def Issue.ckptKind (i : Issue) : Option Bool :=
  match i.pickActs fun _ a => match a with | .ckpt r => some r | _ => none with
  | [] => none
  | l => some (l.any fun b => b)

/-- Whether a bundle's own CKPT has a true guard, so that its DRAIN takes effect (07 R142, 15 R337). -/
def Issue.drainOn (i : Issue) : Bool := i.acts.any fun e => match e.2 with | .drainOn => true | _ => false

/-- Whether an entry is made by an X or a Q slot (15 R321). -/
def EntOp.byXQ : EntOp → Bool
  | .cmd m => m.op != .attq
  | .hadv _ _ _ _ => true
  | _ => false

/-- Whether an operation returns a value to a register (12 R248). -/
def EntOp.returns : EntOp → Bool
  | .atomic _ _ _ _ _ d => d != 0
  | .barv _ _ d => d != 0
  | _ => false

/-- Whether an operation is a FENCE marker. -/
def EntOp.fences : EntOp → Bool
  | .fence _ _ => true
  | _ => false

/-- An entry put among those of its bundle by its slot. -/
def insertSlot (x : Nat × Entry × List Word) : List (Nat × Entry × List Word) → List (Nat × Entry × List Word)
  | [] => [x]
  | y :: r => if x.1 < y.1 then x :: y :: r else y :: insertSlot x r

/-- The entries of a bundle in the order they enter: by slot, but a FENCE marker before those of every X and Q slot, and a
returning operation last (12 R248, 15 R321). -/
def orderEntries (l : List (Nat × Entry × List Word)) : List (Nat × Entry × List Word) :=
  let all := l.foldl (fun acc e => insertSlot e acc) []
  let sorted := all.filter (fun e => !e.2.1.op.returns) ++ all.filter fun e => e.2.1.op.returns
  match sorted.find? fun e => e.2.1.op.fences with
  | none => sorted
  | some f =>
    let rest := sorted.filter fun e => !e.2.1.op.fences
    rest.filter (fun e => e.1 < f.1 && !e.2.1.op.byXQ) ++ f :: rest.filter fun e => !(e.1 < f.1 && !e.2.1.op.byXQ)

/-- Whether some granule of a core belongs to an interval that is not OPEN (15 R322). -/
def State.olderHeld (s : State) (core : Nat) : Bool :=
  (coreCtxs core).any fun g =>
    let c := s.ctx g
    let last := c.openId
    c.scb.any fun e => e.iv != last && e.gran != 0

/-- A context's stall is counted and remembered; the bundle is not issued (04 R63). -/
def State.stalled (s : State) (w : StallOn) : State :=
  let c := s.me
  let s1 := ({ s with iss := Issue.idle }).setMe { c with stall := some w, cntS := c.cntS + 1 }
  match w with
  | .mem pa => s1.waitFor (.read s.cur c.bseq) pa
  | _ => s1

/-- A trap ends the issue of the bundle. The bundle does not count as issued in counter 1 of CNTRD, the model's choice (DESIGN
CHOICE, log 61; 05 R95). -/
def State.trapped (s : State) (t : TrapReq) : State := ({ s with iss := Issue.idle }).takeTrap s.cur t

/-- How the entries of a bundle find room (15 R322): the entries that enter now and those that wait for the new
interval of an implicit checkpoint; a stall; or CONTAINFULL at a slot. -/
inductive Room where
  /-- Entries that enter now, and those left for a new interval. -/
  | fits (now later : List Entry)
  /-- The bundle stalls. -/
  | stall
  /-- CONTAINFULL at a slot. -/
  | full (slot : Nat)
  deriving DecidableEq, Repr

/-- Room for a bundle's entries (15 R322; 10 R207). -/
def State.findRoom (s : State) (g : Nat) (es : List Entry) : Room :=
  let c := s.ctx g
  let (s1, left) := s.scbFill g es
  match left with
  | [] => .fits es []
  | e :: _ =>
    if c.pcls = 0 then
      (if cfgChn c.r.mxcfg.toNat then .full e.slot else .fits (es.take (es.length - left.length)) left)
    else if 128 < (s1.ctx g).held + e.gran then .full e.slot
    else if s.olderHeld (coreOf g) then .stall
    else .full e.slot

/-- The run limit falls due (04 R66). -/
def State.runDue (s : State) (g : Nat) : State :=
  let c := s.ctx g
  if c.run ≤ c.runLimit / 8 then s.setCtx g { c with due := true } else s

/-- Whether a piece of work evaluates a wait. -/
def Tail.isWait : Tail → Bool
  | .wait .. => true
  | .lock .. => true
  | _ => false

/-- Whether a piece of work invalidates translations or instructions (16 R359, R360). -/
def Tail.isInv : Tail → Bool
  | .ttinv .. => true
  | .icinv .. => true
  | _ => false

/-- The checkpoint of a bundle past its first deadline saves the context (16 R348). -/
def State.saveHere (s : State) (g : Nat) : Bool := ((s.ctx g).pendWhole || s.twinSaving g) && s.savePoint g

/-- The run-limit counter has reached 0 with no checkpoint bundle since it fell due: in class 0 the bundle is an implicit
checkpoint bundle that ends the run; in classes 1 and 2, RUNLIMIT (04 R66). What the bundle leaves stands in `todo`. -/
def State.runExpired (s : State) (g : Nat) (pc : Word) : State :=
  let c := s.ctx g
  if c.pcls = 0 then
    let waits := c.todo.takeWhile Tail.isWait
    let rest := c.todo.dropWhile Tail.isWait
    let ck : List Tail := if s.saveHere g then [.land, .wound pc, .close, .agree, .copy, .save none] else [.land, .wound pc, .close, .copy]
    s.setCtx g { c with todo := waits ++ ck ++ rest ++ if rest.contains .yield then [] else [.runEnd] }
  else s.takeTrap g ⟨0x14, 0, pc, 0, 0, 0, 0, 0, .handler⟩

/-- The work that a bundle leaves, in order: a wait, then a checkpoint with what follows it. In a checkpoint bundle a wound
comes before the wait too (04 R82). A returning operation that waits for a new interval closes that one as well (12 R248,
15 R322). Two waits of one bundle stand in slot order, the model's choice (DESIGN CHOICE, log 61): the manual gives no order
between them (04 R68). -/
def tailOrder (pc : Word) (kind : Option Bool) (later : List Entry) (ts : List Tail) (due : Bool) : List Tail :=
  let isEnd (t : Tail) : Bool := match t with | .yield | .ending | .tend => true | _ => false
  let isMid (t : Tail) : Bool := match t with | .eret _ | .load .. => true | _ => false
  let isTrap (t : Tail) : Bool := match t with | .trap _ => true | _ => false
  let waits := ts.filter Tail.isWait
  let ends := ts.filter isEnd
  let rest := ts.filter fun t => !t.isWait && !isEnd t && !isMid t && !isTrap t
  let enter := if later = [] then [] else [Tail.enter later]
  -- a wait is evaluated after every other slot has taken effect (04 R68)
  let inv := if waits = [] then [] else ts.filter Tail.isInv
  let ck := match kind with
    | none => []
    | some false => [.land, .wound pc, .close] ++ (if ends.contains .ending then [] else [.copy]) ++ enter
    | some true =>
      [.land, .wound pc] ++ (if later = [] then [] else [.close, .copy, .enter later]) ++ [.close, .agree] ++ ts.filter isMid ++ [.copy]
  let fin := if ends.contains .yield then [Tail.land, .yield] else if ends != [] then ends
    else if due && kind.isSome then [.runEnd] else []
  -- a trap that waits is taken in place of the end of the task (04 R82)
  let first := (if ends.contains .ending then [Tail.due pc] else []) ++ if waits != [] && kind.isSome then [Tail.wound pc] else []
  let all := first ++ inv ++ waits ++ ck ++ (rest.filter fun t => !inv.contains t) ++ ts.filter isTrap
  if all = [] && fin = [] then [] else all ++ (if ends.contains .ending then [] else [.due pc]) ++ fin

/-- What a chain records of the X operation of a bundle (10 R207). -/
def Ctx.chainStep (c : Ctx) (r : XReq) : Ctx :=
  match c.chainOf r with
  | some ch =>
    if r.op = 2 then c.setChain { ch with macSeen := true, begun := true }
    else if r.op = 1 then c.setChain { ch with begun := true }
    else c.setChain { ch with begun := true, init := ch.init ++ r.rows }
  | none => c

/-- Whether an X operation makes an entry of the SCB (10 R214, R215). -/
def XReq.stores (r : XReq) : Bool := r.op == 6 || r.op == 8

/-- What each slot asked for besides entries takes effect, in slot order (02 R36). -/
def State.applyAct (s : State) (slot : Nat) (a : Act) : State :=
  let g := s.cur
  let c := s.ctx g
  let fly (land : Nat) (ilk : Bool) (o : VOut) : State :=
    s.setCtx g { c with fl := c.fl ++ [⟨o.res, land, ilk, c.bseq, slot, o.trap, o.folds, o.vop, o.pipe, none, o.vflg, o.excs⟩] }
  match a with
  | .fly lat r => fly (c.bseq + lat) false ⟨r, [], none, 0, 0, [], none⟩
  | .vec lat ilk o => fly (c.bseq + lat) ilk o
  | .ilk r trap => fly c.bseq true ⟨r, [], none, 0, 0, [], trap⟩
  | .jump target fold =>
    let c1 := c.foldHi fold
    s.setCtx g (match target with
      | some a => { c1 with r := { c1.r with pc := a } }
      | none => c1)
  | .mx r => if r.stores then s else ((s.setCtx g (c.chainStep r)).mxStart g r).1
  | .chainOpen =>
    s.setCtx g { c with chains := c.chains ++ [⟨c.bseq, false, false, [], [], false, []⟩],
                        r := { c.r with mxcfg := setBit c.r.mxcfg 63 true } }
  | .chainClose =>
    let c1 := { c with r := { c.r with mxcfg := setBit c.r.mxcfg 63 false } }
    (match c.chains.getLast? with
      | some ch => s.setCtx g (c1.setChain { ch with closed := true })
      | none => s.setCtx g c1)
  | .useIter u =>
    let k := s.core (coreOf g)
    -- the unit is held by the slot's result until it lands
    (s.setCore (coreOf g) { k with iter := insertNat u k.iter }).setCtx g { c with
      fl := c.fl.map fun f => if f.ilk && f.bundle == c.bseq && f.slot == slot && f.iter.isNone then { f with iter := some u } else f }
  | .share x =>
    if c.second then s.setCtx g { c with shared := c.shared + 1 } else s.shareTwin g x
  | .pref asid tid tile =>
    let k := s.core (coreOf g)
    if k.walks.contains (asid, tid, tile) then s else s.setCore (coreOf g) { k with walks := k.walks ++ [(asid, tid, tile)] }
  | .log pa => s.logError pa 2 0 g
  | .touch pas => s.countReads g pas
  | .wake pa => s.wake pa
  | .efq remove clear =>
    s.setCtx g { c with
      efOvf := c.efOvf && !clear
      ivs := mapLast (fun i => { i with removed := i.removed + remove.toNat }) c.ivs }
  | _ => s

/-- The X operation of a bundle that makes an entry takes its payload: the entry (10 R214, R215). -/
def State.startX (s : State) (pc : Word) : List (Nat × XReq) → State × List (Nat × Entry × List Word)
  | [] => (s, [])
  | (slot, r) :: _ =>
    match s.mxStart s.cur r with
    | (s1, none) => (s1, [])
    | (s1, some (op, folds)) => (s1, [(slot, ⟨op, 0, 1, s1.me.bseq, pc, slot, none, 2, folds.headD 0⟩, folds)])

/-- Whether an act starts a matrix operation. -/
def Act.isMx : Act → Bool
  | .mx _ => true
  | _ => false

/-- Acts of slots take effect in order. -/
def State.applyActs (s : State) (l : List (Nat × Act)) : State := l.foldl (fun s e => s.applyAct e.1 e.2) s

/-- A context as its bundle at `pc` begins to take effect: the PC at the fall-through bundle, the bundle counted. -/
def Ctx.begun (c : Ctx) (pc next : Word) : Ctx :=
  { c with r := { c.r with pc := next }, stall := none, cntB := c.cntB + 1, lastPc := pc }

/-- The counts of a bundle that ends, and the work that it leaves. -/
def Ctx.ended (c : Ctx) (work : List Tail) : Ctx :=
  { c with bseq := c.bseq + 1, mstep := c.mstep + 1, run := c.run - 1, todo := work }

/-- What is due at the end of a bundle lands or is delivered, and its work begins; `waits` says that the run limit does not run out
here (04 R62, R66; 10 R221; 16 R342). -/
def State.bundleEnds (s : State) (g : Nat) (pc : Word) (waits : Bool) : State :=
  match s.landExposed g with
  | (s1, some t) => s1.takeTrap g (s1.withMxTrap g t)
  | (s1, none) =>
    match s1.mxLandDue g ((s1.ctx g).mx.length + 1) with
    | (s2, some t) => s2.takeTrap g t
    | (s2, none) =>
      let expired := (s2.ctx g).run = 0 && !waits
      let s3 := s2.runDue g
      let c3 := s3.ctx g
      let s4 := if expired then s3.setCtx g { c3 with todo := .expire pc :: c3.todo } else s3
      let s5 := if (s4.ctx g).todo = [] then s4.deliverDue g pc else s4
      s5.settle g

/-- Entries of a bundle that wait for a new interval stand in what is left of it, where the FENCE of the bundle holds back its X
operation too (07 R139; 15 R322). -/
def State.awaiting (s : State) (g : Nat) (later : List Entry) : State :=
  if later = [] then s else s.setCtx g { s.ctx g with todo := [.enter later] }

/-- Whether an entry is a command that reads memory for its bundle (02 R36). -/
def Entry.readsMem (e : Entry) : Bool :=
  match e.op with
  | .cmd m => m.op.reads
  | _ => false

/-- The bytes that TSTs of a bundle write into shadow frames, as they stood before: by their keys there, and for a frame of an interval
by those of the frame copied from (02 R36; 15 R323); none where no command of the bundle reads. -/
def State.tstOld (s : State) (g : Nat) (es : List Entry) : List (Nat × Byte) :=
  if !es.any Entry.readsMem then []
  else
    es.flatMap fun e =>
      match e.op with
      | .shadow frame bs =>
        let orig := ((s.allShadows g).find? fun f => f.2.g == g && f.2.frame == frame && f.2.iv != none).map fun f => f.2.orig
        bs.flatMap fun b =>
          let x := (s.view g b.1 1).headD 0
          (b.1, x) :: (orig.map fun k => (b.1 - frame + k, x)).toList
      | _ => []

/-- Entries whose commands read bytes as they stood before their bundle's writes (02 R36). -/
def keepEntries (old : List (Nat × Byte)) (es : List Entry) : List Entry :=
  if old = [] then es
  else es.map fun e => match e.op with
    | .cmd m => { e with op := .cmd (m.keep old) }
    | _ => e

/-- The end of a bundle without stall or trap: entries, results, folds, the engine step, the run limit, the PC, and the
work that is left (02 R36; 04 R62, R66; 15 R321). -/
def State.issueAll (s : State) (now later : List Entry) (folds : List Word) : State :=
  let i := s.iss
  let g := s.cur
  let c := s.ctx g
  let kind := match i.ckptKind with
    | some r => some r
    | none => if later = [] then none else some false
  -- fall-through, then what the slots ask for
  let s1 := ({ s with iss := Issue.idle }).setCtx g (c.begun i.pc (i.pc + BitVec.ofNat 64 (4 * i.n)))
  let s2 := s1.applyActs (i.acts.filter fun e => !e.2.isMx)
  let s3 := s2.setCtx g ((s2.ctx g).foldLo folds)
  let old := s3.tstOld g (now ++ later)
  let s4 := (keepEntries old now).foldl (fun s e => s.scbEnter g e) s3
  -- an X operation that reads memory starts behind the marker of its bundle (07 R139)
  let s5 := (s4.awaiting g (keepEntries old later)).applyActs (i.acts.filter fun e => e.2.isMx)
  let c5 := s5.ctx g
  let isDrain (t : Tail) : Bool := match t with | .drain .. => true | _ => false
  let ts := (i.pickActs fun _ a => match a with | .tail t => some t | _ => none).filter fun t => i.drainOn || !isDrain t
  let pend := kind.isSome && s5.saveHere g && !(ts.any fun t => match t with | .save _ => true | _ => false)
  let kind' := if pend then some true else kind
  let todo := tailOrder i.pc kind' (keepEntries old later) (ts ++ if pend then [.save none] else []) (c5.due || c5.run ≤ 1)
  -- in class 0 inside a chain, as it stood before the bundle, the limit waits (R66)
  (s5.setCtx g (c5.ended todo)).bundleEnds g i.pc (kind'.isSome || (c.pcls = 0 && cfgChn c.r.mxcfg.toNat))

/-- Accumulator groups in which an X operation met an uncorrectable entry become invalid (17 R371). -/
def State.spoil (s : State) (groups : List Nat) : State :=
  let k := s.core (coreOf s.cur)
  if groups = [] then s
  else s.setCore (coreOf s.cur) { k with acc := { k.acc with ginv := groups.foldl (fun x d => setBit x d true) k.acc.ginv } }

/-- A weight buffer of the acting context's core becomes invalid (17 R371). -/
def State.spoilWb (s : State) (wb : Nat) : State :=
  let k := s.core (coreOf s.cur)
  s.setCore (coreOf s.cur) (k.setWb wb { k.wb wb with valid := false })

/-- The end of a bundle whose slots have all executed: it stalls, traps, or takes effect (02 R36; 15 R322; 16 R342). -/
def State.finish (s : State) : State :=
  let i := s.iss
  let g := s.cur
  match i.pickActs fun _ a => match a with | .stall w => some w | _ => none with
  | w :: _ => s.stalled w
  | [] =>
    match bestTrap (i.pickActs fun _ a => match a with | .trap t => some t | _ => none) with
    | some t =>
      let s1 := (i.pickActs fun _ a => match a with | .log pa => some pa | _ => none).foldl (fun s pa => s.logError pa 2 0 s.cur) s
      ((i.pickActs fun _ a => match a with | .badBuffer b => some b | _ => none).foldl State.spoilWb
        (s1.spoil (i.pickActs fun _ a => match a with | .spoiled l => some l | _ => none).flatten)).trapped t
    | none =>
      let xs := i.pickActs fun sl a => match a with | .mx r => if r.stores then some (sl, r) else none | _ => none
      let made := i.pickActs fun sl a => match a with
        | .enter op gran block path folds => some (sl, (⟨op, 0, gran, s.me.bseq, i.pc, sl, block, path, folds.headD 0⟩ : Entry), folds)
        | _ => none
      -- the X operation starts in the engine before its entry is placed
      let (sx, xe) := s.startX i.pc xs
      let all := orderEntries (made ++ xe)
      let holds (e : Entry) : Bool := match e.op with | .cmd m => m.rows != [] | _ => false
      let stageFull := xe.any (fun e => holds e.2.1) && 4 < (sx.core (coreOf g)).outst
      match s.findRoom g (all.map (·.2.1)) with
      | .stall => s.stalled .busy
      | .full slot => s.trapped { s.trapAt 0x17 0 with slot := slot }
      | .fits now later =>
        if stageFull && (1 ≤ s.me.pcls || cfgChn s.me.r.mxcfg.toNat) then
          s.trapped { s.trapAt 0x17 0 with slot := (xe.map fun e => e.1).headD 0 }
        else
          let late := if stageFull then now.filter fun e => e.path == 2 else []
          let now' := if stageFull then now.filter fun e => e.path != 2 else now
          sx.issueAll now' (late ++ later) (all.flatMap (·.2.2))

/-- A slot has executed with what it asks for: the next slot follows, or the bundle ends. -/
def State.retire (s : State) (as : List Act) : State :=
  let i := s.iss
  let s1 := { s with iss := { i with acts := i.acts ++ as.map fun a => (i.slot, a) } }
  if i.rest = [] then s1.finish else s1

/-- A physical fault that strikes the next check of its kind, taken from those about to strike (15 R329). -/
def State.struck (s : State) (u : Upset) : Bool := s.upsets.head? == some u

/-- Whether an act touches nothing pending: every register read or written by a slot (04 R63). -/
def Ctx.anyPending (c : Ctx) (l : List RegId) : Bool := l.any c.pending

/-- How the compare of a duplicate ends: with its original's bundle, or with its original's result (02 R35). -/
inductive Dup where
  /-- At the end of the bundle. -/
  | now
  /-- When the original's result lands: its latency, and whether it is interlocked. -/
  | late (lat : Nat) (ilk : Bool)
  deriving DecidableEq, Repr

/-- Whether a duplicate occupies its own unit's iterative part: one of an interlocked original (05 R83, 08 R152). -/
def Dup.iterative : Dup → Bool
  | .now => false
  | .late _ ilk => ilk

/-- What the compare of a duplicate asks for, with the trap where it differs (02 R35). -/
def Dup.acts (d : Dup) (trap : Option TrapReq) : List Act :=
  match d with
  | .now => (trap.map Act.trap).toList
  | .late lat ilk => [.vec lat ilk ⟨.none, [], none, 0, 0, [], trap⟩]

/-- A slot executed: a pending register stalls the bundle; a false guard makes it ask for `off`; a duplicate only
compares; else it asks for what `k` says (02 R29, R34 to R36; 04 R63). -/
def State.slotOff (s : State) (h : Head) (touch : List RegId) (dup : Dup) (off : List Act) (k : Ctx → List Act) :
    Host.Outcome State Fault Refusal :=
  let c := s.me
  let guard := RegId.p (c.r.physPred h.g.toNat)
  if c.pending guard then .next (s.retire [.stall .busy])
  else if !c.r.readPred h.g.toNat then .next (s.retire (if h.d then [] else off))
  else if c.anyPending touch then .next (s.retire [.stall .busy])
  else if h.d then
    (if dup.iterative && (s.core (coreOf s.cur)).iter.contains s.iss.unit then .next (s.retire [.stall (.iter s.iss.unit)])
    else
      let use := if dup.iterative then [Act.useIter s.iss.unit] else []
      if s.struck .dup then
        let t : TrapReq := { s.trapAt 0x11 0 with how := .replay }
        .next (({ s with upsets := s.upsets.tail }).retire (dup.acts (some t) ++ use))
      else .next (s.retire (dup.acts none ++ use)))
  else if s.struck .reg then
    .next (({ s with upsets := s.upsets.tail }).retire [.trap { s.trapAt 0x10 0 with how := .replay }])
  else .next (s.retire (k c))

/-- A slot that asks for nothing when its guard is false, and whose duplicate compares in its bundle. -/
def State.slotDo (s : State) (h : Head) (touch : List RegId) (k : Ctx → List Act) : Host.Outcome State Fault Refusal :=
  s.slotOff h touch .now [] k

/-- Whether a matrix chain is open (10 R202). -/
def Ctx.inChain (c : Ctx) : Bool := cfgChn c.r.mxcfg.toNat

end Sys2Proof.Machine
end

