-- ==== Sys2Proof/Machine/Fetch.lean ====
section
/-! DEFINITION. Fetching a bundle: translation of the pages it needs, the instruction cache, framing and the fetch
traps (02 R22 to R25; 16 R360). -/

namespace Sys2Proof.Machine

/-- How a fetch ends. -/
inductive Fetch where
  /-- The slot words of the bundle, and the lines read. -/
  | words (ws : List Nat) (lines : List (Nat × List Byte))
  /-- A trap at the bundle. -/
  | trap (t : TrapReq)
  /-- The framing fails at a slot. -/
  | frame (slot : Nat)
  /-- A tile moves; the bundle waits. -/
  | moving
  deriving DecidableEq, Repr

/-- The physical key of a page for fetching (R23). -/
inductive Page where
  /-- Key of its first byte. -/
  | at' (pa : Nat)
  /-- Absent, not executable, malformed or outside the flat space. -/
  | no
  /-- A table word is uncorrectable. -/
  | bad
  /-- Moving. -/
  | moving
  deriving DecidableEq, Repr

/-- The page that holds a flat address, for fetching. -/
def State.fetchPage (s : State) (g va : Nat) : Page :=
  if va < 2 ^ 32 || 2 ^ 57 ≤ va then .no
  else
    match s.checkTile g true (s.ctx g).space 0 (va / 2 ^ 16) 0 .fetch va with
    | .ok pa => .at' pa
    | .bad c _ => if c = 0x10 then .bad else .no
    | .wait _ => .moving

/-- The 128 bytes of an instruction-cache line as the core fetches them: memory's, or freely those of a cached line that
memory no longer equals (16 R360, log 6). -/
def State.fetchLine (s : State) (g va pa : Nat) : List Byte :=
  let mem := s.peek (pa / 128 * 128) 128
  let key := ((s.ctx g).asid.toNat % 2 ^ 16, va / 128)
  match (s.core (coreOf g)).icache.find? fun e => e.1 == key with
  | some e => if e.2 = mem then mem else if Config.freeBool (s.ticks + va / 128) then e.2 else mem
  | none => mem

/-- The word at an address whose page lies at `page`. -/
def State.fetchWord (s : State) (g va page : Nat) : Nat :=
  leNat (((s.fetchLine g va (page + va % 2 ^ 16)).drop (va % 128)).take 4)

/-- Slot words read in ascending order until E, at most `n` more (R22, R23). -/
def State.fetchGo (s : State) (g pc page : Nat) (acc : List Nat) : Nat → Fetch
  | 0 => .frame 8
  | n + 1 =>
    let va := pc + 4 * acc.length
    let next (page : Nat) : Fetch :=
      if s.poisonedRange (page + va % 2 ^ 16) 4 then
        .trap ⟨0x10, 0, BitVec.ofNat 64 pc, 0, BitVec.ofNat 64 va, 0, 0, 0, .poison⟩
      else
        let w := s.fetchWord g va page
        if bits w 31 1 = 1 then (if acc.length < 3 then .frame acc.length else .words (acc ++ [w]) [])
        else s.fetchGo g pc page (acc ++ [w]) n
    if va % 2 ^ 16 = 0 && acc != [] then
      match s.fetchPage g va with
      | .at' p => next p
      | .no => .trap ⟨0x05, 0, BitVec.ofNat 64 pc, 0, BitVec.ofNat 64 va, 0, 0, 0, .handler⟩
      | .bad => .trap ⟨0x10, 0, BitVec.ofNat 64 pc, 0, BitVec.ofNat 64 va, 0, 0, 0, .poison⟩
      | .moving => .moving
    else next page

/-- The lines that a bundle of `n` words at an address touches, with what was read from them. -/
def State.linesRead (s : State) (g pc n : Nat) : List (Nat × List Byte) :=
  let first := pc / 128
  let last := (pc + 4 * n - 1) / 128
  (if first = last then [first] else [first, last]).filterMap fun l =>
    match s.fetchPage g (l * 128) with
    | .at' p => some (l, s.fetchLine g (l * 128) (p + l * 128 % 2 ^ 16))
    | _ => none

/-- The bundle at the PC of a context (R22, R23). -/
def State.fetch (s : State) (g : Nat) : Fetch :=
  let pc := (s.ctx g).r.pc.toNat
  let fault (cause : Nat) (how : How) : Fetch := .trap ⟨cause, 0, BitVec.ofNat 64 pc, 0, BitVec.ofNat 64 pc, 0, 0, 0, how⟩
  match s.fetchPage g pc with
  | .at' p =>
    (match s.fetchGo g pc p [] 8 with
      | .words ws _ => .words ws (s.linesRead g pc ws.length)
      | f => f)
  | .no => fault 0x04 .handler
  | .bad => fault 0x10 .poison
  | .moving => .moving

/-- Lines put into the instruction cache of a core, the oldest dropped beyond 512 (01 R13, log 20). -/
def State.fillLines (s : State) (g : Nat) (lines : List (Nat × List Byte)) : State :=
  let k := s.core (coreOf g)
  let asid := (s.ctx g).asid.toNat % 2 ^ 16
  let cache := lines.foldl (fun c l => (c.filter fun e => e.1 != (asid, l.1)) ++ [((asid, l.1), l.2)]) k.icache
  s.setCore (coreOf g) { k with icache := cache.drop (cache.length - 512) }

/-- The number of an execution unit. -/
def unitNo : Option Unit' → Nat
  | none => 0
  | some .bu => 1
  | some .sa => 2
  | some .sb => 3
  | some .aga => 4
  | some .agb => 5
  | some .va => 6
  | some .vb => 7
  | some .mx => 8
  | some .cs => 9
  | some .sy => 10

/-- A bundle begun: its slots stand in `iss`, none executed. -/
def State.beginBundle (s : State) (g n : Nat) (ps : List Placed) : State :=
  { s with cur := g, iss := ⟨(s.ctx g).r.pc, n, 0, 0, ps.map fun p => (p.idx, unitNo p.unit, p.ins), []⟩ }

/-- The next slot of the bundle in issue becomes the one that executes. -/
def State.nextSlot (s : State) (e : Nat × Nat × Instr) (r : List (Nat × Nat × Instr)) : State :=
  { s with iss := { s.iss with slot := e.1, unit := e.2.1, rest := r } }

end Sys2Proof.Machine
end

