-- ==== Sys2Proof/Machine/Operands.lean ====
section
/-! DEFINITION. The operand forms of slots: immediates with their K payloads, register operands, byte addresses,
vector modifiers, elements and lanes (02 R30 to R33; 06 R110; 08 R151, R156, R157). -/

namespace Sys2Proof.Machine

/-- KImm of a short immediate of a slot with its K payloads (02 R45). -/
def kimm {n : Nat} (i : BitVec n) (ks : List (BitVec 28)) : Word := kImm i.toNat n ks

/-- SignExtend of a field to 64 bits (02 R45). -/
def sext64 {n : Nat} (i : BitVec n) : Word := signExt i.toNat n

/-- s[a] of a field. -/
def Ctx.s (c : Ctx) (a : BitVec 5) : Word := c.r.rs a.toNat

/-- ReadPred of a field. -/
def Ctx.pr (c : Ctx) (a : BitVec 5) : Bool := c.r.readPred a.toNat

/-- The scalar register of a field, as the scoreboard names it. -/
def rS (a : BitVec 5) : RegId := .s a.toNat

/-- The physical predicate of a field. -/
def Ctx.rP (c : Ctx) (a : BitVec 5) : RegId := .p (c.r.physPred a.toNat)

/-- The vector register of a field. -/
def rV (a : BitVec 5) : RegId := .v a.toNat

/-- The address of the fall-through bundle (04 R73). -/
def State.fallThrough (s : State) : Word := s.iss.pc + BitVec.ofNat 64 (4 * s.iss.n)

/-- A target relative to the bundle in issue (04 R73, R77). -/
def State.relTarget (s : State) (off : Word) : Word := s.iss.pc + 4 * off

/-- A vector modifier's fields; no modifier reads as a payload of 0 (02 R33). -/
structure Mod where
  /-- LM. -/
  lm : Nat
  /-- ZI. -/
  zi : Bool
  /-- RM. -/
  rm : Nat
  /-- SAT. -/
  sat : Bool
  /-- FM. -/
  fm : Nat
  deriving DecidableEq, Repr

/-- The fields of a payload (02 R33). -/
def Mod.of (md : Option (BitVec 28)) : Mod :=
  let p := (md.getD 0).toNat
  ⟨bits p 0 3, bits p 3 1 == 1, bits p 4 3, bits p 7 1 == 1, bits p 8 3⟩

/-- The lane mask that selects the active lanes. -/
def Ctx.lanes (c : Ctx) (m : Mod) : BitVec 128 := c.r.rl m.lm

/-- The lane mask as the scoreboard names it. -/
def Mod.reg (m : Mod) : RegId := .l m.lm

/-- The rounding mode: the modifier's, else VRND's (08 R157). -/
def Ctx.rmode (c : Ctx) (m : Mod) : RMode := if m.rm = 0 then RMode.ofCode (c.r.vrnd.toNat % 4) else RMode.ofCode (m.rm - 1)

/-- The format of a type code of the FP set (08 R156). -/
def fpType (m : BitVec 2) : Fmt :=
  match m.toNat with
  | 0 => .f32
  | 1 => .f64
  | 2 => .f16
  | _ => .bf16

/-- Width and signedness of a type code of the integer set (08 R156). -/
def intType (m : BitVec 2) : Nat × Bool :=
  match m.toNat with
  | 0 => (32, true)
  | 1 => (32, false)
  | 2 => (64, true)
  | _ => (64, false)

/-- The width of a type code of the width set (08 R156). -/
def widthType (m : BitVec 2) : Nat := if m.toNat = 0 then 32 else 64

/-- Element `j` of width `w` (08 R151). -/
def elem (v : Vec) (w j : Nat) : Nat := bits v.toNat (w * j) w

/-- The lane that governs element `j` of width `w` (08 R151). -/
def laneOf (w j : Nat) : Nat := j * w / 32

/-- Elements laid side by side, element 0 lowest. -/
def packElems (w : Nat) (xs : List Nat) : Nat := xs.foldr (fun x acc => x % 2 ^ w + 2 ^ w * acc) 0

/-- Which elements of width `w` a lane mask makes active (08 R151). -/
def activeElem (l : BitVec 128) (w j : Nat) : Bool := l.getLsbD (laneOf w j)

end Sys2Proof.Machine
end

