-- ==== Sys2Proof/Machine/Flags.lean ====
section
/-! DEFINITION. What a V instruction reports besides its result: VFLG bits, exception counts, class 1 checks and the
words it folds (08 R158, R159, R174, R175; 09 R194). -/

namespace Sys2Proof.Machine

/-- The exceptions of results as counts charged to a tensor: 4 * TID + kind and a number (08 R159). -/
def excCounts (tid : Nat) (kinds : List Nat) : List (Nat × Nat) :=
  (List.range 4).filterMap fun k =>
    let n := (kinds.filter (· == k)).length
    if n = 0 then none else some (4 * tid + k, n)

/-- VFLG bits gathered from results. -/
def orFlags (l : List Nat) : Word := l.foldl (fun w x => w ||| BitVec.ofNat 64 x) 0

/-- The tensor that exceptions are charged to (08 R159). -/
def Ctx.excTid (c : Ctx) : Nat := c.r.extid.toNat % 2 ^ 20

/-- Whether the next V slot of the bundle duplicates the present one (02 R34). -/
def State.dupFollows (s : State) : Bool :=
  match s.iss.rest.find? fun e => e.2.1 == 6 || e.2.1 == 7 with
  | some e => (headOfInstr e.2.2).d
  | none => false

/-- How class 1 checks a V original (08 R174). -/
inductive CheckKind where
  /-- By the register file alone. -/
  | none
  /-- By a shadow issue, which a D duplicate takes away. -/
  | shadow
  /-- By a residue, whether duplicated or not. -/
  | residue
  deriving DecidableEq, Repr

/-- The check of an opcode whose check does not depend on its fields (08 R174). -/
def vCheck (op : Nat) : CheckKind := if op = 18 || (3 ≤ op && op ≤ 6) || (21 ≤ op && op ≤ 24) then .residue else .shadow

/-- Whether a slot has no active lane and writes zeros: no check of it can fail (08 R176). -/
def Ctx.idle (c : Ctx) (m : Mod) : Bool := m.zi && c.lanes m == 0

/-- A failed class 1 check of the slot in issue, unless it is idle: CHECKSUM in place of its result (08 R174, R176; 09
R194). -/
def State.checkTrap (s : State) (k : CheckKind) (idle : Bool) : Option TrapReq :=
  if (k == .residue || (k == .shadow && !s.dupFollows)) && !idle && s.me.pcls == 1 && s.upsets.contains .residue then
    some { s.trapAt 0x13 0 with how := .check }
  else none

/-- The iterative unit of the other pipe, which a class 1 shadow issue needs too (08 R174). -/
def otherPipe (u : Nat) : Nat := if u = 6 then 7 else 6

/-- A V result with elements: the active ones as computed, the others zero under ZI, else kept (08 R151). `els` names
every element in order. -/
def elemRes (w : Nat) (l : BitVec 128) (zi : Bool) (els : List El) : Vec × Vec :=
  let act (j : Nat) : Bool := activeElem l w j
  let mask := packElems w (els.zipIdx.map fun e => if zi || act e.2 then 2 ^ w - 1 else 0)
  let x := packElems w (els.zipIdx.map fun e => if act e.2 then e.1.x else 0)
  (BitVec.ofNat 4096 mask, BitVec.ofNat 4096 x)

/-- The active elements of a list of results (08 R151). -/
def activeEls (w : Nat) (l : BitVec 128) (els : List El) : List El :=
  (els.zipIdx.filter fun e => activeElem l w e.2).map (·.1)

/-- What a V slot asks for: its result with its flags, counts and folds, and its check (08 R152, R158, R159, R174). -/
def State.vecAct (s : State) (lat : Nat) (k : CheckKind) (idle : Bool) (op : Nat) (res : Res) (els : List El) : Act :=
  .vec lat false ⟨res, [], some op, s.iss.unit, orFlags (els.map (·.flags)), excCounts s.me.excTid (els.flatMap (·.exc)),
    s.checkTrap k idle⟩

/-- What an interlocked V slot asks for: the iterative unit of its pipe, of both under a shadow issue, and its result after so many
cycles; a stall while a unit is busy (08 R152, R174). -/
def State.vecIlk (s : State) (lat op : Nat) (idle : Bool) (res : Res) (els : List El) : List Act :=
  let u := s.iss.unit
  let units := if s.me.pcls = 1 && !s.dupFollows then [u, otherPipe u] else [u]
  let busy := (s.core (coreOf s.cur)).iter
  match units.find? fun x => busy.contains x with
  | some x => [.stall (.iter x)]
  | none =>
    .vec lat true ⟨res, [], some op, u, orFlags (els.map (·.flags)), excCounts s.me.excTid (els.flatMap (·.exc)),
        s.checkTrap .shadow idle⟩ ::
      units.map Act.useIter

/-- A slot that issues with a failed check uses up the upset of the residue kind that strikes it. -/
def State.checkUsed (s : State) (h : Head) (touch : List RegId) (k : Ctx → List Act) : State :=
  let c := s.me
  let runs := !h.d && c.r.readPred h.g.toNat && !c.anyPending (.p (c.r.physPred h.g.toNat) :: touch)
  let hit := (k c).any fun a => match a with | .vec _ _ o => o.trap.isSome | _ => false
  if runs && hit then { s with upsets := s.upsets.erase .residue } else s

/-- A V slot. -/
def State.vslot (s : State) (h : Head) (touch : List RegId) (dup : Dup) (k : Ctx → List Act) :
    Host.Outcome State Fault Refusal :=
  (s.checkUsed h touch k).slotOff h touch dup [] k

end Sys2Proof.Machine
end

