-- ==== Sys2Proof/Machine/Sequencing.lean ====
section
/-! DEFINITION. The sequencing instructions (02 R28; 04 R72 to R82; 16 R356). -/

namespace Sys2Proof.Machine

/-- NOP_C (02 R28). -/
def execNopC (s : State) : Host.Outcome State Fault Refusal := .next (s.retire [])

/-- NOP_S (02 R28). -/
def execNopS (s : State) : Host.Outcome State Fault Refusal := .next (s.retire [])

/-- NOP_M (02 R28). -/
def execNopM (s : State) : Host.Outcome State Fault Refusal := .next (s.retire [])

/-- NOP_V (02 R28). -/
def execNopV (s : State) : Host.Outcome State Fault Refusal := .next (s.retire [])

/-- NOP_X (02 R28). -/
def execNopX (s : State) : Host.Outcome State Fault Refusal := .next (s.retire [])

/-- NOP_Q (02 R28). -/
def execNopQ (s : State) : Host.Outcome State Fault Refusal := .next (s.retire [])

/-- NOP_G (02 R28). -/
def execNopG (s : State) : Host.Outcome State Fault Refusal := .next (s.retire [])

/-- A transfer to a target, with the fold of R75; MISALIGN where the target is not a multiple of 4 (R73). -/
def State.transfer (s : State) (target : Word) : List Act :=
  if target.toNat % 4 = 0 then [.jump (some target) target] else [.trap (s.trapAt 0x08 target)]

/-- What a transfer slot folds when it does not transfer: the fall-through address (R75). -/
def State.noTransfer (s : State) : List Act := [.jump none s.fallThrough]

/-- The link of CALL and CALLI (R73). -/
def State.link31 (s : State) : Act := .fly 1 (.s 31 s.fallThrough)

/-- BR (R73). -/
def execBr (h : Head) (i : BitVec 17) (ks : List (BitVec 28)) (s : State) : Host.Outcome State Fault Refusal :=
  s.slotOff h [] .now s.noTransfer fun _ => s.transfer (s.relTarget (kimm i ks))

/-- BRI (R73). -/
def execBri (h : Head) (a : BitVec 5) (i : BitVec 7) (s : State) : Host.Outcome State Fault Refusal :=
  s.slotOff h [rS a] .now s.noTransfer fun c => s.transfer (c.s a + 4 * sext64 i)

/-- CALL (R73). -/
def execCall (h : Head) (i : BitVec 17) (ks : List (BitVec 28)) (s : State) : Host.Outcome State Fault Refusal :=
  s.slotOff h [.s 31] .now s.noTransfer fun _ => s.link31 :: s.transfer (s.relTarget (kimm i ks))

/-- CALLI (R73). -/
def execCalli (h : Head) (a : BitVec 5) (i : BitVec 7) (s : State) : Host.Outcome State Fault Refusal :=
  s.slotOff h [rS a, .s 31] .now s.noTransfer fun c => s.link31 :: s.transfer (c.s a + 4 * sext64 i)

/-- RET (R73). -/
def execRet (h : Head) (s : State) : Host.Outcome State Fault Refusal :=
  s.slotOff h [.s 31] .now s.noTransfer fun c => s.transfer (c.r.rs 31)

/-- The rotating predicates as LOOPI leaves them (R76). -/
def loopPreds (more : Bool) : List Act :=
  .fly 1 (.p 8 more) :: (List.range 7).map fun i => Act.fly 1 (.p (9 + i) false)

/-- The counter word of LOOPI: `t` clamped to 0 … 2^48 − 1, and the drain passes (R76). -/
def loopCount (t : Word) (e : Nat) : Nat × Nat :=
  let c := if t.msb then 0 else if 2 ^ 48 - 1 < t.toNat then 2 ^ 48 - 1 else t.toNat
  (c, e * 2 ^ 48 + c)

/-- LOOPI (R76). -/
def execLoopi (h : Head) (d a : BitVec 5) (i : BitVec 7) (s : State) : Host.Outcome State Fault Refusal :=
  s.slotDo h [rS d, rS a] fun c =>
    let t := loopCount (c.s a) i.toNat
    [.fly 1 (.s d.toNat (BitVec.ofNat 64 t.2)), .fly 1 (.stgb 0)] ++ loopPreds (decide (0 < t.1))

/-- The next counter of LOOPB: iterations left, drain passes left, stage 0, taken (R77). -/
def loopNext (x : Word) : Nat × Nat × Bool × Bool :=
  let c := bits x.toNat 0 48
  let e := bits x.toNat 48 3
  if 1 < c then (c - 1, e, true, true) else if 0 < e then (0, e - 1, false, true) else (0, 0, false, false)

/-- LOOPB (R77, R78). -/
def execLoopb (h : Head) (d : BitVec 5) (i : BitVec 7) (ks : List (BitVec 28)) (s : State) :
    Host.Outcome State Fault Refusal :=
  s.slotOff h [rS d] .now s.noTransfer fun c =>
    let (n, e, stage0, taken) := loopNext (c.s d)
    let base : BitVec 3 := c.r.stgb - 1
    [.fly 1 (.s d.toNat (BitVec.ofNat 64 (e * 2 ^ 48 + n))), .fly 1 (.stgb base), .fly 1 (.p (8 + base.toNat) stage0)] ++
      (if taken then s.transfer (s.relTarget (kimm i ks)) else s.noTransfer)

/-- YIELD (R79). -/
def execYield (h : Head) (s : State) : Host.Outcome State Fault Refusal := s.slotDo h [] fun _ => [.tail .yield]

/-- WAITF (R80). -/
def execWaitf (h : Head) (l : BitVec 1) (k : BitVec 16) (s : State) : Host.Outcome State Fault Refusal :=
  s.slotDo h [.f] fun _ => [.tail (.wait (.flag (l == 1) k) s.iss.pc s.iss.slot false)]

/-- CHAININVALID where a chain is open, else what an instruction asks for (10 R207). -/
def Ctx.unlessChain (c : Ctx) (s : State) (as : List Act) : List Act :=
  if c.inChain then [.trap (s.trapAt 0x03 0)] else as

/-- TEND (R81). -/
def execTend (h : Head) (s : State) : Host.Outcome State Fault Refusal :=
  s.slotDo h [] fun c => c.unlessChain s [.ckpt false, .tail .ending, .tail .tend]

/-- A trap that a program asks for, taken at the end of its checkpoint bundle (16 R356). -/
def State.softTrap (s : State) (cause code : Nat) : List Act :=
  [.ckpt true, .tail (.trap { s.trapAt cause 0 with code := code })]

/-- TRAP (16 R356). -/
def execTrap (h : Head) (i : BitVec 12) (s : State) : Host.Outcome State Fault Refusal :=
  s.slotDo h [] fun c => c.unlessChain s (s.softTrap 0x16 i.toNat)

end Sys2Proof.Machine
end

