-- ==== Sys2Proof/Machine/Scalar.lean ====
section
/-! DEFINITION. The scalar instructions (05). -/

namespace Sys2Proof.Machine

/-- A three-register operation on scalars with its latency (R83, R87). -/
def State.sRRR (s : State) (h : Head) (d a b : BitVec 5) (lat : Nat) (f : Word → Word → Word) :
    Host.Outcome State Fault Refusal :=
  s.slotDo h [rS d, rS a, rS b] fun c => [.fly lat (.s d.toNat (f (c.s a) (c.s b)))]

/-- A one-operand scalar operation (R87). -/
def State.sRR (s : State) (h : Head) (d a : BitVec 5) (f : Word → Word) : Host.Outcome State Fault Refusal :=
  s.slotDo h [rS d, rS a] fun c => [.fly 1 (.s d.toNat (f (c.s a)))]

/-- A predicate written through the rotation (R84). -/
def Ctx.flyP (c : Ctx) (d : BitVec 5) (x : Bool) : Act := .fly 1 (.p (c.r.physPred d.toNat) x)

/-- A compare: its test against the old predicate (R91). -/
def State.sCmp (s : State) (h : Head) (d : BitVec 5) (touch : List RegId) (m : Nat) (t : Ctx → Bool) :
    Host.Outcome State Fault Refusal :=
  s.slotDo h (s.me.rP d :: touch) fun c =>
    let old := c.pr d
    [c.flyP d (match m with
      | 0 => t c
      | 1 => t c && old
      | _ => t c || old)]

/-- A compare of two registers (R91). -/
def State.sCmpRR (s : State) (h : Head) (d a b : BitVec 5) (m : BitVec 2) (f : Word → Word → Bool) :
    Host.Outcome State Fault Refusal :=
  s.sCmp h d [rS a, rS b] m.toNat fun c => f (c.s a) (c.s b)

/-- A predicate operation (R92). -/
def State.sPred (s : State) (h : Head) (d a b : BitVec 5) (f : Bool → Bool → Bool) : Host.Outcome State Fault Refusal :=
  s.slotDo h [s.me.rP d, s.me.rP a, s.me.rP b] fun c => [c.flyP d (f (c.pr a) (c.pr b))]

/-- Shift by a count below 64 (R87). -/
def sraW (x : Word) (n : Nat) : Word := x.sshiftRight n

/-- Leading zeros of an `n`-bit number (R87; 08 R165). -/
def clzNat (x n : Nat) : Nat := if x = 0 then n else n - 1 - Nat.log2 x

/-- Trailing zeros of a number below 2^n: the first bit set from `i` on (R87). -/
def ctzFrom (x i : Nat) : Nat → Nat
  | 0 => i
  | n + 1 => if bits x i 1 = 1 then i else ctzFrom x (i + 1) n

/-- Set bits of the low `n` bits (R87). -/
def popNat (x : Nat) : Nat → Nat
  | 0 => 0
  | n + 1 => bits x n 1 + popNat x n

/-- Quotient and remainder (R89). -/
def divRem (signed : Bool) (x y : Word) : Word × Word :=
  if y = 0 then (BitVec.allOnes 64, x)
  else if signed then (BitVec.ofInt 64 (x.toInt.tdiv y.toInt), BitVec.ofInt 64 (x.toInt.tmod y.toInt))
  else (x / y, x % y)

/-- A division: interlocked on the divider of its unit (R83, R89). A duplicate of one compares when the interlocked result lands: 02 R35
says both when both results are complete and at the end of the bundle (DESIGN CHOICE, log 69). -/
def State.sDiv (s : State) (h : Head) (d a b : BitVec 5) (f : Word → Word → Word) : Host.Outcome State Fault Refusal :=
  s.slotOff h [rS d, rS a, rS b] (.late 0 true) [] fun c =>
    if (s.core (coreOf s.cur)).iter.contains s.iss.unit then [.stall (.iter s.iss.unit)]
    else [.ilk (.s d.toNat (f (c.s a) (c.s b))) none, .useIter s.iss.unit]

/-- The bit field that a control word names: position and length (R90). -/
def bitField (c : Word) : Nat × Nat :=
  let pos := bits c.toNat 0 6
  (pos, min (bits c.toNat 8 7) (64 - pos))

/-- BFX's result (R90). -/
def bfxVal (sx : Bool) (x c : Word) : Word :=
  let (pos, len) := bitField c
  let v := bits x.toNat pos len
  if sx && 0 < len then signExt v len else BitVec.ofNat 64 v

/-- BFI's result (R90). -/
def bfiVal (old x c : Word) : Word :=
  let (pos, len) := bitField c
  let mask : Word := BitVec.ofNat 64 ((2 ^ len - 1) * 2 ^ pos)
  (old &&& ~~~mask) ||| ((x <<< pos) &&& mask)

/-- The fields that a selector of NSET names, as bits of a handle and their places (R94). -/
def nsetBits (sel : Nat) (x : Word) : BitVec 256 × BitVec 256 :=
  let v := x.toNat
  match sel with
  | 0 => (BitVec.ofNat 256 (0xFFFFF + 7 * 2 ^ 23), BitVec.ofNat 256 (bits v 0 20 + bits v 20 3 * 2 ^ 23))
  | 1 => (BitVec.ofNat 256 ((2 ^ 64 - 1) * 2 ^ 96), BitVec.ofNat 256 (v * 2 ^ 96))
  | 2 => (BitVec.ofNat 256 ((2 ^ 64 - 1) * 2 ^ 160), BitVec.ofNat 256 (v * 2 ^ 160))
  | _ => (BitVec.ofNat 256 ((2 ^ 32 - 1) * 2 ^ 224), BitVec.ofNat 256 (bits v 0 32 * 2 ^ 224))

/-- The fields that a selector of NGET returns (R94). -/
def ngetVal (sel : Nat) (n : BitVec 256) : Word :=
  let v := n.toNat
  BitVec.ofNat 64 (match sel with
    | 0 => bits v 0 20 + bits v 23 3 * 2 ^ 20
    | 1 => bits v 96 64
    | 2 => bits v 160 64
    | _ => bits v 224 32)

/-- A handle's coordinate advanced, modulo 2^32 (R94). -/
def coordAdd (n : BitVec 256) (j x : Nat) : BitVec 256 :=
  let lo := 96 + 32 * j
  let old := bits n.toNat lo 32
  BitVec.ofNat 256 (n.toNat - old * 2 ^ lo + (old + x) % 2 ^ 32 * 2 ^ lo)

/-- NADV's result (R94). -/
def nadvVal (n : BitVec 256) (j : Nat) (x : Word) : BitVec 256 :=
  coordAdd (coordAdd n 0 (bits n.toNat 224 32)) j (bits x.toNat 0 32)

/-- A counter of CNTRD (R95). That counter 1 leaves out the bundle of the CNTRD itself is the model's choice (DESIGN CHOICE, log
61). -/
def State.counter (s : State) (sel : Nat) : Word :=
  match sel with
  | 0 => BitVec.ofNat 64 s.cycles
  | 1 => s.me.cntB
  | 2 => BitVec.ofNat 64 s.now
  | 3 => BitVec.ofNat 64 s.me.run
  | _ => s.me.cntS

/-- A value that a class 2 primary hands to its secondary: the secondary takes it, or waits (15 R317). `x` is the value
of the primary or of a task of another class. -/
def State.twinValue (s : State) (x : Word) (f : Word → List Act) : List Act :=
  let c := s.me
  if c.pcls != 2 then f x
  else if c.second then
    (match c.delivered (s.iss.acts.filter fun e => match e.2 with | .share _ => true | _ => false).length with
      | none => [.stall .twin]
      | some y => .share y :: f (y.truncate 64))
  else .share (x.zeroExtend 128) :: f x

/-- The bits of a word's half, as a mask of a lane-mask register. -/
def halfMask (hi : Bool) : BitVec 128 := BitVec.ofNat 128 (if hi then (2 ^ 64 - 1) * 2 ^ 64 else 2 ^ 64 - 1)

/-- MOVS of a word into half of a lane mask (R96). -/
def State.movsHalf (s : State) (h : Head) (d a : BitVec 5) (hi : Bool) : Host.Outcome State Fault Refusal :=
  s.slotDo h [.l d.toNat, rS a] fun c =>
    let x := (c.s a).toNat
    [.fly 1 (.l d.toNat (halfMask hi) (BitVec.ofNat 128 (if hi then x * 2 ^ 64 else x)))]

/-- MOVS of half of a lane mask (R96). -/
def State.movsFromHalf (s : State) (h : Head) (d a : BitVec 5) (hi : Bool) : Host.Outcome State Fault Refusal :=
  s.slotDo h [rS d, .l a.toNat] fun c =>
    [.fly 1 (.s d.toNat (BitVec.ofNat 64 (bits (c.r.rl a.toNat).toNat (if hi then 64 else 0) 64)))]

/-- ADD (R87). -/
def execAdd (h : Head) (d a b : BitVec 5) (s : State) : Host.Outcome State Fault Refusal :=
  s.sRRR h d a b 1 fun x y => x + y

/-- SUB (R87). -/
def execSub (h : Head) (d a b : BitVec 5) (s : State) : Host.Outcome State Fault Refusal :=
  s.sRRR h d a b 1 fun x y => x - y

/-- MUL (R88). -/
def execMul (h : Head) (d a b : BitVec 5) (s : State) : Host.Outcome State Fault Refusal :=
  s.sRRR h d a b 3 fun x y => x * y

/-- MULH (R88). -/
def execMulh (h : Head) (d a b : BitVec 5) (s : State) : Host.Outcome State Fault Refusal :=
  s.sRRR h d a b 3 fun x y => BitVec.ofInt 64 (x.toInt * y.toInt / 2 ^ 64)

/-- MULHN (R88). -/
def execMulhn (h : Head) (d a b : BitVec 5) (s : State) : Host.Outcome State Fault Refusal :=
  s.sRRR h d a b 3 fun x y => BitVec.ofNat 64 (x.toNat * y.toNat / 2 ^ 64)

/-- AND (R87). -/
def execAnd (h : Head) (d a b : BitVec 5) (s : State) : Host.Outcome State Fault Refusal :=
  s.sRRR h d a b 1 fun x y => x &&& y

/-- OR (R87). -/
def execOr (h : Head) (d a b : BitVec 5) (s : State) : Host.Outcome State Fault Refusal :=
  s.sRRR h d a b 1 fun x y => x ||| y

/-- XOR (R87). -/
def execXor (h : Head) (d a b : BitVec 5) (s : State) : Host.Outcome State Fault Refusal :=
  s.sRRR h d a b 1 fun x y => x ^^^ y

/-- ANDN (R87). -/
def execAndn (h : Head) (d a b : BitVec 5) (s : State) : Host.Outcome State Fault Refusal :=
  s.sRRR h d a b 1 fun x y => x &&& ~~~y

/-- SHL (R87). -/
def execShl (h : Head) (d a b : BitVec 5) (s : State) : Host.Outcome State Fault Refusal :=
  s.sRRR h d a b 1 fun x y => x <<< (y.toNat % 64)

/-- SHR (R87). -/
def execShr (h : Head) (d a b : BitVec 5) (s : State) : Host.Outcome State Fault Refusal :=
  s.sRRR h d a b 1 fun x y => x >>> (y.toNat % 64)

/-- SRA (R87). -/
def execSra (h : Head) (d a b : BitVec 5) (s : State) : Host.Outcome State Fault Refusal :=
  s.sRRR h d a b 1 fun x y => sraW x (y.toNat % 64)

/-- ROTL (R87). -/
def execRotl (h : Head) (d a b : BitVec 5) (s : State) : Host.Outcome State Fault Refusal :=
  s.sRRR h d a b 1 fun x y => x.rotateLeft (y.toNat % 64)

/-- MIN (R87). -/
def execMin (h : Head) (d a b : BitVec 5) (s : State) : Host.Outcome State Fault Refusal :=
  s.sRRR h d a b 1 fun x y => if x.slt y then x else y

/-- MAX (R87). -/
def execMax (h : Head) (d a b : BitVec 5) (s : State) : Host.Outcome State Fault Refusal :=
  s.sRRR h d a b 1 fun x y => if x.slt y then y else x

/-- MINN (R87). -/
def execMinn (h : Head) (d a b : BitVec 5) (s : State) : Host.Outcome State Fault Refusal :=
  s.sRRR h d a b 1 fun x y => if x.ult y then x else y

/-- MAXN (R87). -/
def execMaxn (h : Head) (d a b : BitVec 5) (s : State) : Host.Outcome State Fault Refusal :=
  s.sRRR h d a b 1 fun x y => if x.ult y then y else x

/-- DIV (R89). -/
def execDiv (h : Head) (d a b : BitVec 5) (s : State) : Host.Outcome State Fault Refusal :=
  s.sDiv h d a b fun x y => (divRem true x y).1

/-- DIVN (R89). -/
def execDivn (h : Head) (d a b : BitVec 5) (s : State) : Host.Outcome State Fault Refusal :=
  s.sDiv h d a b fun x y => (divRem false x y).1

/-- REM (R89). -/
def execRem (h : Head) (d a b : BitVec 5) (s : State) : Host.Outcome State Fault Refusal :=
  s.sDiv h d a b fun x y => (divRem true x y).2

/-- REMN (R89). -/
def execRemn (h : Head) (d a b : BitVec 5) (s : State) : Host.Outcome State Fault Refusal :=
  s.sDiv h d a b fun x y => (divRem false x y).2

/-- ADDI (R87). -/
def execAddi (h : Head) (d a : BitVec 5) (i : BitVec 7) (ks : List (BitVec 28)) (s : State) : Host.Outcome State Fault Refusal :=
  s.sRR h d a fun x => x + kimm i ks

/-- ANDI (R87). -/
def execAndi (h : Head) (d a : BitVec 5) (i : BitVec 7) (ks : List (BitVec 28)) (s : State) : Host.Outcome State Fault Refusal :=
  s.sRR h d a fun x => x &&& kimm i ks

/-- ORI (R87). -/
def execOri (h : Head) (d a : BitVec 5) (i : BitVec 7) (ks : List (BitVec 28)) (s : State) : Host.Outcome State Fault Refusal :=
  s.sRR h d a fun x => x ||| kimm i ks

/-- XORI (R87). -/
def execXori (h : Head) (d a : BitVec 5) (i : BitVec 7) (ks : List (BitVec 28)) (s : State) : Host.Outcome State Fault Refusal :=
  s.sRR h d a fun x => x ^^^ kimm i ks

/-- SHLI (R87). -/
def execShli (h : Head) (d a : BitVec 5) (i : BitVec 7) (s : State) : Host.Outcome State Fault Refusal :=
  s.sRR h d a fun x => x <<< i.toNat

/-- SHRI (R87). -/
def execShri (h : Head) (d a : BitVec 5) (i : BitVec 7) (s : State) : Host.Outcome State Fault Refusal :=
  s.sRR h d a fun x => x >>> i.toNat

/-- SRAI (R87). -/
def execSrai (h : Head) (d a : BitVec 5) (i : BitVec 7) (s : State) : Host.Outcome State Fault Refusal :=
  s.sRR h d a fun x => sraW x i.toNat

/-- SEXT (R87). -/
def execSext (h : Head) (d a : BitVec 5) (i : BitVec 7) (s : State) : Host.Outcome State Fault Refusal :=
  s.sRR h d a fun x => signExt x.toNat i.toNat

/-- ZEXT (R87). -/
def execZext (h : Head) (d a : BitVec 5) (i : BitVec 7) (s : State) : Host.Outcome State Fault Refusal :=
  s.sRR h d a fun x => BitVec.ofNat 64 (x.toNat % 2 ^ i.toNat)

/-- CLZ (R87). -/
def execClz (h : Head) (d a : BitVec 5) (s : State) : Host.Outcome State Fault Refusal :=
  s.sRR h d a fun x => BitVec.ofNat 64 (clzNat x.toNat 64)

/-- CTZ (R87). -/
def execCtz (h : Head) (d a : BitVec 5) (s : State) : Host.Outcome State Fault Refusal :=
  s.sRR h d a fun x => BitVec.ofNat 64 (ctzFrom x.toNat 0 64)

/-- POPC (R87). -/
def execPopc (h : Head) (d a : BitVec 5) (s : State) : Host.Outcome State Fault Refusal :=
  s.sRR h d a fun x => BitVec.ofNat 64 (popNat x.toNat 64)

/-- SEL (R87). -/
def execSel (h : Head) (d a b : BitVec 5) (m : BitVec 2) (s : State) : Host.Outcome State Fault Refusal :=
  s.slotDo h [rS d, rS a, rS b, .p (4 + m.toNat)] fun c =>
    [.fly 1 (.s d.toNat (if c.r.readPred (4 + m.toNat) then c.s a else c.s b))]

/-- CMPEQ (R91). -/
def execCmpeq (h : Head) (d a b : BitVec 5) (m : BitVec 2) (s : State) : Host.Outcome State Fault Refusal :=
  s.sCmpRR h d a b m fun x y => x == y

/-- CMPNE (R91). -/
def execCmpne (h : Head) (d a b : BitVec 5) (m : BitVec 2) (s : State) : Host.Outcome State Fault Refusal :=
  s.sCmpRR h d a b m fun x y => x != y

/-- CMPLT (R91). -/
def execCmplt (h : Head) (d a b : BitVec 5) (m : BitVec 2) (s : State) : Host.Outcome State Fault Refusal :=
  s.sCmpRR h d a b m fun x y => x.slt y

/-- CMPLTN (R91). -/
def execCmpltn (h : Head) (d a b : BitVec 5) (m : BitVec 2) (s : State) : Host.Outcome State Fault Refusal :=
  s.sCmpRR h d a b m fun x y => x.ult y

/-- CMPGE (R91). -/
def execCmpge (h : Head) (d a b : BitVec 5) (m : BitVec 2) (s : State) : Host.Outcome State Fault Refusal :=
  s.sCmpRR h d a b m fun x y => !x.slt y

/-- CMPGEN (R91). -/
def execCmpgen (h : Head) (d a b : BitVec 5) (m : BitVec 2) (s : State) : Host.Outcome State Fault Refusal :=
  s.sCmpRR h d a b m fun x y => !x.ult y

/-- CMPEQI (R91). -/
def execCmpeqi (h : Head) (d a : BitVec 5) (i : BitVec 7) (ks : List (BitVec 28)) (s : State) : Host.Outcome State Fault Refusal :=
  s.sCmp h d [rS a] 0 fun c => c.s a == kimm i ks

/-- CMPLTI (R91). -/
def execCmplti (h : Head) (d a : BitVec 5) (i : BitVec 7) (ks : List (BitVec 28)) (s : State) : Host.Outcome State Fault Refusal :=
  s.sCmp h d [rS a] 0 fun c => (c.s a).slt (kimm i ks)

/-- MOVI (R93). -/
def execMovi (h : Head) (d : BitVec 5) (i : BitVec 12) (ks : List (BitVec 28)) (s : State) : Host.Outcome State Fault Refusal :=
  s.slotDo h [rS d] fun _ => [.fly 1 (.s d.toNat (kimm i ks))]

/-- MOVHI (R93). -/
def execMovhi (h : Head) (d : BitVec 5) (i : BitVec 12) (ks : List (BitVec 28)) (s : State) : Host.Outcome State Fault Refusal :=
  s.slotDo h [rS d] fun c =>
    [.fly 1 (.s d.toNat (BitVec.ofNat 64 ((c.s d).toNat % 2 ^ 32 + (kimm i ks).toNat % 2 ^ 32 * 2 ^ 32)))]

/-- MADD (R88). -/
def execMadd (h : Head) (d a b : BitVec 5) (s : State) : Host.Outcome State Fault Refusal :=
  s.slotDo h [rS d, rS a, rS b] fun c => [.fly 3 (.s d.toNat (c.s d + c.s a * c.s b))]

/-- BFX (R90). -/
def execBfx (h : Head) (d a b : BitVec 5) (m : BitVec 2) (s : State) : Host.Outcome State Fault Refusal :=
  s.sRRR h d a b 1 (bfxVal (m == 1))

/-- BFI (R90). -/
def execBfi (h : Head) (d a b : BitVec 5) (s : State) : Host.Outcome State Fault Refusal :=
  s.slotDo h [rS d, rS a, rS b] fun c => [.fly 1 (.s d.toNat (bfiVal (c.s d) (c.s a) (c.s b)))]

/-- PAND (R92). -/
def execPand (h : Head) (d a b : BitVec 5) (s : State) : Host.Outcome State Fault Refusal :=
  s.sPred h d a b fun x y => x && y

/-- POR (R92). -/
def execPor (h : Head) (d a b : BitVec 5) (s : State) : Host.Outcome State Fault Refusal :=
  s.sPred h d a b fun x y => x || y

/-- PXOR (R92). -/
def execPxor (h : Head) (d a b : BitVec 5) (s : State) : Host.Outcome State Fault Refusal :=
  s.sPred h d a b fun x y => x != y

/-- PANDN (R92). -/
def execPandn (h : Head) (d a b : BitVec 5) (s : State) : Host.Outcome State Fault Refusal :=
  s.sPred h d a b fun x y => x && !y

/-- PMOV (R92). -/
def execPmov (h : Head) (d a : BitVec 5) (m : BitVec 2) (s : State) : Host.Outcome State Fault Refusal :=
  s.slotDo h [s.me.rP d, s.me.rP a] fun c => [c.flyP d (c.pr a != (m == 1))]

/-- NSET (R94). -/
def execNset (h : Head) (d a : BitVec 5) (i : BitVec 7) (s : State) : Host.Outcome State Fault Refusal :=
  s.slotDo h [.n d.toNat, rS a] fun c =>
    let (mask, x) := nsetBits i.toNat (c.s a)
    [.fly 1 (.n d.toNat mask x)]

/-- NADV (R94). -/
def execNadv (h : Head) (d a : BitVec 5) (i : BitVec 7) (s : State) : Host.Outcome State Fault Refusal :=
  s.slotDo h [.n d.toNat, rS a] fun c =>
    [.fly 1 (.n d.toNat (BitVec.allOnes 256) (nadvVal (c.r.rn d.toNat) i.toNat (c.s a)))]

/-- NGET (R94). -/
def execNget (h : Head) (d a : BitVec 5) (i : BitVec 7) (s : State) : Host.Outcome State Fault Refusal :=
  s.slotDo h [rS d, .n a.toNat] fun c => [.fly 1 (.s d.toNat (ngetVal i.toNat (c.r.rn a.toNat)))]

/-- CNTRD (R95). -/
def execCntrd (h : Head) (d : BitVec 5) (i : BitVec 7) (s : State) : Host.Outcome State Fault Refusal :=
  s.slotDo h [rS d] fun c =>
    s.twinValue (s.counter i.toNat) fun x => [if c.pcls = 2 then .ilk (.s d.toNat x) none else .fly 1 (.s d.toNat x)]

/-- MOVS s from f (R96). -/
def execMovsSFromF (h : Head) (d : BitVec 5) (s : State) : Host.Outcome State Fault Refusal :=
  s.slotDo h [rS d, .f] fun c => [.fly 1 (.s d.toNat (c.r.f.zeroExtend 64))]

/-- MOVS f from s (R96, R97). -/
def execMovsFFromS (h : Head) (a : BitVec 5) (s : State) : Host.Outcome State Fault Refusal :=
  s.slotDo h [.f, rS a] fun c => [.fly 1 (.f (BitVec.allOnes 17) ((c.s a).truncate 17))]

/-- MOVS s from p (R96). -/
def execMovsSFromP (h : Head) (d : BitVec 5) (s : State) : Host.Outcome State Fault Refusal :=
  s.slotDo h (rS d :: (List.range 16).map .p) fun c =>
    [.fly 1 (.s d.toNat (BitVec.ofNat 64 (((List.range 16).map fun i => (c.r.readPred i).toNat * 2 ^ i).sum)))]

/-- MOVS p from s (R96). -/
def execMovsPFromS (h : Head) (a : BitVec 5) (s : State) : Host.Outcome State Fault Refusal :=
  s.slotDo h (rS a :: (List.range 16).map .p) fun c =>
    (List.range 15).map fun i => .fly 1 (.p (c.r.physPred (i + 1)) ((c.s a).getLsbD (i + 1)))

/-- MOVS s from the low half of l (R96). -/
def execMovsSFromLLo (h : Head) (d a : BitVec 5) (s : State) : Host.Outcome State Fault Refusal :=
  s.movsFromHalf h d a false

/-- MOVS s from the high half of l (R96). -/
def execMovsSFromLHi (h : Head) (d a : BitVec 5) (s : State) : Host.Outcome State Fault Refusal :=
  s.movsFromHalf h d a true

/-- MOVS the low half of l from s (R96). -/
def execMovsLLoFromS (h : Head) (d a : BitVec 5) (s : State) : Host.Outcome State Fault Refusal :=
  s.movsHalf h d a false

/-- MOVS the high half of l from s (R96). -/
def execMovsLHiFromS (h : Head) (d a : BitVec 5) (s : State) : Host.Outcome State Fault Refusal :=
  s.movsHalf h d a true

end Sys2Proof.Machine
end

