-- ==== Sys2Proof/Machine/MemAccess.lean ====
section
/-! DEFINITION. The memory access instructions (06 R110 to R121) and what a context sees of its own held stores (02
R47; 07 R135; 12 R251). -/

namespace Sys2Proof.Machine

/-- A load's bits as the context sees them now. -/
def State.gatherOwn (s : State) (g : Nat) (parts : List (Nat × Nat × Nat)) : Nat :=
  (parts.map fun p => bits (leNat (s.view g (p.2.1 / 8) ((p.2.1 % 8 + p.2.2 + 7) / 8))) (p.2.1 % 8) p.2.2 * 2 ^ p.1).sum

/-- The result of a load whose bits are known. -/
def Load.res (ld : Load) (x : Nat) : Res :=
  match ld.dst with
  | .s i => .s i (BitVec.ofNat 64 x)
  | .q i => .q i (BitVec.allOnes 4096) (BitVec.ofNat 4096 x)
  | .v i => .v i (BitVec.ofNat 4096 (partsMask ld.parts) ||| ld.zero) (BitVec.ofNat 4096 x)
  | _ => .none

/-- A trap of an access at the slot in issue (06 R101). -/
def State.accTrap (s : State) (cause va : Nat) : TrapReq :=
  { s.trapAt cause (BitVec.ofNat 64 va) with how := if cause = 0x10 then .poison else .handler }

/-- What a load asks for once its bytes are named: exposed with its latency, or interlocked (R112, R114; 12 R251). The
memory is read at issue (log 15); an access that its memory unit holds back stalls the bundle (17 R368). -/
def State.loadActs (s : State) (ld : Load) (lat : Option Nat) : List Act :=
  let c := s.me
  if c.overlapsSync ld then c.unlessChain s [.ckpt true, .tail (.load s.iss.pc s.iss.slot ld)]
  else
    let bad := ld.marks.findSome? fun m => (s.meetsPoison s.cur m.1 m.2.1).map fun k => (k, m.2.2)
    let res := ld.res (s.gatherOwn s.cur ld.parts)
    let trap := bad.map fun b =>
      { s.accTrap 0x10 0 with va := b.2.1, n := b.2.2.1, n1 := b.2.2.2.1, n2 := b.2.2.2.2 }
    match (if lat.isNone then ld.marks.find? fun m => s.holdsBack (.read s.cur c.bseq) m.1 else none) with
    | some m => [.stall (.mem m.1)]
    | none =>
    (bad.map fun b => Act.log b.1).toList ++
      (if lat.isNone then [.touch (ld.marks.map (·.1))] else []) ++
      [match lat with
        | some n => .vec n false ⟨res, [], none, 0, 0, [], trap⟩
        | none => .ilk res trap]

/-- Pieces of memory as parts of a load, from destination bit `lo` on. -/
def pieceParts (lo : Nat) : List (Nat × Nat) → List (Nat × Nat × Nat)
  | [] => []
  | (pa, n) :: r => (lo, 8 * pa, 8 * n) :: pieceParts (lo + 8 * n) r

/-- Pieces of memory as the marks of one access at an address (R101). -/
def pieceMarks (va : Word) (l : List (Nat × Nat)) : List (Nat × Nat × Word × Word × Word × Word) :=
  l.map fun p => (p.1, p.2, va, 0, 0, 0)

/-- The address of an access after redirection: the one that R101 reports and R325 folds. -/
def Ctx.foldEa (c : Ctx) (base30 : Bool) (ea : Nat) : Word :=
  BitVec.ofNat 64 (if c.redirected base30 ea then c.redirect ea else ea)

/-- Whether an access lies in the own LSP by its direct range, with no redirection (06 R100, R104). -/
def Ctx.ownDirect (c : Ctx) (base30 : Bool) (ea : Nat) : Bool := isOwnDirect ea && !c.redirected base30 ea

/-- A scalar load of `n` bytes (R112). -/
def State.loadScalar (s : State) (h : Head) (d a : BitVec 5) (i : BitVec 7) (ks : List (BitVec 28)) (n : Nat) :
    Host.Outcome State Fault Refusal :=
  s.slotDo h [rS d, rS a] fun c =>
    let ea := (c.s a + kimm i ks).toNat
    match s.checkAddr s.cur true .read (a == 30) ea n n with
    | .bad cause va => [.trap (s.accTrap cause va)]
    | .wait w => [.stall w]
    | .ok ps =>
      s.loadActs ⟨rS d, pieceParts 0 ps, 0, pieceMarks (c.foldEa (a == 30) ea) ps⟩ (if c.ownDirect (a == 30) ea then some 6 else none)

/-- Addressed bytes of a value laid over pieces. -/
def pieceBytes : List (Nat × Nat) → List Byte → List (Nat × Byte)
  | [], _ => []
  | (pa, n) :: r, bs => ((List.range n).map (pa + ·)).zip (bs.take n) ++ pieceBytes r (bs.drop n)

/-- A scalar store of `n` bytes (R112; 15 R321, R325). -/
def State.storeScalar (s : State) (h : Head) (d a : BitVec 5) (i : BitVec 7) (ks : List (BitVec 28)) (n : Nat) :
    Host.Outcome State Fault Refusal :=
  s.slotDo h [rS d, rS a] fun c =>
    let ea := (c.s a + kimm i ks).toNat
    let x := (c.s d).toNat % 2 ^ (8 * n)
    match s.checkAddr s.cur true .write (a == 30) ea n n with
    | .bad cause va => [.trap (s.accTrap cause va)]
    | .wait w => [.stall w]
    | .ok ps =>
      [.enter (.store (pieceBytes ps (leBytes x n))) 1 ((ps.head?).map fun p => p.1 / 32) 0
        [c.foldEa (a == 30) ea, BitVec.ofNat 64 x]]

/-- LDB (R112). -/
def execLdb (h : Head) (d a : BitVec 5) (i : BitVec 7) (ks : List (BitVec 28)) (s : State) :
    Host.Outcome State Fault Refusal := s.loadScalar h d a i ks 1

/-- LDH (R112). -/
def execLdh (h : Head) (d a : BitVec 5) (i : BitVec 7) (ks : List (BitVec 28)) (s : State) :
    Host.Outcome State Fault Refusal := s.loadScalar h d a i ks 2

/-- LDW (R112). -/
def execLdw (h : Head) (d a : BitVec 5) (i : BitVec 7) (ks : List (BitVec 28)) (s : State) :
    Host.Outcome State Fault Refusal := s.loadScalar h d a i ks 4

/-- LDD (R112). -/
def execLdd (h : Head) (d a : BitVec 5) (i : BitVec 7) (ks : List (BitVec 28)) (s : State) :
    Host.Outcome State Fault Refusal := s.loadScalar h d a i ks 8

/-- STB (R112). -/
def execStb (h : Head) (d a : BitVec 5) (i : BitVec 7) (ks : List (BitVec 28)) (s : State) :
    Host.Outcome State Fault Refusal := s.storeScalar h d a i ks 1

/-- STH (R112). -/
def execSth (h : Head) (d a : BitVec 5) (i : BitVec 7) (ks : List (BitVec 28)) (s : State) :
    Host.Outcome State Fault Refusal := s.storeScalar h d a i ks 2

/-- STW (R112). -/
def execStw (h : Head) (d a : BitVec 5) (i : BitVec 7) (ks : List (BitVec 28)) (s : State) :
    Host.Outcome State Fault Refusal := s.storeScalar h d a i ks 4

/-- STD (R112). -/
def execStd (h : Head) (d a : BitVec 5) (i : BitVec 7) (ks : List (BitVec 28)) (s : State) :
    Host.Outcome State Fault Refusal := s.storeScalar h d a i ks 8

/-! ### Vector accesses -/

/-- Several checks in lane order: the first that fails or waits decides (06 R101). -/
def chkList {α β : Type} (f : α → Chk β) : List α → Chk (List β)
  | [] => .ok []
  | x :: r =>
    match f x with
    | .bad c a => .bad c a
    | .wait w => .wait w
    | .ok y =>
      match chkList f r with
      | .ok l => .ok (y :: l)
      | .bad c a => .bad c a
      | .wait w => .wait w

/-- The checks of the elements of a vector access in lane order; where one fails, an earlier element of a read that
meets poison fails before it (06 R101). -/
def chkLanes {α β : Type} (read : Bool) (hit : β → Option Nat) (f : α → Chk β) (l : List α) : Chk (List β) :=
  match chkList f l with
  | .bad c a =>
    if read then
      chkList (fun x =>
        match f x with
        | .ok y => match hit y with
          | some va => .bad 0x10 va
          | none => .ok y
        | r => r) l
    else .bad c a
  | r => r

/-- The first address of the poison that pieces of memory meet, as the address of their access. -/
def State.piecesHit (s : State) (va : Nat) (l : List (Nat × Nat)) : Option Nat :=
  if l.any fun p => (s.meetsPoison s.cur p.1 p.2).isSome then some va else none

/-- The active elements of width `w` under a lane mask. -/
def activeOf (l : BitVec 128) (w : Nat) : List Nat := (List.range (4096 / w)).filter fun j => activeElem l w j

/-- The destination bits of inactive elements that ZI writes zero (R114). -/
def zeroBits (l : BitVec 128) (w : Nat) (zi : Bool) : Vec :=
  if zi then BitVec.ofNat 4096 (packElems w ((List.range (4096 / w)).map fun j => if activeElem l w j then 0 else 2 ^ w - 1))
  else 0

/-- The checks of LDV and STV on their active lanes: the address after redirection, and each lane's pieces (R115). That the whole
512 bytes decide whether a window is straddled, and that with no active lane only MISALIGN is checked, is the model's choice
(DESIGN CHOICE, log 61): the manual does not say. -/
def State.checkLdv (s : State) (act : Acc) (base30 : Bool) (ea : Nat) (l : BitVec 128) :
    Chk (List (Nat × List (Nat × Nat))) :=
  let c := s.me
  let redir := c.redirected base30 ea
  let va := if redir then c.redirect ea else ea
  let js := activeOf l 32
  if ea % 16 ≠ 0 then .bad 0x08 ea
  else if js = [] then .ok []
  else if (redir && c.cvlo ≤ ea + 511) || regionOf va ≠ regionOf (va + 511) then .bad 0x07 ea
  else if redir && va < 2 ^ 32 then .bad 0x06 va
  else
    chkLanes (act == .read) (fun (e : Nat × List (Nat × Nat)) => s.piecesHit (va + 4 * e.1) e.2) (fun j =>
      match s.checkAddr s.cur true act false (va + 4 * j) 4 4 with
      | .ok ps => .ok (j, ps)
      | .bad x y => .bad x y
      | .wait w => .wait w) js

/-- The checks of the strided and indexed forms: each active element at its own address (R116). -/
def State.checkEach (s : State) (act : Acc) (base30 : Bool) (w : Nat) (ea : Nat → Word) (l : BitVec 128) :
    Chk (List (Nat × List (Nat × Nat))) :=
  chkLanes (act == .read) (fun (e : Nat × List (Nat × Nat)) => s.piecesHit (s.me.foldEa base30 (ea e.1).toNat).toNat e.2)
    (fun j =>
    match s.checkAddr s.cur true act base30 (ea j).toNat (w / 8) (w / 8) with
    | .ok ps => .ok (j, ps)
    | .bad x y => .bad x y
    | .wait w => .wait w) (activeOf l w)

/-- The log entry of a read that met poison at an address of `n` bytes (R114; 17 R371). -/
def State.hitLog (s : State) (va n : Nat) : List Act :=
  match s.checkAddr s.cur true .read false va n 1 with
  | .ok ps => ((ps.findSome? fun p => s.meetsPoison s.cur p.1 p.2).map Act.log).toList
  | _ => []

/-- A vector load of the elements checked (R115, R116). -/
def State.vloadActs (s : State) (d : BitVec 5) (w : Nat) (m : Mod) (own : Bool) (va : Nat → Word)
    (chk : Chk (List (Nat × List (Nat × Nat)))) : List Act :=
  match chk with
  | .bad cause va => (if cause = 0x10 then s.hitLog va (w / 8) else []) ++ [.trap (s.accTrap cause va)]
  | .wait x => [.stall x]
  | .ok es =>
    s.loadActs
      ⟨rV d, es.flatMap fun e => pieceParts (w * e.1) e.2, zeroBits (s.me.lanes m) w m.zi,
        es.flatMap fun e => pieceMarks (va e.1) e.2⟩
      (if own then some 6 else none)

/-- A vector store of the elements checked: one entry, folded by element (R115, R116; 15 R321, R325). -/
def State.vstoreActs (s : State) (x : Vec) (w gran : Nat) (ea : Nat → Word)
    (chk : Chk (List (Nat × List (Nat × Nat)))) : List Act :=
  match chk with
  | .bad cause va => [.trap (s.accTrap cause va)]
  | .wait y => [.stall y]
  | .ok es =>
    [.enter (.store (es.flatMap fun e => pieceBytes e.2 (leBytes (elem x w e.1) (w / 8)))) gran none 0
      (es.flatMap fun e => [ea e.1, BitVec.ofNat 64 (elem x w e.1)])]

/-- The 32-B blocks that active elements touch, at least 1 (15 R321). -/
def blockCount (l : List Nat) : Nat := max 1 ((l.map (· / 32)).eraseDups).length

/-- The address of LDV, STV and LDQ (R115, R117). -/
def Ctx.ldvEa (c : Ctx) (a : BitVec 5) (i : BitVec 7) : Nat := (c.s a + 16 * sext64 i).toNat

/-- LDV (R115). -/
def execLdv (h : Head) (d a : BitVec 5) (i : BitVec 7) (md : Option (BitVec 28)) (s : State) :
    Host.Outcome State Fault Refusal :=
  let m := Mod.of md
  s.slotDo h [rV d, rS a, m.reg] fun c =>
    let ea := c.ldvEa a i
    let at' := c.foldEa (a == 30) ea
    s.vloadActs d 32 m (c.ownDirect (a == 30) ea) (fun j => at' + BitVec.ofNat 64 (4 * j)) (s.checkLdv .read (a == 30) ea (c.lanes m))

/-- STV (R115). -/
def execStv (h : Head) (d a : BitVec 5) (i : BitVec 7) (md : Option (BitVec 28)) (s : State) :
    Host.Outcome State Fault Refusal :=
  let m := Mod.of md
  s.slotDo h [rV d, rS a, m.reg] fun c =>
    let ea := c.ldvEa a i
    let at' := c.foldEa (a == 30) ea
    s.vstoreActs (c.r.rv d.toNat) 32 ((ea + 511) / 32 - ea / 32 + 1) (fun j => at' + BitVec.ofNat 64 (4 * j))
      (s.checkLdv .write (a == 30) ea (c.lanes m))

/-- The element width of LDVS, STVS, LDVG and STVG (R116). -/
def strideWidth (m : BitVec 2) : Nat := if m.toNat = 0 then 32 else 64

/-- ea[j] of LDVS and STVS (R116). -/
def Ctx.stridedEa (c : Ctx) (a b : BitVec 5) (j : Nat) : Word := c.s a + BitVec.ofNat 64 j * c.s b

/-- ea[j] of LDVG, STVG and the vector atomics (R116; 12 R257). -/
def Ctx.indexedEa (c : Ctx) (a b : BitVec 5) (w j : Nat) : Word :=
  c.s a + BitVec.ofNat 64 (w / 8) * signExt (elem (c.r.rv b.toNat) 32 j) 32

/-- A strided or indexed load (R116). -/
def State.loadEach (s : State) (d a : BitVec 5) (w : Nat) (m : Mod) (ea : Nat → Word) : List Act :=
  let c := s.me
  let own := (activeOf (c.lanes m) w).all fun j => c.ownDirect (a == 30) (ea j).toNat
  s.vloadActs d w m own (fun j => c.foldEa (a == 30) (ea j).toNat) (s.checkEach .read (a == 30) w ea (c.lanes m))

/-- A strided or indexed store (R116). -/
def State.storeEach (s : State) (d a : BitVec 5) (w : Nat) (m : Mod) (ea : Nat → Word) : List Act :=
  let c := s.me
  let fold (j : Nat) : Word := c.foldEa (a == 30) (ea j).toNat
  s.vstoreActs (c.r.rv d.toNat) w (blockCount ((activeOf (c.lanes m) w).map fun j => (fold j).toNat)) fold
    (s.checkEach .write (a == 30) w ea (c.lanes m))

/-- LDVS (R116). -/
def execLdvs (h : Head) (d a b : BitVec 5) (m : BitVec 2) (md : Option (BitVec 28)) (s : State) :
    Host.Outcome State Fault Refusal :=
  let mo := Mod.of md
  s.slotDo h [rV d, rS a, rS b, mo.reg] fun c => s.loadEach d a (strideWidth m) mo (c.stridedEa a b)

/-- STVS (R116). -/
def execStvs (h : Head) (d a b : BitVec 5) (m : BitVec 2) (md : Option (BitVec 28)) (s : State) :
    Host.Outcome State Fault Refusal :=
  let mo := Mod.of md
  s.slotDo h [rV d, rS a, rS b, mo.reg] fun c => s.storeEach d a (strideWidth m) mo (c.stridedEa a b)

/-- LDVG (R116). -/
def execLdvg (h : Head) (d a b : BitVec 5) (m : BitVec 2) (md : Option (BitVec 28)) (s : State) :
    Host.Outcome State Fault Refusal :=
  let mo := Mod.of md
  s.slotDo h [rV d, rS a, rV b, mo.reg] fun c => s.loadEach d a (strideWidth m) mo (c.indexedEa a b (strideWidth m))

/-- STVG (R116). -/
def execStvg (h : Head) (d a b : BitVec 5) (m : BitVec 2) (md : Option (BitVec 28)) (s : State) :
    Host.Outcome State Fault Refusal :=
  let mo := Mod.of md
  s.slotDo h [rV d, rS a, rV b, mo.reg] fun c => s.storeEach d a (strideWidth m) mo (c.indexedEa a b (strideWidth m))

/-- LDQ (R117): 512 bytes of the own LSP by its direct window; another target that exists raises PERMISSION. -/
def execLdq (h : Head) (d a : BitVec 5) (i : BitVec 7) (s : State) : Host.Outcome State Fault Refusal :=
  s.slotDo h [.q d.toNat, rS a] fun c =>
    let ea := c.ldvEa a i
    let at' := c.foldEa (a == 30) ea
    if c.ownDirect (a == 30) ea && ea % 16 = 0 && ea + 512 ≤ 0xC0000 then
      s.loadActs ⟨.q d.toNat, [(0, 8 * pkLsp (coreOf s.cur) ea, 4096)], 0,
        [(pkLsp (coreOf s.cur) ea, 512, BitVec.ofNat 64 ea, 0, 0, 0)]⟩ (some 8)
    else
      match s.checkAddr s.cur true .read (a == 30) ea 512 16 with
      | .bad cause va => [.trap (s.accTrap (if 6 ≤ cause && cause ≤ 8 then cause else 0x09) va)]
      | _ => [.trap (s.accTrap 0x09 at'.toNat)]

/-! ### Tensor accesses -/

/-- TID of a handle. -/
def hTid (n : BitVec 256) : Nat := bits n.toNat 0 20

/-- RANK of a handle. -/
def hRank (n : BitVec 256) : Nat := bits n.toNat 23 3

/-- Coordinate `i` of a handle. -/
def hCoord (n : BitVec 256) (i : Nat) : Nat := bits n.toNat (96 + 32 * i) 32

/-- A trap on the tensor path at element offset `j` of a handle (R101). -/
def State.tenTrap (s : State) (n : BitVec 256) (cause j : Nat) : TrapReq :=
  { s.accTrap cause 0 with
    n := BitVec.ofNat 64 (hTid n + 2 ^ 20 * hRank n)
    n1 := BitVec.ofNat 64 ((hCoord n 0 + j) % 2 ^ 32 + 2 ^ 32 * hCoord n 1)
    n2 := BitVec.ofNat 64 (hCoord n 2 + 2 ^ 32 * hCoord n 3) }

/-- The descriptor checks of a handle's access before the elements, up to the rank (R118); `own` with the conditions that
are those of TLD and TST alone. An entry of the tensor table beyond HBM4 is taken as malformed (R105; DEDUCED, log 13). -/
def State.handleDesc (s : State) (own : Bool) (n : BitVec 256) : Except Nat Desc :=
  let c := s.me
  let tid := hTid n
  if 4 ≤ hRank n then .error 0x01
  else if tid = 0 then .error 0x09
  else if s.descPoisoned (coreOf s.cur) c.space tid then .error 0x10
  else
    match s.desc (coreOf s.cur) c.space tid with
    | none => .error 0x09
    | some d =>
      if !d.valid then .error 0x06
      else if d.malformed || (own && d.layout = 1) then .error 0x09
      else if hRank n + 1 ≠ d.rank then .error 0x09
      else if own && d.eb < 3 && hCoord n 0 % (8 / 2 ^ d.eb) ≠ 0 then .error 0x08
      else .ok d

/-- The descriptor checks of TLD and TST (R118). -/
def State.tensorDesc (s : State) (n : BitVec 256) : Except Nat Desc := s.handleDesc true n

/-- An element that a TLD or TST touches. -/
structure TElem where
  /-- Its place in the vector. -/
  j : Nat
  /-- Tile. -/
  tile : Nat
  /-- Key of the byte that holds its first bit in the committed frame. -/
  pa : Nat
  /-- Bit within that byte. -/
  bit : Nat
  /-- The tile is lock-enforced. -/
  enforced : Bool
  deriving DecidableEq, Repr

/-- Whether a tile's leaf is lock-enforced (13 R279). -/
def State.tileEnforced (s : State) (sp : Space) (tid tile : Nat) : Bool :=
  match s.leafOf (coreOf s.cur) sp tid tile with
  | .leaf _ w => bits w 57 1 == 1
  | _ => false

/-- Element `j` of a TLD or TST, checked (R118): none where it is clipped. A failure names `j` in place of an address. -/
def State.tensorElem (s : State) (n : BitVec 256) (d : Desc) (acc : Acc) (j : Nat) : Chk (Option TElem) :=
  let co (i : Nat) : Nat := if i = 0 then hCoord n 0 + j else hCoord n i
  if d.ext 0 ≤ co 0 then .ok none
  else if (List.range d.rank).any fun i => decide (1 ≤ i) && decide (d.ext i ≤ co i) then .bad 0x06 j
  else
    let tile := d.tile co
    let off := d.bitOff co 0
    let sp := s.me.space
    match s.checkTile s.cur true sp (hTid n) tile (off / 8) acc 0 with
    | .ok pa => .ok (some ⟨j, tile, pa, off % 8, s.tileEnforced sp (hTid n) tile⟩)
    | .bad c _ => .bad c j
    | .wait w => .wait w

/-- The tile of an element as shadow frames name it. -/
def State.tileKey (s : State) (n : BitVec 256) (e : TElem) : Nat × Nat × Nat := (s.me.space.asid, hTid n, e.tile)

/-- Where a TLD reads an element: in the context's own shadow frame of the tile, if it has one (R118; 15 R323). -/
def State.elemKey (s : State) (n : BitVec 256) (e : TElem) : Nat :=
  match s.shadowRead s.cur (s.tileKey n e) with
  | some f => f.frame + e.pa % 2 ^ 16
  | none => e.pa

/-- The active elements of a TLD or TST (R118). -/
def State.tensorElems (s : State) (n : BitVec 256) (d : Desc) (acc : Acc) (l : BitVec 128) : Chk (List (Option TElem)) :=
  let hit (e : Option TElem) : Option Nat :=
    e.bind fun e => s.piecesHit e.j [(s.elemKey n e, (e.bit + 2 ^ d.eb + 7) / 8)]
  chkLanes (acc == .read) hit (s.tensorElem n d acc) (activeOf l (2 ^ d.eb))

/-- TLD (R118): clipped elements read zero; interlocked. -/
def execTld (h : Head) (d a : BitVec 5) (md : Option (BitVec 28)) (s : State) : Host.Outcome State Fault Refusal :=
  let m := Mod.of md
  s.slotDo h [rV d, .n a.toNat, m.reg] fun c =>
    let n := c.r.rn a.toNat
    match s.tensorDesc n with
    | .error cause => [.trap (s.tenTrap n cause 0)]
    | .ok ds =>
      let w := 2 ^ ds.eb
      match s.tensorElems n ds .read (c.lanes m) with
      | .bad cause j =>
        let key := match cause, s.tensorElem n ds .read j with
          | 0x10, .ok (some e) => s.meetsPoison s.cur (s.elemKey n e) ((e.bit + w + 7) / 8)
          | _, _ => none
        (key.map Act.log).toList ++ [.trap (s.tenTrap n cause j)]
      | .wait x => [.stall x]
      | .ok es =>
        let live := es.filterMap id
        let parts := live.map fun e => (w * e.j, 8 * s.elemKey n e + e.bit, w)
        let clipped := (activeOf (c.lanes m) w).filter fun j => !(live.any fun e => e.j == j)
        let zero := BitVec.ofNat 4096 ((clipped.map fun j => (2 ^ w - 1) * 2 ^ (w * j)).sum)
        let mark (e : TElem) : Nat × Nat × Word × Word × Word × Word :=
          let t := s.tenTrap n 0x10 e.j
          (s.elemKey n e, (e.bit + w + 7) / 8, t.va, t.n, t.n1, t.n2)
        s.loadActs ⟨rV d, parts, zero ||| zeroBits (c.lanes m) w m.zi, live.map mark⟩ none

/-- Bits of elements gathered by byte: key, mask, bits (R118). -/
def byteGroups (x : Vec) (w : Nat) (es : List (TElem × Nat)) : List (Nat × Byte × Byte) :=
  es.foldl (fun acc e =>
    if 8 ≤ w then acc ++ ((List.range (w / 8)).map fun i => (e.2 + i, (0xFF : Byte), BitVec.ofNat 8 (bits (elem x w e.1.j) (8 * i) 8)))
    else
      let m : Byte := BitVec.ofNat 8 ((2 ^ w - 1) * 2 ^ e.1.bit)
      let b : Byte := BitVec.ofNat 8 (elem x w e.1.j * 2 ^ e.1.bit)
      match acc.getLast? with
      | some (k, m0, b0) => if k = e.2 then acc.dropLast ++ [(k, m0 ||| m, b0 ||| b)] else acc ++ [(e.2, m, b)]
      | none => [(e.2, m, b)]) []

/-- Whether a context covers a tile by an X or SIX grant at level 0 or 1 (13 R280). -/
def State.coversTile (s : State) (g : Nat) (key : Nat × Nat × Nat) : Bool :=
  (s.lkm (lkmHome key.1 key.2.1)).ents.any fun e =>
    e.age == s.lkId g && !e.wounded && (e.held == 7 || e.held == 5) &&
      (e.name == lockTile key.1 key.2.1 key.2.2 || e.name == lockTensor key.1 key.2.1)

/-- Whether a TST writes a tile through a shadow frame (15 R323, 13 R280). -/
def State.tstShadowed (s : State) (n : BitVec 256) (e : TElem) : Bool :=
  1 ≤ s.me.pcls || (e.enforced && s.coversTile s.cur (s.tileKey n e))

/-- The words that a TST folds (15 R325). -/
def tstFolds (n : BitVec 256) (x : Vec) (w : Nat) (js : List Nat) : List Word :=
  [BitVec.ofNat 64 (hTid n), BitVec.ofNat 64 (hCoord n 2 + 2 ^ 32 * hCoord n 3)] ++
    js.flatMap fun j => [BitVec.ofNat 64 (hCoord n 0 + j + 2 ^ 32 * hCoord n 1), BitVec.ofNat 64 (elem x w j)]

/-- The entries of bytes that go to committed frames: whole bytes in one entry with the granules, and each partial byte
by itself. -/
def plainEntries (gs : List (Nat × Byte × Byte)) (gran : Nat) (folds : List Word) : List Act :=
  let whole := (gs.filter fun b => b.2.1 == 0xFF).map fun b => (b.1, b.2.2)
  let part := gs.filter fun b => b.2.1 != 0xFF
  .enter (.store whole) gran none 0 folds :: part.map fun b => .enter (.bits b.1 b.2.1 b.2.2) 0 none 0 []

/-- TST (R118; 15 R321, R323, R325; 13 R280): a frame not yet made holds the bundle until it is copied. -/
def execTst (h : Head) (d a : BitVec 5) (md : Option (BitVec 28)) (s : State) : Host.Outcome State Fault Refusal :=
  let m := Mod.of md
  s.slotDo h [rV d, .n a.toNat, m.reg] fun c =>
    let n := c.r.rn a.toNat
    match s.tensorDesc n with
    | .error cause => [.trap (s.tenTrap n cause 0)]
    | .ok ds =>
      let w := 2 ^ ds.eb
      let x := c.r.rv d.toNat
      match s.tensorElems n ds .write (c.lanes m) with
      | .bad cause j => [.trap (s.tenTrap n cause j)]
      | .wait y => [.stall y]
      | .ok es =>
        let live := es.filterMap id
        let folds := tstFolds n x w (activeOf (c.lanes m) w)
        let (shad, plain) := live.partition (s.tstShadowed n)
        let keys := (shad.map (s.tileKey n)).eraseDups
        match keys.find? fun k => (s.shadowNow s.cur k).isNone with
        | some k =>
          (match s.poolTake (spcOf s.cur) with
            | .empty => [.trap (s.trapAt 0x17 0)]
            | _ => [.stall (.frame k s.iss.slot)])
        | none =>
          let pg := byteGroups x w (plain.map fun e => (e, e.pa))
          let frames := keys.filterMap fun k => (s.shadowNow s.cur k).map fun f =>
            let gs := byteGroups x w ((shad.filter fun e => s.tileKey n e == k).map fun e => (e, f.frame + e.pa % 2 ^ 16))
            Act.enter (.shadow f.frame (gs.map fun b => (b.1, blend (c.overlay (memGet s.mem b.1) b.1) b.2.1 b.2.2))) 1 none 0 []
          if shad = [] then plainEntries pg (if 1 ≤ c.pcls then 1 else blockCount (pg.map (·.1))) folds
          else
            frames.zipIdx.map (fun e =>
              match e.1 with
              | .enter op _ b p _ => .enter op (if e.2 = 0 then 1 else 0) b p (if e.2 = 0 then folds else [])
              | act => act) ++
            (if plain = [] then [] else plainEntries pg 0 [])

/-! ### Prefetch -/

/-- PREF of an address (R119). -/
def execPrefAddress (h : Head) (a : BitVec 5) (i : BitVec 7) (ks : List (BitVec 28)) (s : State) :
    Host.Outcome State Fault Refusal :=
  s.slotDo h [rS a] fun c =>
    let ea := (c.s a + kimm i ks).toNat
    match s.checkAddr s.cur true .read false ea 1 1 with
    | .ok ps =>
      if regionOf ea = 10 then .pref c.space.asid 0 (ea / 2 ^ 16) :: (ps.map fun p => Act.wake p.1) else []
    -- the tile moves: the walk goes on in the background (R109)
    | .wait _ => if regionOf ea = 10 then [.pref c.space.asid 0 (ea / 2 ^ 16)] else []
    | .bad .. => []

/-- PREF of a handle's element (R119). -/
def execPrefHandle (h : Head) (a : BitVec 5) (s : State) : Host.Outcome State Fault Refusal :=
  s.slotDo h [.n a.toNat] fun c =>
    let n := c.r.rn a.toNat
    match s.handleDesc false n with
    | .error _ => []
    | .ok d =>
      match s.tensorElem n d .read 0 with
      | .ok (some e) => [.pref c.space.asid (hTid n) e.tile, .wake e.pa]
      | .wait _ => [.pref c.space.asid (hTid n) (d.tile (hCoord n))]
      | _ => []

end Sys2Proof.Machine
end

