-- ==== Sys2Proof/Machine/Ordering.lean ====
section
/-! DEFINITION. FENCE and DRAIN (07 R138 to R143). -/

namespace Sys2Proof.Machine

/-- A path number that no mask names: a marker belongs to no path. -/
def noPath : Nat := 6

/-- FENCE (07 R138, R139): a marker among the entries. -/
def execFence (h : Head) (b f : BitVec 6) (s : State) : Host.Outcome State Fault Refusal :=
  s.slotDo h [] fun _ => [.enter (.fence b f) 1 none noPath []]

/-- DRAIN (07 R141, R142): it waits at the end of its bundle, where the bundle's CKPT has a true guard. -/
def execDrain (h : Head) (p : BitVec 6) (sc : BitVec 3) (s : State) : Host.Outcome State Fault Refusal :=
  s.slotDo h [] fun c => c.unlessChain s [.tail (.drain p sc s.iss.pc)]

end Sys2Proof.Machine
end

