-- ==== Sys2Proof/Machine/Sync.lean ====
section
/-! DEFINITION. Atomics, counters, barriers and OBRK (12 R247 to R266). -/

namespace Sys2Proof.Machine

/-- An access at a byte address without redirection: what it asks for once the checks of R101 have passed. -/
def State.atAddr (s : State) (acc : Acc) (ea : Word) (n : Nat) (k : Nat → List Act) : List Act :=
  match s.checkAddr s.cur true acc false ea.toNat n n with
  | .bad cause va => [.trap (s.accTrap cause va)]
  | .wait w => [.stall w]
  | .ok ps => k ((ps.headD (0, 0)).1)

/-- The entry of an operation of one granule (15 R321). -/
def syncEntry (op : EntOp) (pa : Nat) (folds : List Word) : Act := .enter op 1 (some (pa / 32)) 0 folds

/-- An operation that returns a value when its destination is not s0: its bundle is then a checkpoint bundle (R248). -/
def Ctx.returning (c : Ctx) (s : State) (d : BitVec 5) (e : Act) : List Act :=
  if d = 0 then [e] else c.unlessChain s [.ckpt true, e]

/-- The width of a scalar atomic (R255). -/
def atomWidth (m : BitVec 2) : Nat := if m.toNat = 0 then 8 else 4

/-- A scalar atomic (R255; 12 R248, R250, R252). `e` is what ACAS compares with. -/
def State.atomic (s : State) (h : Head) (d a b : BitVec 5) (m : BitVec 2) (op : AtomOp) (acc : Acc) :
    Host.Outcome State Fault Refusal :=
  s.slotDo h [rS d, rS a, rS b] fun c =>
    let n := atomWidth m
    let x := (c.s b).toNat % 2 ^ (8 * n)
    let e := if op = .cas then (c.s d).toNat % 2 ^ (8 * n) else 0
    s.atAddr acc (c.s a) n fun pa =>
      c.returning s d (syncEntry (.atomic op pa n x e d.toNat) pa
        (c.s a :: (if op = .cas then [c.s d, c.s b] else [c.s b])))

/-- AADD (R255). -/
def execAadd (h : Head) (d a b : BitVec 5) (m : BitVec 2) (s : State) : Host.Outcome State Fault Refusal :=
  s.atomic h d a b m .add .add

/-- AAND (R255). -/
def execAand (h : Head) (d a b : BitVec 5) (m : BitVec 2) (s : State) : Host.Outcome State Fault Refusal :=
  s.atomic h d a b m .and .write

/-- AOR (R255). -/
def execAor (h : Head) (d a b : BitVec 5) (m : BitVec 2) (s : State) : Host.Outcome State Fault Refusal :=
  s.atomic h d a b m .or .write

/-- AXOR (R255). -/
def execAxor (h : Head) (d a b : BitVec 5) (m : BitVec 2) (s : State) : Host.Outcome State Fault Refusal :=
  s.atomic h d a b m .xor .write

/-- AMIN (R255). -/
def execAmin (h : Head) (d a b : BitVec 5) (m : BitVec 2) (s : State) : Host.Outcome State Fault Refusal :=
  s.atomic h d a b m .min .write

/-- AMAX (R255). -/
def execAmax (h : Head) (d a b : BitVec 5) (m : BitVec 2) (s : State) : Host.Outcome State Fault Refusal :=
  s.atomic h d a b m .max .write

/-- AMINN (R255). -/
def execAminn (h : Head) (d a b : BitVec 5) (m : BitVec 2) (s : State) : Host.Outcome State Fault Refusal :=
  s.atomic h d a b m .minn .write

/-- AMAXN (R255). -/
def execAmaxn (h : Head) (d a b : BitVec 5) (m : BitVec 2) (s : State) : Host.Outcome State Fault Refusal :=
  s.atomic h d a b m .maxn .write

/-- AXCHG (R255). -/
def execAxchg (h : Head) (d a b : BitVec 5) (m : BitVec 2) (s : State) : Host.Outcome State Fault Refusal :=
  s.atomic h d a b m .xchg .write

/-- ACAS (R255). -/
def execAcas (h : Head) (d a b : BitVec 5) (m : BitVec 2) (s : State) : Host.Outcome State Fault Refusal :=
  s.atomic h d a b m .cas .write

/-- A vector atomic (R257; 12 R250, R252). -/
def State.vatomic (s : State) (h : Head) (d a b : BitVec 5) (md : Option (BitVec 28)) (op : AtomOp) (acc : Acc) :
    Host.Outcome State Fault Refusal :=
  let mo := Mod.of md
  s.slotDo h [rV d, rS a, rV b, mo.reg] fun c =>
    let ea := c.indexedEa a b 32
    let x (j : Nat) : Nat := elem (c.r.rv d.toNat) 32 j
    match s.checkEach acc false 32 ea (c.lanes mo) with
    | .bad cause va => [.trap (s.accTrap cause va)]
    | .wait w => [.stall w]
    | .ok es =>
      let gran := max 1 ((es.map fun e => e.1 / 8).eraseDups).length
      [.enter (.vatomic op c.excTid (es.map fun e => (e.1, (e.2.headD (0, 0)).1, x e.1, ea e.1))) gran none 0
        (es.flatMap fun e => [ea e.1, BitVec.ofNat 64 (x e.1)])]

/-- VAADD (R257). -/
def execVaadd (h : Head) (d a b : BitVec 5) (m : BitVec 2) (md : Option (BitVec 28)) (s : State) :
    Host.Outcome State Fault Refusal :=
  s.vatomic h d a b md (if m.toNat = 0 then .add else .fadd) .add

/-- VAOR (R257). -/
def execVaor (h : Head) (d a b : BitVec 5) (_m : BitVec 2) (md : Option (BitVec 28)) (s : State) :
    Host.Outcome State Fault Refusal :=
  s.vatomic h d a b md .or .write

/-- VAMAX (R257). -/
def execVamax (h : Head) (d a b : BitVec 5) (m : BitVec 2) (md : Option (BitVec 28)) (s : State) :
    Host.Outcome State Fault Refusal :=
  s.vatomic h d a b md (match m.toNat with | 0 => .max | 1 => .maxn | _ => .fmax) .write

/-- CADD (R258). -/
def execCadd (h : Head) (a b : BitVec 5) (s : State) : Host.Outcome State Fault Refusal :=
  s.slotDo h [rS a, rS b] fun c =>
    s.atAddr .add (c.s a) 8 fun pa => [syncEntry (.cadd pa (c.s b)) pa [c.s a, c.s b]]

/-- WAITGE (R259). -/
def execWaitge (h : Head) (d a b : BitVec 5) (s : State) : Host.Outcome State Fault Refusal :=
  s.slotDo h [rS d, rS a, rS b] fun c =>
    s.atAddr .read (c.s a) 8 fun pa => [.tail (.wait (.ge d.toNat pa (c.s b) (c.s a)) s.iss.pc s.iss.slot false)]

/-- A barrier operation at an address: PERMISSION where the object is not aligned in an LSP of the cluster (R260). -/
def State.atBarrier (s : State) (ea : Word) (k : Nat → List Act) : List Act :=
  let r := regionOf ea.toNat
  if ea.toNat % 16 = 0 && (r = 0 || (2 ≤ r && r ≤ 5)) then k (s.me.localKey s.cur ea.toNat)
  else [.trap (s.accTrap 0x09 ea.toNat)]

/-- BINIT (R261). -/
def execBinit (h : Head) (a b : BitVec 5) (s : State) : Host.Outcome State Fault Refusal :=
  s.slotDo h [rS a, rS b] fun c =>
    let x := (c.s b).toNat
    s.atBarrier (c.s a) fun pa =>
      if x = 0 || 2 ^ 16 ≤ x then [.trap (s.accTrap 0x09 (c.s a).toNat)]
      else [syncEntry (.binit pa x) pa [c.s a, c.s b]]

/-- BARV (R262). -/
def execBarv (h : Head) (d a : BitVec 5) (i : BitVec 7) (s : State) : Host.Outcome State Fault Refusal :=
  s.slotDo h [rS d, rS a] fun c =>
    s.atBarrier (c.s a) fun pa =>
      c.returning s d (syncEntry (.barv pa i.toNat d.toNat) pa [c.s a, BitVec.ofNat 64 i.toNat])

/-- BWAIT (R263). -/
def execBwait (h : Head) (d a b : BitVec 5) (s : State) : Host.Outcome State Fault Refusal :=
  s.slotDo h [rS d, rS a, rS b] fun c =>
    let w := (c.s b).toNat
    s.atBarrier (c.s a) fun pa =>
      if bits w 4 12 ≠ 0 || bits w 48 16 ≠ 0 then [.trap (s.accTrap 0x09 (c.s a).toNat)]
      else
        let bound := bits w 16 32
        [.tail (.wait (.bar d.toNat pa (bits w 0 4) (if bound = 0 then none else some (s.cycles + 1 + bound)) (c.s a))
          s.iss.pc s.iss.slot false)]

/-- OBRK of a barrier (R264). -/
def execObrkBarrier (h : Head) (a : BitVec 5) (s : State) : Host.Outcome State Fault Refusal :=
  s.slotDo h [rS a] fun c => s.atBarrier (c.s a) fun pa => [syncEntry (.obrk pa) pa [c.s a, 0]]

/-- SIDE of a ring handle: producer. -/
def hProd (x : BitVec 128) : Bool := bits x.toNat 35 1 == 1

/-- Slots of a ring handle: NSM1 + 1. -/
def hSlots (x : BitVec 128) : Nat := bits x.toNat 25 8 + 1

/-- The core whose LSP holds a handle's ring. -/
def Ctx.ringCore (c : Ctx) (x : BitVec 128) : Nat := 4 * c.al.home + hCore x

/-- PERMISSION with an address (R101 step 4). -/
def State.permission (s : State) (va : Word) : List Act := [.trap (s.accTrap 0x09 va.toNat)]

/-- OBRK of a ring (R264). -/
def execObrkRing (h : Head) (a : BitVec 5) (s : State) : Host.Outcome State Fault Refusal :=
  s.slotDo h [.h a.toNat] fun c =>
    let x := c.r.rh a.toNat
    if !hBnd x then s.permission 0
    else [.enter (.obrkRing (c.ringCore x) (hRix x)) 1 none 0 [0, BitVec.ofNat 64 (hRix x + 32 * hCore x)]]

end Sys2Proof.Machine
end

