-- ==== Sys2Proof/Machine/Lock.lean ====
section
/-! DEFINITION. The lock instructions (13 R267, R281 to R284). -/

namespace Sys2Proof.Machine

/-- A slot word as it stands in the bundle in issue, its E bit included (02 R26; 15 R325). -/
def State.foldWordOf (s : State) (i : Instr) : Word :=
  BitVec.ofNat 64 (slotWord i + (if s.iss.slot + 1 = s.iss.n then 2 ^ 31 else 0))

/-- The lock that a name word and a control word name for a context (R267). -/
def Ctx.lockName (c : Ctx) (a b : Word) : LockName :=
  let asid := c.space.asid
  let tid := bits b.toNat 0 20
  let tile := bits a.toNat 0 41
  match bits a.toNat 50 2 with
  | 0 => lockTensor asid tid
  | 1 => lockTile asid tid tile
  | _ => lockLine asid tid tile (bits a.toNat 41 9)

/-- MODE of a control word (R267). -/
def lockMode (b : Word) : Nat := bits b.toNat 20 3

/-- Whether the words of a lock instruction pass the checks at issue (R283). -/
def State.lockOk (s : State) (a b : Word) : Bool :=
  let x := a.toNat
  let lvl := bits x 50 2
  let tile := bits x 0 41
  let tid := bits b.toNat 0 20
  bits x 52 12 == 0 && bits b.toNat 23 41 == 0 && lvl != 3 && (lvl == 2 || bits x 41 9 == 0) && (lvl != 0 || tile == 0) &&
    !(tid == 0 && lvl != 0 && decide (tile < 0x10000)) &&
    (tid == 0 ||
      (match s.desc (coreOf s.cur) s.me.space tid with
        | none => false
        | some d => d.valid && !d.malformed && (lvl == 0 || decide (tile ≤ d.lastTile))))

/-- A request of a lock manager, awaited at the end of the bundle (R283); `op` as LOCK_ANSWER takes it. -/
def State.lockAsk (s : State) (h : Head) (d a b : BitVec 5) (op : Nat) : Host.Outcome State Fault Refusal :=
  s.slotDo h [rS d, rS a, rS b] fun c =>
    if !s.lockOk (c.s a) (c.s b) then s.permission (c.s a)
    else [.tail (.lock op (c.lockName (c.s a) (c.s b)) (lockMode (c.s b)) d.toNat s.iss.pc s.iss.slot)]

/-- LKREQ (R283). -/
def execLkreq (h : Head) (d a b : BitVec 5) (s : State) : Host.Outcome State Fault Refusal := s.lockAsk h d a b 0

/-- LKTRY (R283). -/
def execLktry (h : Head) (d a b : BitVec 5) (s : State) : Host.Outcome State Fault Refusal := s.lockAsk h d a b 1

/-- LKESC (R283). -/
def execLkesc (h : Head) (d a b : BitVec 5) (s : State) : Host.Outcome State Fault Refusal := s.lockAsk h d a b 2

/-- LKQRY (R283). -/
def execLkqry (h : Head) (d a b : BitVec 5) (s : State) : Host.Outcome State Fault Refusal := s.lockAsk h d a b 5

/-- LKDWN (R284). -/
def execLkdwn (h : Head) (a b : BitVec 5) (s : State) : Host.Outcome State Fault Refusal :=
  s.slotDo h [rS a, rS b] fun c =>
    if !s.lockOk (c.s a) (c.s b) then s.permission (c.s a)
    else [.enter (.lkdwn (c.lockName (c.s a) (c.s b)) (lockMode (c.s b))) 1 none 0
      [s.foldWordOf (.lkdwn h a b), c.s a, c.s b]]

/-- LKREL of one lock (R284). -/
def execLkrel (h : Head) (a b : BitVec 5) (s : State) : Host.Outcome State Fault Refusal :=
  s.slotDo h [rS a, rS b] fun c =>
    if !s.lockOk (c.s a) (c.s b) then s.permission (c.s a)
    else [.enter (.lkrel (c.lockName (c.s a) (c.s b))) 1 none 0 [s.foldWordOf (.lkrel h a b), c.s a, c.s b]]

/-- LKREL of every lock (R284). -/
def execLkrelAll (h : Head) (s : State) : Host.Outcome State Fault Refusal :=
  s.slotDo h [] fun _ => [.enter .lkrelAll 1 none 0 [s.foldWordOf (.lkrelAll h), 0, 0]]

end Sys2Proof.Machine
end

