-- ==== Sys2Proof/Machine/Vector.lean ====
section
/-! DEFINITION. The vector instructions (08). -/

namespace Sys2Proof.Machine

/-! ### Floating-point functions -/

/-- A pattern rounded from a value with flags that the operands already raised. -/
def withFlags (fl : Nat) (r : Nat × Nat) : Nat × Nat := (r.1, r.2 ||| fl)

/-- One in a format. -/
def oneV : FVal := .num false 1 0

/-- The quotient of two values, rounded once (R163, R164). -/
def Fmt.divV (f : Fmt) (mode : RMode) (x y : FVal) : Nat × Nat :=
  match x, y with
  | .nan, _ => (f.nan, 0)
  | _, .nan => (f.nan, 0)
  | .inf _, .inf _ => (f.nan, flagNV)
  | .inf a, .num b _ _ => (f.infPat (a != b), 0)
  | .num a _ _, .inf b => (f.zero (a != b), 0)
  | .num a m e, .num b n g =>
    if n = 0 then (if m = 0 then (f.nan, flagNV) else (f.infPat (a != b), flagDZ))
    else if m = 0 then (f.zero (a != b), 0)
    else
      let k := 70 + Nat.log2 n
      f.roundMag mode (a != b) (m * 2 ^ k / n) (e - g - k) (m * 2 ^ k % n != 0)

/-- The square root, rounded once (R164). -/
def Fmt.sqrtV (f : Fmt) (mode : RMode) (x : FVal) : Nat × Nat :=
  match x with
  | .nan => (f.nan, 0)
  | .inf a => if a then (f.nan, flagNV) else (f.infPat false, 0)
  | .num a m e =>
    if m = 0 then (f.zero a, 0)
    else if a then (f.nan, flagNV)
    else
      let k := 140 + (e % 2).toNat
      let big := m * 2 ^ k
      let r := isqrt big
      f.roundMag mode false r ((e - k) / 2) (r * r != big)

/-- The reciprocal square root, rounded once (R164). -/
def Fmt.rsqV (f : Fmt) (mode : RMode) (x : FVal) : Nat × Nat :=
  match x with
  | .nan => (f.nan, 0)
  | .inf a => if a then (f.nan, flagNV) else (f.zero false, 0)
  | .num a m e =>
    if m = 0 then (f.infPat a, flagDZ)
    else if a then (f.nan, flagNV)
    else
      let m' := m * 2 ^ (e % 2).toNat
      let e' := e - e % 2
      let k := 80 + Nat.log2 m'
      let r := isqrt (2 ^ (2 * k) / m')
      f.roundMag mode false r (-(k : Int) - e' / 2) (r * r * m' != 2 ^ (2 * k))

/-- exp (R164). -/
def Fmt.expV (f : Fmt) (mode : RMode) (x : FVal) : Nat × Nat :=
  match x with
  | .nan => (f.nan, 0)
  | .inf a => (if a then f.zero false else f.infPat false, 0)
  | .num a m e => if m = 0 then f.ofV mode oneV else f.expR mode (FVal.num a m e).dy

/-- Whether m * 2^e is one. -/
def isOne (m : Nat) (e : Int) : Bool := !(magLt m e 1 0) && !(magLt 1 0 m e)

/-- ln (R164). -/
def Fmt.logV (f : Fmt) (mode : RMode) (x : FVal) : Nat × Nat :=
  match x with
  | .nan => (f.nan, 0)
  | .inf a => if a then (f.nan, flagNV) else (f.infPat false, 0)
  | .num a m e =>
    if m = 0 then (f.infPat true, flagDZ)
    else if a then (f.nan, flagNV)
    else if isOne m e then (f.zero false, 0)
    else f.lnR mode m e

/-- tanh (R164). -/
def Fmt.tanhV (f : Fmt) (mode : RMode) (x : FVal) : Nat × Nat :=
  match x with
  | .nan => (f.nan, 0)
  | .inf a => f.ofV mode (.num a 1 0)
  | .num a m e => if m = 0 then (f.zero a, 0) else f.tanhR mode (FVal.num a m e).dy

/-- x * y + z rounded once; only an operation on numbers is invalid (R163). -/
def Fmt.fmaV (f : Fmt) (mode : RMode) (x y z : FVal) : Nat × Nat :=
  if x = .nan || y = .nan || z = .nan then (f.nan, 0)
  else
    match mulV x y with
    | (.nan, fl) => (f.nan, fl)
    | (p, _) => f.addV mode p z

/-- A sign removed. -/
def absV : FVal → FVal
  | .nan => .nan
  | .inf _ => .inf false
  | .num _ m e => .num false m e

/-! ### Shapes of V slots -/

/-- The results of the active elements, none computed for the others. -/
def elsOf (w : Nat) (l : BitVec 128) (f : Nat → El) : List El :=
  (List.range (4096 / w)).map fun j => if activeElem l w j then f j else ⟨0, 0, []⟩

/-- A V slot whose elements are computed one by one (R151, R152). -/
def State.vElems (s : State) (h : Head) (d : BitVec 5) (touch : List RegId) (md : Option (BitVec 28))
    (op w lat : Nat) (checked : Bool) (f : Ctx → Nat → El) : Host.Outcome State Fault Refusal :=
  let m := Mod.of md
  s.vslot h (rV d :: m.reg :: touch) (.late lat false) fun c =>
    let els := elsOf w (c.lanes m) (f c)
    let r := elemRes w (c.lanes m) m.zi els
    [s.vecAct lat (if checked then vCheck op else .none) (c.idle m) op (.v d.toNat r.1 r.2) els]

/-- Cycles of an interlocked V operation on elements of a width: the divisions and roots, then the transcendentals (R152). -/
def iterCycles (op w : Nat) : Nat :=
  if 14 < op then (if w = 16 then 14 else if w = 32 then 18 else 24) else if w = 16 then 12 else if w = 32 then 16 else 24

/-- An interlocked V slot (R152). -/
def State.vIlk (s : State) (h : Head) (d : BitVec 5) (touch : List RegId) (md : Option (BitVec 28))
    (op w : Nat) (f : Ctx → Nat → El) : Host.Outcome State Fault Refusal :=
  let m := Mod.of md
  s.vslot h (rV d :: m.reg :: touch) (.late 0 true) fun c =>
    let els := elsOf w (c.lanes m) (f c)
    let r := elemRes w (c.lanes m) m.zi els
    s.vecIlk (iterCycles op w) op (c.idle m) (.v d.toNat r.1 r.2) els

/-- Element of a vector register. -/
def Ctx.ve (c : Ctx) (a : BitVec 5) (w j : Nat) : Nat := elem (c.r.rv a.toNat) w j

/-- An FP operation on two sources and the old destination, with the modifier's rounding mode (R163). -/
def State.vFp (s : State) (h : Head) (d a b : BitVec 5) (m : BitVec 2) (md : Option (BitVec 28)) (op lat : Nat)
    (k : Fmt → RMode → FVal → FVal → FVal → Nat × Nat) : Host.Outcome State Fault Refusal :=
  let f := fpType m
  s.vElems h d [rV a, rV b] md op f.width lat true fun c j =>
    elFp f (k f (c.rmode (Mod.of md)) (f.decode (c.ve a f.width j)) (f.decode (c.ve b f.width j)) (f.decode (c.ve d f.width j)))

/-- A unary FP operation, exposed (R163). -/
def State.vFp1 (s : State) (h : Head) (d a : BitVec 5) (m : BitVec 2) (md : Option (BitVec 28)) (op lat : Nat)
    (k : Fmt → RMode → FVal → Nat × Nat) : Host.Outcome State Fault Refusal :=
  let f := fpType m
  s.vElems h d [rV a] md op f.width lat true fun c j =>
    elFp f (k f (c.rmode (Mod.of md)) (f.decode (c.ve a f.width j)))

/-- A unary FP operation, interlocked (R163, R164). -/
def State.vFpIlk (s : State) (h : Head) (d a : BitVec 5) (m : BitVec 2) (md : Option (BitVec 28)) (op : Nat)
    (k : Fmt → RMode → FVal → Nat × Nat) : Host.Outcome State Fault Refusal :=
  let f := fpType m
  s.vIlk h d [rV a] md op f.width fun c j => elFp f (k f (c.rmode (Mod.of md)) (f.decode (c.ve a f.width j)))

/-- An integer operation on two sources: width, signedness, SAT, operands (R165). -/
def State.vInt (s : State) (h : Head) (d a b : BitVec 5) (m : BitVec 2) (md : Option (BitVec 28)) (op : Nat)
    (k : Nat → Bool → Bool → Nat → Nat → El) : Host.Outcome State Fault Refusal :=
  let (w, sg) := intType m
  s.vElems h d [rV a, rV b] md op w 2 true fun c j => k w sg (Mod.of md).sat (c.ve a w j) (c.ve b w j)

/-- An element read by signedness. -/
def readInt (sg : Bool) (w x : Nat) : Int := if sg then toSigned x w else (x : Int)

/-- An integer result that wraps, or saturates and counts (R165). -/
def intEl (sg sat : Bool) (w : Nat) (v : Int) : El :=
  if sat then
    let (y, cl) := if sg then satSigned v w else satUnsigned v w
    ⟨intBits y w, if cl then flagSAT else 0, if cl then [0] else []⟩
  else ⟨intBits v w, 0, []⟩

/-- A result without flags. -/
def plainEl (x : Nat) : El := ⟨x, 0, []⟩

/-- A bitwise operation on lanes (R165). -/
def State.vBit (s : State) (h : Head) (d a b : BitVec 5) (md : Option (BitVec 28)) (op : Nat) (k : Nat → Nat → Nat) :
    Host.Outcome State Fault Refusal :=
  s.vElems h d [rV a, rV b] md op 32 2 true fun c j => plainEl (k (c.ve a 32 j) (c.ve b 32 j))

/-- A movement of elements, protected by the register file alone (R170, R174). -/
def State.vMove (s : State) (h : Head) (d : BitVec 5) (touch : List RegId) (md : Option (BitVec 28)) (op w lat : Nat)
    (f : Ctx → Nat → Nat) : Host.Outcome State Fault Refusal :=
  s.vElems h d touch md op w lat false fun c j => plainEl (f c j)

/-! ### Conversion -/

/-- A conversion format of VCVT: floating, or an integer with its signedness and width (R166). -/
inductive CFmt where
  /-- Floating. -/
  | fp (f : Fmt)
  /-- Integer. -/
  | int (signed : Bool) (n : Nat)
  deriving DecidableEq, Repr

/-- X of R166. -/
def xFmt (x : Nat) : CFmt :=
  match x with
  | 0 => .fp .f64
  | 1 => .fp .f32
  | 2 => .fp .f16
  | 3 => .fp .bf16
  | 4 => .fp .e4m3
  | 5 => .int true 8
  | 6 => .int true 16
  | 7 => .int true 32
  | 8 => .int true 64
  | 9 => .int false 8
  | 10 => .int false 16
  | 11 => .int false 32
  | _ => .int false 64

/-- P of R166. -/
def pFmt (p : Nat) : CFmt :=
  match p with
  | 0 => .fp .f32
  | 1 => .fp .f64
  | 2 => .int true 32
  | _ => .int true 64

/-- Width of a conversion format. -/
def CFmt.width : CFmt → Nat
  | .fp f => f.width
  | .int _ n => n

/-- One element converted (R167). -/
def convert (src dst : CFmt) (mode : RMode) (x : Nat) : El :=
  match src, dst with
  | .fp f, .fp g => convFF f g mode x
  | .fp f, .int sg n => convFI f sg n mode x
  | .int sg n, .fp g => convIF (readInt sg n x) g mode
  | .int sg n, .int sg' n' => convII (readInt sg n x) sg' n'

/-- Results of narrower or wider width side by side, each governed by the lane of the wider side; bits above them are
zero (R167; 09 R187). -/
def convRes (l : BitVec 128) (zi : Bool) (wide wd : Nat) (els : List El) : Vec × Vec :=
  let act (j : Nat) : Bool := activeElem l wide j
  let mask := packElems wd (els.zipIdx.map fun e => if zi || act e.2 then 2 ^ wd - 1 else 0)
  let top := wd * els.length
  let x := packElems wd (els.zipIdx.map fun e => if act e.2 then e.1.x else 0)
  (BitVec.ofNat 4096 (mask + (2 ^ 4096 - 2 ^ top)), BitVec.ofNat 4096 x)

/-! ### Compare, reduce, masks -/

/-- A lane mask from the tests of elements of width `w`, with the bits it writes (R168). -/
def cmpMask (l : BitVec 128) (zi : Bool) (w : Nat) (t : Nat → Bool) : BitVec 128 × BitVec 128 :=
  let gov (i : Nat) : Bool := l.getLsbD (if w = 64 then i / 2 * 2 else i)
  let val (i : Nat) : Bool := if w = 64 then t (i / 2) else if w = 16 then t (2 * i) && t (2 * i + 1) else t i
  let m := (List.range 128).map fun i => if zi || gov i then 1 else 0
  let x := (List.range 128).map fun i => if gov i && val i then 1 else 0
  (BitVec.ofNat 128 (packElems 1 m), BitVec.ofNat 128 (packElems 1 x))

/-- An FP comparison by its condition (R168). -/
def fpCond (cond : Nat) (x y : FVal) : Bool :=
  let un := x == .nan || y == .nan
  let eq := match x, y with
    | .num a m e, .num b n g => (m = 0 && n = 0) || (a == b && !(magLt m e n g) && !(magLt n g m e))
    | u, v => u == v
  let lt := fvLt x y && !(eq)
  match cond with
  | 0 => !un && eq
  | 1 => un || !eq
  | 2 => !un && lt
  | 3 => !un && (lt || eq)
  | _ => un

/-- An integer comparison by its condition (R168). -/
def intCond (cond : Nat) (x y : Int) : Bool :=
  match cond with
  | 0 => x == y
  | 1 => x != y
  | 2 => decide (x < y)
  | _ => decide (x ≤ y)

/-- The FP steps of VRED and VSCAN: identity and combination (R171). -/
def fpRed (f : Fmt) (op : Nat) (mode : RMode) : Nat × (Nat → Nat → El) :=
  match op with
  | 0 => (f.zero true, fun x y => elFp f (f.addV mode (f.decode x) (f.decode y)))
  | 1 => (f.infPat true, fun x y => elFp f (fpMinMax f true x y, 0))
  | _ => (f.infPat false, fun x y => elFp f (fpMinMax f false x y, 0))

/-- The integer steps of VRED and VSCAN (R171). -/
def intRed (w : Nat) (sg sat : Bool) (op : Nat) : Nat × (Nat → Nat → El) :=
  let rd := readInt sg w
  match op with
  | 3 => (0, fun x y => intEl sg sat w (rd x + rd y))
  | 4 => (if sg then 2 ^ (w - 1) else 0, fun x y => plainEl (if rd x < rd y then y else x))
  | 5 => (if sg then 2 ^ (w - 1) - 1 else 2 ^ w - 1, fun x y => plainEl (if rd y < rd x then y else x))
  | 6 => (2 ^ w - 1, fun x y => plainEl (x &&& y))
  | 7 => (0, fun x y => plainEl (x ||| y))
  | _ => (0, fun x y => plainEl (x ^^^ y))

/-- One level of the tree: neighbours combined (R171). -/
def pairLevel (k : Nat → Nat → El) : List Nat → List El
  | x :: y :: r => k x y :: pairLevel k r
  | [x] => [plainEl x]
  | [] => []

/-- The tree of VRED: the last result, with the flags and clamps of every step (R171). -/
def treeRed (k : Nat → Nat → El) : Nat → List Nat → Nat → List Nat → Nat × Nat × List Nat
  | 0, xs, fl, ex => (xs.headD 0, fl, ex)
  | n + 1, xs, fl, ex =>
    let ys := pairLevel k xs
    treeRed k n (ys.map (·.x)) (ys.foldl (fun a y => a ||| y.flags) fl) (ex ++ (ys.flatMap (·.exc)).filter (· == 0))

/-- The scan of VSCAN: every y with the flags and clamps of its step (R171). -/
def scanRed (k : Nat → Nat → El) (y : Nat) : List Nat → List El
  | [] => []
  | x :: r => let e := k y x; e :: scanRed k e.x r

/-- Whether a pattern is a NaN of a format, where there is one. -/
def nanOf (f : Option Fmt) (x : Nat) : Bool :=
  match f with
  | some g => g.decode x == .nan
  | none => false

/-- A first element of a scan as the format reads it (R155). -/
def readFirst (f : Option Fmt) (x : Nat) : Nat :=
  match f with
  | some g => (g.ofV .rne (g.decode x)).1
  | none => x

/-- Whether the operation of VRED and VSCAN is floating. -/
def redFp (b : BitVec 5) (m : BitVec 2) : Option Fmt := if b.toNat ≤ 2 then some (fpType m) else none

/-- Width, identity and step of a reduction (R171). -/
def redStep (b : BitVec 5) (m : BitVec 2) (mode : RMode) (sat : Bool) : Nat × Nat × (Nat → Nat → El) :=
  if b.toNat ≤ 2 then ((fpType m).width, fpRed (fpType m) b.toNat mode)
  else ((intType m).1, intRed (intType m).1 (intType m).2 sat b.toNat)

/-- The elements that enter a reduction: the identity for inactive ones. -/
def redInputs (v : Vec) (l : BitVec 128) (w ident : Nat) : List Nat :=
  (List.range (4096 / w)).map fun j => if activeElem l w j then elem v w j else ident

/-- A lane-mask operation (R172). -/
def State.lmOp (s : State) (h : Head) (d : BitVec 5) (touch : List RegId) (op : Nat) (f : Ctx → BitVec 128) :
    Host.Outcome State Fault Refusal :=
  s.vslot h (.l d.toNat :: touch) (.late 2 false) fun c =>
    [s.vecAct 2 .none false op (.l d.toNat (BitVec.allOnes 128) (f c)) []]

/-- A V slot with a scalar destination (R170, R172). -/
def State.vScalar (s : State) (h : Head) (d : BitVec 5) (touch : List RegId) (f : Ctx → Word) :
    Host.Outcome State Fault Refusal :=
  s.vslot h (rS d :: touch) (.late 2 false) fun c =>
    [.vec 2 false ⟨.s d.toNat (f c), [], none, s.iss.unit, 0, [], none⟩]

/-- Results at the places of active elements, read from a list in order; the rest zero (R170 VCOMP). -/
def compress (v : Vec) (l : BitVec 128) (w : Nat) : Vec :=
  BitVec.ofNat 4096 (packElems w ((activeOf l w).map fun j => elem v w j))

/-- The signature of a vector (R173). -/
def vsigOf (v : Vec) : Word := sigFolds 0 ((List.range 64).map fun i => BitVec.ofNat 64 (elem v 64 i))

/-- VADD (R163). -/
def execVadd (h : Head) (d a b : BitVec 5) (m : BitVec 2) (md : Option (BitVec 28)) (s : State) :
    Host.Outcome State Fault Refusal :=
  s.vFp h d a b m md 1 4 fun f r x y _ => f.addV r x y

/-- VSUB (R163). -/
def execVsub (h : Head) (d a b : BitVec 5) (m : BitVec 2) (md : Option (BitVec 28)) (s : State) :
    Host.Outcome State Fault Refusal :=
  s.vFp h d a b m md 2 4 fun f r x y _ => f.addV r x (negV y)

/-- VMUL (R163). -/
def execVmul (h : Head) (d a b : BitVec 5) (m : BitVec 2) (md : Option (BitVec 28)) (s : State) :
    Host.Outcome State Fault Refusal :=
  s.vFp h d a b m md 3 4 fun f r x y _ => withFlags (mulV x y).2 (f.ofV r (mulV x y).1)

/-- VFMA (R163). -/
def execVfma (h : Head) (d a b : BitVec 5) (m : BitVec 2) (md : Option (BitVec 28)) (s : State) :
    Host.Outcome State Fault Refusal :=
  s.vFp h d a b m md 4 4 fun f r x y z => f.fmaV r x y z

/-- VFMS (R163). -/
def execVfms (h : Head) (d a b : BitVec 5) (m : BitVec 2) (md : Option (BitVec 28)) (s : State) :
    Host.Outcome State Fault Refusal :=
  s.vFp h d a b m md 5 4 fun f r x y z => f.fmaV r x y (negV z)

/-- VFNMA (R163). -/
def execVfnma (h : Head) (d a b : BitVec 5) (m : BitVec 2) (md : Option (BitVec 28)) (s : State) :
    Host.Outcome State Fault Refusal :=
  s.vFp h d a b m md 6 4 fun f r x y z => f.fmaV r (negV x) y z

/-- VMIN (R163). -/
def execVmin (h : Head) (d a b : BitVec 5) (m : BitVec 2) (md : Option (BitVec 28)) (s : State) :
    Host.Outcome State Fault Refusal :=
  let f := fpType m
  s.vElems h d [rV a, rV b] md 7 f.width 2 true fun c j =>
    elFp f (fpMinMax f false (c.ve a f.width j) (c.ve b f.width j), 0)

/-- VMAX (R163). -/
def execVmax (h : Head) (d a b : BitVec 5) (m : BitVec 2) (md : Option (BitVec 28)) (s : State) :
    Host.Outcome State Fault Refusal :=
  let f := fpType m
  s.vElems h d [rV a, rV b] md 8 f.width 2 true fun c j =>
    elFp f (fpMinMax f true (c.ve a f.width j) (c.ve b f.width j), 0)

/-- VABS (R163). -/
def execVabs (h : Head) (d a : BitVec 5) (m : BitVec 2) (md : Option (BitVec 28)) (s : State) :
    Host.Outcome State Fault Refusal :=
  s.vFp1 h d a m md 9 2 fun f _ x => f.ofV .rne (absV x)

/-- VNEG (R163). -/
def execVneg (h : Head) (d a : BitVec 5) (m : BitVec 2) (md : Option (BitVec 28)) (s : State) :
    Host.Outcome State Fault Refusal :=
  s.vFp1 h d a m md 10 2 fun f _ x => f.ofV .rne (negV x)

/-- VDIV (R163). -/
def execVdiv (h : Head) (d a b : BitVec 5) (m : BitVec 2) (md : Option (BitVec 28)) (s : State) :
    Host.Outcome State Fault Refusal :=
  let f := fpType m
  s.vIlk h d [rV a, rV b] md 11 f.width fun c j =>
    elFp f (f.divV (c.rmode (Mod.of md)) (f.decode (c.ve a f.width j)) (f.decode (c.ve b f.width j)))

/-- VSQRT (R163, R164). -/
def execVsqrt (h : Head) (d a : BitVec 5) (m : BitVec 2) (md : Option (BitVec 28)) (s : State) :
    Host.Outcome State Fault Refusal :=
  s.vFpIlk h d a m md 12 fun f r x => f.sqrtV r x

/-- VRCP (R163, R164). -/
def execVrcp (h : Head) (d a : BitVec 5) (m : BitVec 2) (md : Option (BitVec 28)) (s : State) :
    Host.Outcome State Fault Refusal :=
  s.vFpIlk h d a m md 13 fun f r x => f.divV r oneV x

/-- VRSQ (R163, R164). -/
def execVrsq (h : Head) (d a : BitVec 5) (m : BitVec 2) (md : Option (BitVec 28)) (s : State) :
    Host.Outcome State Fault Refusal :=
  s.vFpIlk h d a m md 14 fun f r x => f.rsqV r x

/-- VEXP (R163, R164). -/
def execVexp (h : Head) (d a : BitVec 5) (m : BitVec 2) (md : Option (BitVec 28)) (s : State) :
    Host.Outcome State Fault Refusal :=
  s.vFpIlk h d a m md 15 fun f r x => f.expV r x

/-- VLOG (R163, R164). -/
def execVlog (h : Head) (d a : BitVec 5) (m : BitVec 2) (md : Option (BitVec 28)) (s : State) :
    Host.Outcome State Fault Refusal :=
  s.vFpIlk h d a m md 16 fun f r x => f.logV r x

/-- VTANH (R163, R164). -/
def execVtanh (h : Head) (d a : BitVec 5) (m : BitVec 2) (md : Option (BitVec 28)) (s : State) :
    Host.Outcome State Fault Refusal :=
  s.vFpIlk h d a m md 17 fun f r x => f.tanhV r x

/-- VCVT (R166, R167). -/
def execVcvt (h : Head) (d a : BitVec 5) (x : BitVec 4) (p : BitVec 2) (r : BitVec 1) (md : Option (BitVec 28)) (s : State) :
    Host.Outcome State Fault Refusal :=
  let m := Mod.of md
  let src := if r.toNat = 0 then xFmt x.toNat else pFmt p.toNat
  let dst := if r.toNat = 0 then pFmt p.toNat else xFmt x.toNat
  let wide := max src.width dst.width
  s.vslot h [rV d, rV a, m.reg] (.late 4 false) fun c =>
    let els := elsOf wide (c.lanes m) fun j => convert src dst (c.rmode m) (c.ve a src.width j)
    let res := convRes (c.lanes m) m.zi wide dst.width els
    [s.vecAct 4 .residue (c.idle m) 18 (.v d.toNat res.1 res.2) els]

/-- VCMP (R168). -/
def execVcmp (h : Head) (cd : BitVec 3) (ft : BitVec 1) (a b : BitVec 5) (m : BitVec 2) (md : BitVec 28) (s : State) :
    Host.Outcome State Fault Refusal :=
  let mo := Mod.of (some md)
  s.vslot h [.l mo.fm, rV a, rV b, mo.reg] (.late 2 false) fun c =>
    let f := fpType m
    let (w, sg) := intType m
    let r := if ft.toNat = 1 then
        cmpMask (c.lanes mo) mo.zi f.width fun j => fpCond cd.toNat (f.decode (c.ve a f.width j)) (f.decode (c.ve b f.width j))
      else cmpMask (c.lanes mo) mo.zi w fun j => intCond cd.toNat (readInt sg w (c.ve a w j)) (readInt sg w (c.ve b w j))
    [s.vecAct 2 .shadow (c.idle mo) 19 (.l mo.fm r.1 r.2) []]

/-- VSEL (R169). -/
def execVsel (h : Head) (d a b : BitVec 5) (md : Option (BitVec 28)) (s : State) : Host.Outcome State Fault Refusal :=
  let m := Mod.of md
  s.vslot h [rV d, rV a, rV b, m.reg] (.late 2 false) fun c =>
    let x := packElems 32 ((List.range 128).map fun i => if (c.lanes m).getLsbD i then c.ve a 32 i else c.ve b 32 i)
    [s.vecAct 2 .none false 20 (.v d.toNat (BitVec.allOnes 4096) (BitVec.ofNat 4096 x)) []]

/-- VIADD (R165). -/
def execViadd (h : Head) (d a b : BitVec 5) (m : BitVec 2) (md : Option (BitVec 28)) (s : State) :
    Host.Outcome State Fault Refusal :=
  s.vInt h d a b m md 21 fun w sg sat x y => intEl sg sat w (readInt sg w x + readInt sg w y)

/-- VISUB (R165). -/
def execVisub (h : Head) (d a b : BitVec 5) (m : BitVec 2) (md : Option (BitVec 28)) (s : State) :
    Host.Outcome State Fault Refusal :=
  s.vInt h d a b m md 22 fun w sg sat x y => intEl sg sat w (readInt sg w x - readInt sg w y)

/-- VIMUL (R165). -/
def execVimul (h : Head) (d a b : BitVec 5) (m : BitVec 2) (md : Option (BitVec 28)) (s : State) :
    Host.Outcome State Fault Refusal :=
  s.vInt h d a b m md 23 fun w sg sat x y => intEl sg sat w (readInt sg w x * readInt sg w y)

/-- VIMULH (R165). -/
def execVimulh (h : Head) (d a b : BitVec 5) (m : BitVec 2) (md : Option (BitVec 28)) (s : State) :
    Host.Outcome State Fault Refusal :=
  s.vInt h d a b m md 24 fun w sg _ x y => plainEl (intBits (readInt sg w x * readInt sg w y / 2 ^ w) w)

/-- VAND (R165). -/
def execVand (h : Head) (d a b : BitVec 5) (md : Option (BitVec 28)) (s : State) : Host.Outcome State Fault Refusal :=
  s.vBit h d a b md 25 fun x y => x &&& y

/-- VOR (R165). -/
def execVor (h : Head) (d a b : BitVec 5) (md : Option (BitVec 28)) (s : State) : Host.Outcome State Fault Refusal :=
  s.vBit h d a b md 26 fun x y => x ||| y

/-- VXOR (R165). -/
def execVxor (h : Head) (d a b : BitVec 5) (md : Option (BitVec 28)) (s : State) : Host.Outcome State Fault Refusal :=
  s.vBit h d a b md 27 fun x y => x ^^^ y

/-- VSHL (R165). -/
def execVshl (h : Head) (d a b : BitVec 5) (m : BitVec 2) (md : Option (BitVec 28)) (s : State) :
    Host.Outcome State Fault Refusal :=
  s.vInt h d a b m md 28 fun w _ _ x y => plainEl (x * 2 ^ (y % w) % 2 ^ w)

/-- VSHR (R165). -/
def execVshr (h : Head) (d a b : BitVec 5) (m : BitVec 2) (md : Option (BitVec 28)) (s : State) :
    Host.Outcome State Fault Refusal :=
  s.vInt h d a b m md 29 fun w _ _ x y => plainEl (x / 2 ^ (y % w))

/-- VSRA (R165). -/
def execVsra (h : Head) (d a b : BitVec 5) (m : BitVec 2) (md : Option (BitVec 28)) (s : State) :
    Host.Outcome State Fault Refusal :=
  s.vInt h d a b m md 30 fun w _ _ x y => plainEl (intBits (toSigned x w / 2 ^ (y % w)) w)

/-- VIMIN (R165). -/
def execVimin (h : Head) (d a b : BitVec 5) (m : BitVec 2) (md : Option (BitVec 28)) (s : State) :
    Host.Outcome State Fault Refusal :=
  s.vInt h d a b m md 31 fun w sg _ x y => plainEl (if readInt sg w y < readInt sg w x then y else x)

/-- VIMAX (R165). -/
def execVimax (h : Head) (d a b : BitVec 5) (m : BitVec 2) (md : Option (BitVec 28)) (s : State) :
    Host.Outcome State Fault Refusal :=
  s.vInt h d a b m md 32 fun w sg _ x y => plainEl (if readInt sg w x < readInt sg w y then y else x)

/-- VPOPC (R165). -/
def execVpopc (h : Head) (d a : BitVec 5) (m : BitVec 2) (md : Option (BitVec 28)) (s : State) :
    Host.Outcome State Fault Refusal :=
  let w := (intType m).1
  s.vElems h d [rV a] md 33 w 2 true fun c j => plainEl (popNat (c.ve a w j) w)

/-- VCLZ (R165). -/
def execVclz (h : Head) (d a : BitVec 5) (m : BitVec 2) (md : Option (BitVec 28)) (s : State) :
    Host.Outcome State Fault Refusal :=
  let w := (intType m).1
  s.vElems h d [rV a] md 34 w 2 true fun c j => plainEl (clzNat (c.ve a w j) w)

/-- VPERM (R170). -/
def execVperm (h : Head) (d a b : BitVec 5) (m : BitVec 2) (md : Option (BitVec 28)) (s : State) :
    Host.Outcome State Fault Refusal :=
  let w := widthType m
  s.vMove h d [rV a, rV b] md 35 w 3 fun c j => c.ve a w (c.ve b w j % (4096 / w))

/-- VBCAST (R170). -/
def execVbcast (h : Head) (d a : BitVec 5) (m : BitVec 2) (md : Option (BitVec 28)) (s : State) :
    Host.Outcome State Fault Refusal :=
  let w := widthType m
  s.vMove h d [rS a] md 36 w 2 fun c _ => (c.s a).toNat % 2 ^ w

/-- VEXT (R170). -/
def execVext (h : Head) (d a b : BitVec 5) (m : BitVec 2) (s : State) : Host.Outcome State Fault Refusal :=
  let w := if m.toNat = 1 then 64 else 32
  s.vScalar h d [rV a, rS b] fun c =>
    let x := c.ve a w ((c.s b).toNat % (4096 / w))
    if m.toNat = 2 then signExt x 32 else BitVec.ofNat 64 x

/-- VINS (R170). -/
def execVins (h : Head) (d a b : BitVec 5) (m : BitVec 2) (s : State) : Host.Outcome State Fault Refusal :=
  let w := widthType m
  s.vslot h [rV d, rS a, rS b] (.late 2 false) fun c =>
    let j := (c.s b).toNat % (4096 / w)
    [s.vecAct 2 .none false 38 (.v d.toNat (BitVec.ofNat 4096 ((2 ^ w - 1) * 2 ^ (w * j)))
      (BitVec.ofNat 4096 ((c.s a).toNat % 2 ^ w * 2 ^ (w * j)))) []]

/-- VIOTA (R170). -/
def execViota (h : Head) (d a b : BitVec 5) (m : BitVec 2) (md : Option (BitVec 28)) (s : State) :
    Host.Outcome State Fault Refusal :=
  let w := widthType m
  s.vMove h d [rS a, rS b] md 39 w 2 fun c j => ((c.s a).toNat + j * (c.s b).toNat) % 2 ^ w

/-- VSLIDE (R170). -/
def execVslide (h : Head) (d a : BitVec 5) (i : BitVec 7) (md : Option (BitVec 28)) (s : State) :
    Host.Outcome State Fault Refusal :=
  s.vMove h d [rV a] md 40 32 3 fun c j =>
    if j + i.toNat < 128 then c.ve a 32 (j + i.toNat) else c.ve d 32 (j + i.toNat - 128)

/-- The check of VRED and VSCAN: a residue for the sum of integers (R171, R174). -/
def redCheck (b : BitVec 5) : CheckKind := if b.toNat = 3 then .residue else .shadow

/-- VRED (R171). -/
def execVred (h : Head) (d a b : BitVec 5) (m : BitVec 2) (md : Option (BitVec 28)) (s : State) :
    Host.Outcome State Fault Refusal :=
  let mo := Mod.of md
  s.vslot h [rV d, rV a, mo.reg] (.late 8 false) fun c =>
    let (w, ident, k) := redStep b m (c.rmode mo) mo.sat
    let (x, fl, ex) := treeRed k (Nat.log2 (4096 / w)) (redInputs (c.r.rv a.toNat) (c.lanes mo) w ident) 0 []
    [s.vecAct 8 (redCheck b) (c.idle mo) 41 (.v d.toNat (BitVec.allOnes 4096) (BitVec.ofNat 4096 x))
      [⟨x, fl, ex ++ if nanOf (redFp b m) x then [2] else []⟩]]

/-- VSCAN (R171). -/
def execVscan (h : Head) (d a b : BitVec 5) (m : BitVec 2) (md : Option (BitVec 28)) (s : State) :
    Host.Outcome State Fault Refusal :=
  let mo := Mod.of md
  s.vslot h [rV d, rV a, mo.reg] (.late 8 false) fun c =>
    let (w, ident, k) := redStep b m (c.rmode mo) mo.sat
    let l := c.lanes mo
    let els := match redInputs (c.r.rv a.toNat) l w ident with
      | [] => []
      | x :: r => let y := readFirst (redFp b m) x; plainEl y :: scanRed k y r
    let res := elemRes w l mo.zi els
    -- a NaN is counted where it is written, flags and clamps at every step
    let count := els.zipIdx.map fun e => (⟨e.1.x, e.1.flags,
      e.1.exc.filter (· == 0) ++ if nanOf (redFp b m) e.1.x && activeElem l w e.2 then [2] else []⟩ : El)
    [s.vecAct 8 (redCheck b) (c.idle mo) 42 (.v d.toNat res.1 res.2) count]

/-- VMOV (R170). -/
def execVmov (h : Head) (d a : BitVec 5) (m : BitVec 2) (md : Option (BitVec 28)) (s : State) :
    Host.Outcome State Fault Refusal :=
  let mo := Mod.of md
  match m.toNat with
  | 1 => s.vMove h d [.q a.toNat] md 43 32 2 fun c j => elem (c.r.rq a.toNat) 32 j
  | 2 =>
    s.vslot h [.q d.toNat, rV a, mo.reg] (.late 2 false) fun c =>
      let els := elsOf 32 (c.lanes mo) fun j => plainEl (c.ve a 32 j)
      let r := elemRes 32 (c.lanes mo) mo.zi els
      [s.vecAct 2 .none false 43 (.q d.toNat r.1 r.2) els]
  | _ => s.vMove h d [rV a] md 43 32 2 fun c j => c.ve a 32 j

/-- VCOMP (R170). -/
def execVcomp (h : Head) (d a : BitVec 5) (m : BitVec 2) (md : Option (BitVec 28)) (s : State) :
    Host.Outcome State Fault Refusal :=
  let mo := Mod.of md
  s.vslot h [rV d, rV a, mo.reg] (.late 3 false) fun c =>
    [s.vecAct 3 .none false 44 (.v d.toNat (BitVec.allOnes 4096) (compress (c.r.rv a.toNat) (c.lanes mo) (widthType m))) []]

/-- LMAND (R172). -/
def execLmand (h : Head) (d a b : BitVec 5) (s : State) : Host.Outcome State Fault Refusal :=
  s.lmOp h d [.l a.toNat, .l b.toNat] 45 fun c => c.r.rl a.toNat &&& c.r.rl b.toNat

/-- LMOR (R172). -/
def execLmor (h : Head) (d a b : BitVec 5) (s : State) : Host.Outcome State Fault Refusal :=
  s.lmOp h d [.l a.toNat, .l b.toNat] 46 fun c => c.r.rl a.toNat ||| c.r.rl b.toNat

/-- LMNOT (R172). -/
def execLmnot (h : Head) (d a : BitVec 5) (s : State) : Host.Outcome State Fault Refusal :=
  s.lmOp h d [.l a.toNat] 47 fun c => ~~~c.r.rl a.toNat

/-- LMPOP (R172). -/
def execLmpop (h : Head) (d a : BitVec 5) (s : State) : Host.Outcome State Fault Refusal :=
  s.vScalar h d [.l a.toNat] fun c => BitVec.ofNat 64 (popNat (c.r.rl a.toNat).toNat 128)

/-- VSIG (R173). -/
def execVsig (h : Head) (d a : BitVec 5) (s : State) : Host.Outcome State Fault Refusal :=
  s.vslot h [rS d, rV a] (.late 2 false) fun c =>
    let g := vsigOf (c.r.rv a.toNat)
    [.vec 2 false ⟨.s d.toNat g, [g], none, s.iss.unit, 0, [], none⟩]

end Sys2Proof.Machine
end

