-- ==== Sys2Proof/Machine/LevelIndex.lean ====
section
/-! DEFINITION. The level-index instructions and their reference arithmetic (09). -/

namespace Sys2Proof.Machine

/-! ### fix48 arithmetic (R182): numbers in units of 2^-48 -/

/-- One. -/
def fixOne : Int := 2 ^ 48

/-- MAXQ. -/
def maxQ : Int := 2 ^ 63 - 1

/-- Saturation to ±MAXQ. -/
def satQ (x : Int) : Int := max (-maxQ) (min maxQ x)

/-- n / d rounded to the nearest integer, ties to even, for d > 0. -/
def roundDiv (n d : Int) : Int :=
  let q := n / d
  let r := 2 * (n % d)
  if r < d then q else if d < r then q + 1 else if q % 2 = 0 then q else q + 1

/-- A product. -/
def fixMul (a b : Int) : Int := satQ (roundDiv (a * b) fixOne)

/-- A quotient; by zero, ±MAXQ or 0. -/
def fixDiv (a b : Int) : Int :=
  if b = 0 then (if 0 < a then maxQ else if a < 0 then -maxQ else 0)
  else if 0 < b then satQ (roundDiv (a * fixOne) b) else satQ (roundDiv (-a * fixOne) (-b))

/-- The first precision at which two bounds in units of 2^-w round alike. -/
def agreeAt (g : Nat → Int × Int) : List Nat → Int
  | [] => 0
  | w :: r =>
    let (lo, hi) := g w
    let u : Int := 2 ^ (w - 48)
    let a := (lo + u / 2) / u
    if a = (hi + u / 2) / u then a else agreeAt g r

/-- m * 2^e in units of 2^-w, cut. -/
def unitsOf (w : Nat) (m : Nat) (e : Int) : Int :=
  let k : Int := e + w
  if 0 ≤ k then (m * 2 ^ k.toNat : Nat) else (m / 2 ^ (-k).toNat : Nat)

/-- TEXP. -/
def texp (x : Int) : Int :=
  if x = 0 then fixOne
  else if 11 * fixOne < x then maxQ
  else if x < -40 * fixOne then 0
  else satQ (agreeAt (fun w => let (lo, hi, e) := expIv w ⟨x, -48⟩; (unitsOf w lo e, unitsOf w hi e + 1)) precisions)

/-- TLN of a positive m * 2^e. -/
def tlnOf (m : Nat) (e : Int) : Int := if isOne m e then 0 else satQ (agreeAt (fun w => lnIv w m e) precisions)

/-- TLN of a fix48 value. -/
def tln (x : Int) : Int := if x ≤ 0 then -maxQ else tlnOf x.toNat (-48)

/-- Logarithms taken until a value lies below 1, with the level raised (R184). -/
def levelsDown : Nat → Nat → Int → Nat × Int
  | 0, lz, v => (lz, v)
  | n + 1, lz, v => if v < fixOne then (lz, v) else levelsDown n (lz + 1) (tln v)

/-! ### Words -/

/-- A level-index width: fraction bits (R177). -/
structure LxFmt where
  /-- F: 27 or 11. -/
  f : Nat
  deriving DecidableEq, Repr

/-- The format of a type code (R180). -/
def lxFmt (m : Nat) : LxFmt := if m = 0 then ⟨27⟩ else ⟨11⟩

/-- Element width. -/
def LxFmt.width (t : LxFmt) : Nat := t.f + 5

/-- The NaR word. -/
def LxFmt.nar (t : LxFmt) : Nat := 2 ^ (t.f + 4)

/-- The word of one, of a sign. -/
def LxFmt.one (t : LxFmt) (s : Bool) : Nat := 2 ^ t.f + s.toNat * 2 ^ (t.f + 4)

/-- A decoded operand (R183). -/
inductive LxVal where
  /-- Zero. -/
  | zero
  /-- NaR or non-canonical. -/
  | nar
  /-- Sign, reciprocal, level, fraction as fix48. -/
  | val (s rc : Bool) (l : Nat) (f : Int)
  deriving DecidableEq, Repr

/-- Decoding of an operand word (R178, R183). -/
def LxFmt.decode (t : LxFmt) (x : Nat) : LxVal :=
  let s := bits x (t.f + 4) 1 == 1
  let rc := bits x (t.f + 3) 1 == 1
  let l := bits x t.f 3
  let f := bits x 0 t.f
  if x % 2 ^ t.width = 0 then .zero
  else if l = 0 then .nar
  else .val s (rc && !(l = 1 && f = 0)) l (f * 2 ^ (48 - t.f))

/-- The magnitude key of R179, in units of 2^-48. -/
def lxKey (rc : Bool) (l : Nat) (f : Int) : Int := if rc then -((l : Int) * fixOne + f) else (l : Int) * fixOne + f

/-- The word of a value with no rounding to be made (R186). -/
def LxFmt.encode (t : LxFmt) (s rc : Bool) (l q : Nat) : Nat := q + l * 2 ^ t.f + rc.toNat * 2 ^ (t.f + 3) + s.toNat * 2 ^ (t.f + 4)

/-- An LX result: what an element gives, its level where it is a value, and whether it passed through. -/
structure LxRes where
  /-- Pattern, flags, counts. -/
  el : El
  /-- Level of a value that was computed; none for zero, NaR and pass-through results. -/
  lev : Option Nat
  deriving DecidableEq, Repr

/-- A NaR result (R186, R187). -/
def LxFmt.narRes (t : LxFmt) (fl : Nat) : LxRes := ⟨⟨t.nar, fl, [2]⟩, none⟩

/-- A zero result. -/
def lxZero : LxRes := ⟨⟨0, 0, []⟩, none⟩

/-- A result triple written with a sign (R185). The rounding sets no NX, the model's choice: the rules of level-index arithmetic and
of the conversion to it name none (DESIGN CHOICE, log 65; 08 R158). -/
def LxFmt.write (t : LxFmt) (s rc : Bool) (l : Nat) (f : Int) : LxRes :=
  let q0 := (roundDiv f (2 ^ (48 - t.f))).toNat
  let (l1, q) := if q0 = 2 ^ t.f then (l + 1, 0) else (l, q0)
  if 7 < l1 then ⟨⟨t.encode s rc 7 (2 ^ t.f - 1), flagCEIL, [3]⟩, some 7⟩
  else ⟨⟨t.encode s (rc && !(l1 = 1 && q = 0)) l1 q, 0, []⟩, some l1⟩

/-! ### The index sum (R184) -/

/-- The terms a[n-1], …, a[0] of an operand of level n and fraction f. -/
def lxTerms (f : Int) (n : Nat) : List Int := go n (texp (-f))
where
  /-- `n` terms, the first given. -/
  go : Nat → Int → List Int
    | 0, _ => []
    | n + 1, a => a :: go n (texp (-(fixDiv fixOne a)))

/-- a[j] of terms listed from the highest. -/
def termAt (l : List Int) (j : Nat) : Int := l.getD (l.length - 1 - j) 0

/-- b of step S3 for plain operands, from level `j` down to 1. -/
def ratioPlain (a : List Int) : Nat → Int → Int
  | 0, b => b
  | j + 1, b => ratioPlain a j (texp (fixDiv (b - fixOne) (termAt a (j + 1))))

/-- b of step S3 for reciprocal operands. -/
def ratioRec (a : List Int) : Nat → Int → Int
  | 0, b => b
  | j + 1, b => ratioRec a j (texp (fixDiv (b - fixOne) (fixMul (termAt a (j + 1)) b)))

/-- Step S5 from level `j`, with `n` levels to go: a result, or L at the top. -/
def descend (a : List Int) (j : Nat) (l : Int) : Nat → (Nat × Int) ⊕ Int
  | 0 => .inr l
  | n + 1 =>
    let aj := termAt a j
    let c := fixOne + fixMul aj l
    if c < aj then (if c ≤ 0 then .inl (j, 0) else .inl (j, fixDiv c aj)) else descend a (j + 1) (tln c) n

/-- The index sum of x and y, x of the larger or equal key: none for ZERO, else level, fraction and kind. -/
def indexSum (lx : Nat) (fx : Int) (kx : Bool) (ly : Nat) (fy : Int) (ky : Bool) (plus outer : Bool) :
    Option (Nat × Int × Bool) :=
  let sg (v : Int) : Int := if plus then v else -v
  if lx = 0 then
    let g := fx + sg fy
    if g = 0 then none else let (l, v) := levelsDown 8 0 g; some (l, v, false)
  else
    let a := lxTerms fx lx
    let ay := if ky then lxTerms fy ly else []
    let b0 := if ly = 0 then fixMul fy (termAt a 0)
      else if !kx && !ky then ratioPlain a (ly - 1) (fixMul (termAt a (ly - 1)) (texp fy))
      else if !kx then fixMul (termAt a 0) (termAt ay 0)
      else ratioRec a (lx - 1) (fixDiv (termAt ay (lx - 1)) (termAt a (lx - 1)))
    let d := fixOne + sg b0
    if d ≤ 0 then none
    else
      let l0 := if kx then -(tln d) else tln d
      let a0 := termAt a 0
      let lam := if 0 < a0 then tln a0 else -maxQ
      if l0 < lam then
        if !outer then some (0, fixDiv d a0, false)
        else let (l, v) := levelsDown 8 1 (lam - l0); some (l, v, !kx)
      else
        match descend a 1 l0 (lx - 1) with
        | .inl (j, f) => some (j, f, kx)
        | .inr l1 =>
          let (l, v) := levelsDown 8 lx (max 0 (fx + l1))
          some (l, v, kx)

/-- LXADD of two words, or LXSUB (R186). -/
def LxFmt.add (t : LxFmt) (sub : Bool) (x y : Nat) : LxRes :=
  let pass (s rc : Bool) (l : Nat) (f : Int) : LxRes := ⟨⟨t.encode s rc l (f / 2 ^ (48 - t.f)).toNat, 0, []⟩, none⟩
  match t.decode x, t.decode y with
  | .nar, _ => t.narRes 0
  | _, .nar => t.narRes 0
  | .zero, .zero => lxZero
  | .zero, .val s rc l f => pass (s != sub) rc l f
  | .val s rc l f, .zero => pass s rc l f
  | .val sx rx lx fx, .val sy0 ry ly fy =>
    let sy := sy0 != sub
    let kx := lxKey rx lx fx
    let ky := lxKey ry ly fy
    if kx = ky && sx != sy then lxZero
    else if ky ≤ kx then
      (match indexSum lx fx rx ly fy ry (sx == sy) true with
        | none => lxZero
        | some (l, f, rc) => t.write sx rc l f)
    else
      match indexSum ly fy ry lx fx rx (sx == sy) true with
      | none => lxZero
      | some (l, f, rc) => t.write sy rc l f

/-- LXMUL of two words, or LXDIV (R187). -/
def LxFmt.mul (t : LxFmt) (div : Bool) (x y : Nat) : LxRes :=
  match t.decode x, t.decode y with
  | .nar, _ => t.narRes 0
  | _, .nar => t.narRes 0
  | .zero, .zero => if div then t.narRes flagNV else lxZero
  | .val .., .zero => if div then t.narRes flagDZ else lxZero
  | .zero, .val .. => lxZero
  | .val sx rx lx fx, .val sy ry ly fy =>
    let s := sx != sy
    let px := !rx
    let py := (!ry) != div
    let gx := ((lx - 1 : Nat) : Int) * fixOne + fx
    let gy := ((ly - 1 : Nat) : Int) * fixOne + fy
    let one : LxRes := ⟨⟨t.one s, 0, []⟩, some 1⟩
    if gx = gy && px != py then one
    else
      let r := if gy ≤ gx then indexSum (lx - 1) fx false (ly - 1) fy false (px == py) false
        else indexSum (ly - 1) fy false (lx - 1) fx false (px == py) false
      match r with
      | none => one
      | some (l, f, _) => t.write s (!(if gy ≤ gx then px else py)) (l + 1) f

/-- The level of an operand word; 0 where it is no value. -/
def LxFmt.level (t : LxFmt) (x : Nat) : Nat :=
  match t.decode x with
  | .val _ _ l _ => l
  | _ => 0

/-- The level of the operand of larger magnitude (R188). -/
def LxFmt.largerLevel (t : LxFmt) (x y : Nat) : Nat :=
  match t.decode x, t.decode y with
  | .val _ rx lx fx, .val _ ry ly fy => if lxKey ry ly fy ≤ lxKey rx lx fx then lx else ly
  | .val _ _ l _, _ => l
  | _, .val _ _ l _ => l
  | _, _ => 0

/-- A result with the flag of a level crossing, judged against a level (R188). -/
def LxRes.crossed (r : LxRes) (l : Nat) : El × Bool :=
  match r.lev with
  | some n => if n = l then (r.el, false) else ({ r.el with flags := r.el.flags ||| flagLXC }, true)
  | none => (r.el, false)

/-- LXADD and LXSUB with their crossings. -/
def LxFmt.addX (t : LxFmt) (sub : Bool) (x y : Nat) : El × Bool := (t.add sub x y).crossed (t.largerLevel x y)

/-- LXMUL and LXDIV with their crossings. -/
def LxFmt.mulX (t : LxFmt) (div : Bool) (x y : Nat) : El × Bool := (t.mul div x y).crossed (max (t.level x) (t.level y))

/-- The tree of LXSUM, `n` levels: the last word with every step's flags and counts (R192). -/
def LxFmt.tree (t : LxFmt) : Nat → List Nat → El → El
  | 0, xs, acc => { acc with x := xs.headD 0 }
  | n + 1, xs, acc =>
    let ys := pairLevel (fun x y => (t.addX false x y).1) xs
    t.tree n (ys.map (·.x)) ⟨0, ys.foldl (fun a y => a ||| y.flags) acc.flags, acc.exc ++ ys.flatMap (·.exc)⟩

/-! ### Conversions -/

/-- Bounds of Φ(n + f) for n levels above a fraction, as dyadic numbers; none when a bound has passed 2^12 on the way, so
that the next exponential lies beyond every format. -/
def phiIv (w : Nat) : Nat → Dy × Dy → Option (Dy × Dy)
  | 0, p => some p
  | n + 1, (lo, hi) =>
    if magLt 4000 0 hi.m.natAbs hi.e then none
    else
      let (a, _, e) := expIv w lo
      let (_, b, e') := expIv w hi
      phiIv w n (⟨a, e⟩, ⟨b, e'⟩)

/-- A positive value between two dyadic bounds, rounded where both round alike. -/
def roundBounds (f : Fmt) (mode : RMode) (neg : Bool) (p : Dy × Dy) : Option (Nat × Nat) :=
  let a := f.roundMag mode neg p.1.m.natAbs p.1.e true
  if 0 < p.1.m && a = f.roundMag mode neg p.2.m.natAbs p.2.e true then some a else none

/-- The value far beyond, or far below, every format. -/
def farValue (f : Fmt) (mode : RMode) (neg tiny : Bool) : Nat × Nat :=
  if tiny then f.roundMag mode neg (2 ^ 80) (-5000) true else f.roundMag mode neg (2 ^ 80) 5000 true

/-- Φ(n + fraction), or its reciprocal, rounded (R190, R193). -/
def phiRound (f : Fmt) (mode : RMode) (neg recip : Bool) (n : Nat) (fr : Int) : Nat × Nat :=
  let start : Dy × Dy := (⟨fr, -48⟩, ⟨fr, -48⟩)
  if n = 0 then f.roundMag mode neg fr.toNat (-48) false
  else if fr = 0 && n = 1 then f.roundMag mode neg 1 0 false
  else
    match phiIv 320 (n - 1) start with
    | none => farValue f mode neg recip
    | some (_, hi) =>
      if magLt 4000 0 hi.m.natAbs hi.e then farValue f mode neg recip
      else
        firstIv (fun w =>
          match phiIv w (n - 1) start with
          | none => none
          | some (lo, hi) =>
            if recip then
              let (a, _, e) := expIv w hi.neg
              let (_, b, e') := expIv w lo.neg
              roundBounds f mode neg (⟨a, e⟩, ⟨b, e'⟩)
            else
              let (a, _, e) := expIv w lo
              let (_, b, e') := expIv w hi
              roundBounds f mode neg (⟨a, e⟩, ⟨b, e'⟩)) precisions

/-- A rounded LX value as an IEEE result: ±∞ on overflow in every mode, a flush where it becomes zero (R190). -/
def lxIeee (f : Fmt) (neg flush : Bool) (r : Nat × Nat) : El :=
  if bits r.2 2 1 = 1 then ⟨f.infPat neg, r.2 ||| flagSAT, [0]⟩
  else if flush && r.1 % 2 ^ (f.width - 1) = 0 then ⟨r.1, r.2 ||| flagFL ||| flagUF, [1]⟩
  else ⟨r.1, r.2, []⟩

/-- LX to IEEE (R190). -/
def LxFmt.toIeee (t : LxFmt) (f : Fmt) (mode : RMode) (x : Nat) : El :=
  match t.decode x with
  | .zero => ⟨f.zero false, 0, []⟩
  | .nar => ⟨f.nan, 0, [2]⟩
  | .val s rc l fr => lxIeee f s true (phiRound f mode s rc l fr)

/-- IEEE to LX (R190). -/
def LxFmt.ofIeee (t : LxFmt) (f : Fmt) (x : Nat) : El :=
  match f.decode x with
  | .num s m e =>
    if m = 0 then ⟨0, 0, []⟩
    else
      let u := tlnOf m e
      let (l, v) := levelsDown 8 1 (if 0 ≤ u then u else -u)
      (t.write s (decide (u < 0)) l v).el
  | _ => ⟨t.nar, flagNV, [2]⟩

/-- LXLN of a word (R193). -/
def LxFmt.ln (t : LxFmt) (mode : RMode) (x : Nat) : El :=
  match t.decode x with
  | .zero => ⟨Fmt.f32.infPat true, flagDZ, []⟩
  | .nar => ⟨Fmt.f32.nan, 0, [2]⟩
  | .val _ rc l fr => if l = 1 && fr = 0 then ⟨0, 0, []⟩ else lxIeee .f32 rc false (phiRound .f32 mode rc false (l - 1) fr)

/-- The order of two words as values; none where one is no real (R191). -/
def LxFmt.signedKey (t : LxFmt) (x : Nat) : Option (Int × Int) :=
  match t.decode x with
  | .zero => some (0, 0)
  | .nar => none
  | .val s rc l f => if s then some (-1, -(lxKey rc l f)) else some (1, lxKey rc l f)

/-- A comparison by its condition (R191). -/
def LxFmt.cond (t : LxFmt) (c x y : Nat) : Bool :=
  match t.signedKey x, t.signedKey y with
  | some a, some b =>
    let lt := decide (a.1 < b.1) || (a.1 == b.1 && decide (a.2 < b.2))
    (match c with
      | 0 => a == b
      | 1 => a != b
      | 2 => lt
      | 3 => lt || a == b
      | _ => false)
  | _, _ => c == 1 || c == 4

/-! ### Slots -/

/-- An LX slot: interlocked on the iterative unit of its pipe, which a false guard takes too (R189). -/
def State.lxSlot (s : State) (h : Head) (touch : List RegId) (k : Ctx → List Act) : Host.Outcome State Fault Refusal :=
  let u := s.iss.unit
  let off : List Act := if (s.core (coreOf s.cur)).iter.contains u then [.stall (.iter u)] else [.useIter u]
  (s.checkUsed h touch k).slotOff h touch .now off k

/-- The crossing mask of FM: the bits of active lanes, and of inactive ones under ZI (R188). -/
def crossMask (l : BitVec 128) (zi : Bool) (w : Nat) (t : Nat → Bool) : BitVec 128 × BitVec 128 :=
  let val (i : Nat) : Bool := if w = 16 then t (2 * i) || t (2 * i + 1) else t i
  (BitVec.ofNat 128 (packElems 1 ((List.range 128).map fun i => if zi || l.getLsbD i then 1 else 0)),
    BitVec.ofNat 128 (packElems 1 ((List.range 128).map fun i => if l.getLsbD i && val i then 1 else 0)))

/-- The level field of a word as encoded (R178). -/
def LxFmt.field (t : LxFmt) (x : Nat) : Nat := bits x t.f 3

/-- Cycles of an LX operation: the level fields of its active elements, summed where it has two sources, and whether one of them
crosses (R189). -/
def lxCycles (levels : List Nat) (cross : Bool) : Nat :=
  if levels = [] then 6 else 6 + 3 * levels.foldl max 0 + if cross then 3 else 0

/-- Cycles of LXSUM over its tree (R189, R192). -/
def LxFmt.treeCycles (t : LxFmt) : Nat → List Nat → Nat
  | 0, _ => 0
  | n + 1, l =>
    let ps := (List.range (l.length / 2)).map fun i => (l.getD (2 * i) 0, l.getD (2 * i + 1) 0)
    let rs := ps.map fun p => t.addX false p.1 p.2
    lxCycles (ps.map fun p => t.field p.1 + t.field p.2) (rs.any (·.2)) + t.treeCycles n (rs.map (·.1.x))

/-- The active elements of a width. -/
def activeOfWidth (l : BitVec 128) (w : Nat) : List Nat := (List.range (4096 / w)).filter (activeElem l w)

/-- An arithmetic LX slot (R186 to R188). -/
def State.lxArith (s : State) (h : Head) (d a b : BitVec 5) (m : BitVec 2) (md : Option (BitVec 28)) (op : Nat)
    (k : LxFmt → Nat → Nat → El × Bool) : Host.Outcome State Fault Refusal :=
  let mo := Mod.of md
  let t := lxFmt m.toNat
  s.lxSlot h ([rV d, rV a, rV b, mo.reg] ++ if mo.fm = 0 then [] else [.l mo.fm]) fun c =>
    let l := c.lanes mo
    let rs := (List.range (4096 / t.width)).map fun j =>
      if activeElem l t.width j then k t (c.ve a t.width j) (c.ve b t.width j) else (⟨0, 0, []⟩, false)
    let r := elemRes t.width l mo.zi (rs.map (·.1))
    let x := crossMask l mo.zi t.width fun j => (rs.getD j (⟨0, 0, []⟩, false)).2
    let n := lxCycles ((activeOfWidth l t.width).map fun j => t.field (c.ve a t.width j) + t.field (c.ve b t.width j)) (rs.any (·.2))
    s.vecIlk n op (c.idle mo) (.v d.toNat r.1 r.2) (rs.map (·.1)) ++
      (if mo.fm = 0 then [] else [.vec n true ⟨.l mo.fm x.1 x.2, [], some op, s.iss.unit, 0, [], none⟩])

/-- LXADD (R186). -/
def execLxadd (h : Head) (d a b : BitVec 5) (m : BitVec 2) (md : Option (BitVec 28)) (s : State) :
    Host.Outcome State Fault Refusal := s.lxArith h d a b m md 0x38 fun t x y => t.addX false x y

/-- LXSUB (R186). -/
def execLxsub (h : Head) (d a b : BitVec 5) (m : BitVec 2) (md : Option (BitVec 28)) (s : State) :
    Host.Outcome State Fault Refusal := s.lxArith h d a b m md 0x39 fun t x y => t.addX true x y

/-- LXMUL (R187). -/
def execLxmul (h : Head) (d a b : BitVec 5) (m : BitVec 2) (md : Option (BitVec 28)) (s : State) :
    Host.Outcome State Fault Refusal := s.lxArith h d a b m md 0x3A fun t x y => t.mulX false x y

/-- LXDIV (R187). -/
def execLxdiv (h : Head) (d a b : BitVec 5) (m : BitVec 2) (md : Option (BitVec 28)) (s : State) :
    Host.Outcome State Fault Refusal := s.lxArith h d a b m md 0x3B fun t x y => t.mulX true x y

/-- The IEEE format of LXCVT's X (R190). -/
def lxIeeeFmt (x : Nat) : Fmt :=
  match x with
  | 0 => .f64
  | 1 => .f32
  | _ => .bf16

/-- LXCVT (R190). -/
def execLxcvt (h : Head) (d a : BitVec 5) (x : BitVec 4) (w r : BitVec 1) (md : Option (BitVec 28)) (s : State) :
    Host.Outcome State Fault Refusal :=
  let mo := Mod.of md
  let t := lxFmt w.toNat
  let f := lxIeeeFmt x.toNat
  let toIeee := r.toNat == 1
  let ws := if toIeee then t.width else f.width
  let wd := if toIeee then f.width else t.width
  let wide := max ws wd
  s.lxSlot h [rV d, rV a, mo.reg] fun c =>
    let els := elsOf wide (c.lanes mo) fun j =>
      if toIeee then t.toIeee f (c.rmode mo) (c.ve a ws j) else t.ofIeee f (c.ve a ws j)
    let res := convRes (c.lanes mo) mo.zi wide wd els
    let n := lxCycles ((activeOfWidth (c.lanes mo) wide).map fun j =>
      t.field (if toIeee then c.ve a ws j else (els.getD j ⟨0, 0, []⟩).x)) false
    s.vecIlk n 0x3C (c.idle mo) (.v d.toNat res.1 res.2) els

/-- LXCMP (R191). -/
def execLxcmp (h : Head) (cd : BitVec 3) (a b : BitVec 5) (m : BitVec 2) (md : BitVec 28) (s : State) :
    Host.Outcome State Fault Refusal :=
  let mo := Mod.of (some md)
  let t := lxFmt m.toNat
  s.lxSlot h [.l mo.fm, rV a, rV b, mo.reg] fun c =>
    let r := cmpMask (c.lanes mo) mo.zi t.width fun j => t.cond cd.toNat (c.ve a t.width j) (c.ve b t.width j)
    s.vecIlk (if activeOfWidth (c.lanes mo) t.width = [] then 6 else 4) 0x3D (c.idle mo) (.l mo.fm r.1 r.2) []

/-- LXSUM (R192). -/
def execLxsum (h : Head) (d a : BitVec 5) (m : BitVec 2) (md : Option (BitVec 28)) (s : State) :
    Host.Outcome State Fault Refusal :=
  let mo := Mod.of md
  let t := lxFmt m.toNat
  s.lxSlot h [rV d, rV a, mo.reg] fun c =>
    let xs := redInputs (c.r.rv a.toNat) (c.lanes mo) t.width 0
    let e := t.tree (Nat.log2 (4096 / t.width)) xs ⟨0, 0, []⟩
    let n := if activeOfWidth (c.lanes mo) t.width = [] then 6 else t.treeCycles (Nat.log2 (4096 / t.width)) xs
    s.vecIlk n 0x3E (c.idle mo) (.v d.toNat (BitVec.allOnes 4096) (BitVec.ofNat 4096 e.x)) [e]

/-- LXLN (R193). -/
def execLxln (h : Head) (d a : BitVec 5) (m : BitVec 2) (md : Option (BitVec 28)) (s : State) :
    Host.Outcome State Fault Refusal :=
  let mo := Mod.of md
  let t := lxFmt m.toNat
  s.lxSlot h [rV d, rV a, mo.reg] fun c =>
    let els := elsOf 32 (c.lanes mo) fun j => t.ln (c.rmode mo) (c.ve a t.width j)
    let r := elemRes 32 (c.lanes mo) mo.zi els
    s.vecIlk (lxCycles ((activeOfWidth (c.lanes mo) 32).map fun j => t.field (c.ve a t.width j)) false) 0x3F (c.idle mo) (.v d.toNat r.1 r.2) els

end Sys2Proof.Machine
end

