-- ==== Sys2Proof/Machine/Matrix.lean ====
section
/-! DEFINITION. The matrix instructions (10 R196 to R224): their checks at issue and what they latch. The engine's own
work is in MxEngine and MxOps. -/

namespace Sys2Proof.Machine

/-- The chain that is open (R207). -/
def Ctx.openChain (c : Ctx) : Option Chain := if c.inChain then c.chains.getLast? else none

/-- First row of a descriptor payload (R210). -/
def dsRow (ds : BitVec 28) : Nat := bits ds.toNat 7 9

/-- Number of rows of a descriptor payload (R210). -/
def dsCount (ds : BitVec 28) : Nat := bits ds.toNat 0 7 + 1

/-- The rows of a task's allocation. -/
def Ctx.accRows (c : Ctx) : Nat := 64 * c.al.acc

/-- The physical rows that a descriptor names, those in the allocation (R204). -/
def Ctx.dsRows (c : Ctx) (ds : BitVec 28) : List Nat :=
  (((List.range (dsCount ds)).map (dsRow ds + ·)).filter fun r => decide (r < c.accRows)).map c.al.physRow

/-- A check of an X instruction: whether it fails, with which cause and FAULTVA. -/
abbrev XCheck := Bool × Nat × Nat

/-- The first failing check traps; with none the instruction does as it says (16 R342). -/
def State.xdo (s : State) (checks : List XCheck) (k : List Act) : List Act :=
  match checks.find? (·.1) with
  | some (_, cause, va) => [.trap (s.accTrap cause va)]
  | none => k

/-- An operation of the engine on rows: a matrix stall comes before its checks, which see what the operations that it waits
for have written (R196, R214; 11 R235). -/
def State.xop (s : State) (op ds : Nat) (rows : List Nat) (checks : List XCheck) (k : List Act) : List Act :=
  match s.mxWaits s.cur op ds rows with
  | some w => [.stall w]
  | none => s.xdo checks k

/-- CHAININVALID of the chain's structure for an opcode on physical rows (R207). -/
def Ctx.chainCheck (c : Ctx) (op : Nat) (rows : List Nat) : XCheck :=
  let bad := match c.openChain with
    | none => op == 2 || op == 5
    | some ch =>
      match op with
      | 1 => !ch.begun
      | 2 => !ch.begun || !(rows.all ch.init.contains)
      | 3 => ch.macSeen
      | 5 => !ch.begun
      | 7 => ch.macSeen
      | 11 => ch.macSeen
      | _ => true
  (bad, 0x03, 0)

/-- RESERVEDCOMBO of a reserved format (R220, R224). -/
def Ctx.fmtCheck (c : Ctx) : XCheck := (decide (4 < cfgFmt c.r.mxcfg.toNat), 0x02, 0)

/-- The checks of a row range (R204). -/
def Ctx.rowChecks (c : Ctx) (ds : BitVec 28) : List XCheck :=
  let row := dsRow ds
  let m := dsCount ds
  [(decide (c.accRows < row + m), 0x09, max row c.accRows), (row / 128 != (row + m - 1) / 128, 0x02, 0)]

/-- Groups that an operation in flight is to write whole: an XMAC behind it adds to what that one leaves (R196, R208, R223;
log 23). -/
def Ctx.groupsComing (c : Ctx) : List Nat :=
  c.mx.flatMap fun o =>
    let z := match o.eff with
      | .mac z _ _ => z
      | .held => o.req.op == 3
      | _ => false
    if !o.landed && z then wholeGroups o.req.rows else []

/-- CHAININVALID where a named row lies in an invalid group, but for the groups of a list (R207, R213; log 23). -/
def State.groupCheck (s : State) (rows but' : List Nat) : XCheck :=
  (rows.any fun r => (s.core (coreOf s.cur)).acc.ginv.getLsbD (r / 64) && !but'.contains (r / 64), 0x03, 0)

/-- The checks of an image in the own LSP (R212, R213). -/
def lspChecks (a n : Nat) : List XCheck :=
  [(a % 16 != 0, 0x08, a), (decide (a < 0xC0000) && decide (0xC0000 < a + n), 0x07, a), (decide (0xC0000 ≤ a), 0x09, a)]

/-- What an X operation that reads accumulator rows asks for: UNCORRECTABLE where an entry of them cannot be corrected, and
their groups become invalid (17 R371). -/
def State.xrows (s : State) (rows : List Nat) (k : List Act) : List Act :=
  let bad := (s.core (coreOf s.cur)).acc.bad
  match rows.filter fun r => bad.any fun e => e / 128 == r with
  | [] => k
  | l => [.spoiled (l.map (· / 64)).eraseDups, .trap (s.accTrap 0x10 0)]

/-- What an X instruction asks for once its operand bytes are free of poison (R101 check 6; 17 R371). `ps` are the
pieces read, each with the address that names it. -/
def State.xclean (s : State) (ps : List (Nat × Nat × Nat)) (k : List Act) : List Act :=
  match ps.find? fun p => s.poisonedRange p.2.1 p.2.2 with
  | some p => [.log p.2.1, .trap (s.accTrap 0x10 p.1)]
  | none => k

/-- An X operation with what it latches (R202). -/
def State.xreq (s : State) (op : Nat) (d : Nat) (wa wb : Word) (ds : Nat) (rows : List Nat)
    (pas : List (List (Nat × Nat))) (buf : Option WBuf) : XReq :=
  let c := s.me
  let cfg := c.r.mxcfg.toNat
  { op := op, pc := s.iss.pc, slot := s.iss.slot, bundle := c.bseq, cfg := cfg, d := d, wa := wa, wb := wb, ds := ds
    q1 := c.r.rq (if op = 6 then cfgQS cfg else cfgQA cfg), q2 := c.r.rq (cfgQB cfg), rows := rows, pas := pas
    buf := buf, chain := c.openChain.map (·.id) }

/-- XWLD (R201, R212). -/
def execXwld (h : Head) (a b : BitVec 5) (m : BitVec 2) (s : State) : Host.Outcome State Fault Refusal :=
  s.slotDo h [rS a, rS b] fun c =>
    let cfg := c.r.mxcfg.toNat
    let va := (c.s a).toNat
    let n := imageSize (cfgFmt cfg) (cfgSp cfg)
    let pa := pkLsp (coreOf s.cur) va
    s.xop 1 m.toNat [] ([c.chainCheck 1 [], c.fmtCheck, (cfgSp cfg && decide (3 ≤ cfgFmt cfg), 0x02, 0)] ++ lspChecks va n)
      (s.xclean [(va, pa, n)] [.mx (s.xreq 1 0 (c.s a) (c.s b) m.toNat [] [[(pa, n)]] none)])

/-- XMAC and XMACZ (R205, R206, R213). -/
def State.xmacAny (s : State) (h : Head) (a : BitVec 5) (ds : BitVec 28) (op : Nat) :
    Host.Outcome State Fault Refusal :=
  let hit := !h.d && s.me.r.readPred h.g.toNat && s.struck .weight
  (if hit then { s with upsets := s.upsets.tail } else s).slotDo h [rS a] fun c =>
    -- a buffer that its image does not restore becomes invalid and fails the reading operation (17 R371)
    if hit then [.badBuffer (bits ds.toNat 16 1), .trap { s.trapAt 0x13 0 with how := .check }] else
    let cfg := c.r.mxcfg.toNat
    let fmt := cfgFmt cfg
    let prec := cfgPrec cfg
    let rows := c.dsRows ds
    let buf := (s.core (coreOf s.cur)).wb (bits ds.toNat 16 1)
    let va := (c.s a).toNat
    let n := dsCount ds * blockSize fmt
    let pa := pkLsp (coreOf s.cur) va
    -- an XMACZ reads no row: it may write an invalid group whole (R223)
    let but' := if op = 3 then wholeGroups rows else c.groupsComing
    s.xop op ds.toNat rows
      ([c.chainCheck op rows, c.fmtCheck,
        (decide (fmtPlanes fmt < prec) || (prec != 0 && decide (2 ≤ fmt) && decide (prec < fmtPlanes fmt)), 0x02, 0),
        (!buf.loaded || buf.fmt != fmt, 0x02, 0), (!buf.valid, 0x03, 0), s.groupCheck rows but'] ++
        c.rowChecks ds ++ lspChecks va n)
      (s.xrows (if op = 2 then rows else [])
        (s.xclean [(va, pa, n)] [.mx (s.xreq op 0 (c.s a) 0 ds.toNat rows [[(pa, n)]] (some buf))]))

/-- XMAC (R213). -/
def execXmac (h : Head) (a : BitVec 5) (ds : BitVec 28) (s : State) : Host.Outcome State Fault Refusal :=
  s.xmacAny h a ds 2

/-- XMACZ (R213). -/
def execXmacz (h : Head) (a : BitVec 5) (ds : BitVec 28) (s : State) : Host.Outcome State Fault Refusal :=
  s.xmacAny h a ds 3

/-- XBEGIN (R207). -/
def execXbegin (h : Head) (s : State) : Host.Outcome State Fault Refusal :=
  s.slotDo h [] fun c => s.xdo [c.chainCheck 4 []] [.chainOpen]

/-- XEND (R207). -/
def execXend (h : Head) (s : State) : Host.Outcome State Fault Refusal :=
  s.slotDo h [] fun c => s.xdo [c.chainCheck 5 []] [.chainClose]

/-- The rows of an XACCLD, XACCST or XEPI in memory: each row's address with its pieces (R214). -/
def State.xmem (s : State) (acc : Acc) (a b : Word) (m n : Nat) : Chk (List (Nat × List (Nat × Nat))) :=
  if a.toNat % 16 ≠ 0 then .bad 0x08 a.toNat
  else if b.toNat % 16 ≠ 0 then .bad 0x08 (a + b).toNat
  else
    chkList (fun r =>
      let ea := (a + BitVec.ofNat 64 r * b).toNat
      match s.checkAddr s.cur false acc false ea n 1 with
      | .ok ps => .ok (ea, ps)
      | .bad x y => .bad x y
      | .wait w => .wait w) (List.range m)

/-- What an X instruction with rows in memory asks for (R214). -/
def State.xmemActs (s : State) (chk : Chk (List (Nat × List (Nat × Nat)))) (k : List (Nat × List (Nat × Nat)) → List Act) :
    List Act :=
  match chk with
  | .bad cause va => [.trap (s.accTrap cause va)]
  | .wait w => [.stall w]
  | .ok es => k es

/-- XACCST and XEPI (R214, R215): the bytes of a row, and the checks of their own. -/
def State.xout (s : State) (h : Head) (a b : BitVec 5) (ds : BitVec 28) (op n : Nat) (own : Ctx → List XCheck) :
    Host.Outcome State Fault Refusal :=
  s.slotDo h [rS a, rS b] fun c =>
    let rows := c.dsRows ds
    s.xop op ds.toNat rows ([c.chainCheck op rows] ++ own c ++ c.rowChecks ds ++ [s.groupCheck rows []])
      (s.xmemActs (s.xmem .write (c.s a) (c.s b) (dsCount ds) n) fun es =>
        s.xrows rows [.mx (s.xreq op 0 (c.s a) (c.s b) ds.toNat rows (es.map (·.2)) none)])

/-- XEPI (R215). -/
def execXepi (h : Head) (a b : BitVec 5) (ds : BitVec 28) (s : State) : Host.Outcome State Fault Refusal :=
  let ofmt := bits ds.toNat 16 3
  s.xout h a b ds 6 (16 * ofmtWidth ofmt) fun c =>
    [c.fmtCheck, (bits ds.toNat 19 1 == 1 && (ofmt == 0 || ofmt == 4), 0x02, 0)]

/-- XACCST (R214): the format matters where it checks its rows. -/
def execXaccst (h : Head) (a b : BitVec 5) (ds : BitVec 28) (s : State) : Host.Outcome State Fault Refusal :=
  s.xout h a b ds 8 512 fun c => if 1 ≤ c.pcls || cfgXC c.r.mxcfg.toNat then [c.fmtCheck] else []

/-- XACCLD (R214). -/
def execXaccld (h : Head) (a b : BitVec 5) (ds : BitVec 28) (s : State) : Host.Outcome State Fault Refusal :=
  s.slotDo h [rS a, rS b] fun c =>
    let rows := c.dsRows ds
    s.xop 7 ds.toNat rows ([c.chainCheck 7 rows, c.fmtCheck] ++ c.rowChecks ds)
      (s.xmemActs (s.xmem .read (c.s a) (c.s b) (dsCount ds) 512) fun es =>
        s.xclean (es.flatMap fun e => e.2.map fun p => (e.1, p.1, p.2))
          [.mx (s.xreq 7 0 (c.s a) (c.s b) ds.toNat rows (es.map (·.2)) none)])

/-- XCHK (R217). -/
def execXchk (h : Head) (d : BitVec 5) (ds : BitVec 28) (s : State) : Host.Outcome State Fault Refusal :=
  s.slotDo h [rS d] fun c =>
    let rows := c.dsRows ds
    s.xop 9 ds.toNat rows ([c.chainCheck 9 rows, c.fmtCheck] ++ c.rowChecks ds ++ [s.groupCheck rows []])
      (s.xrows rows [.mx (s.xreq 9 d.toNat 0 0 ds.toNat rows [] none)])

/-- XFIX (R218): with LOC = 0 nothing but the chain is checked. -/
def execXfix (h : Head) (d a : BitVec 5) (s : State) : Host.Outcome State Fault Refusal :=
  s.slotDo h [rS d, rS a] fun c =>
    let w := (c.s a).toNat
    let row := bits w 16 9
    let loc := bits w 32 1 == 1
    let rows := if loc && decide (row < c.accRows) then [c.al.physRow row] else []
    s.xop 10 0 rows ([c.chainCheck 10 rows] ++
        (if loc then [c.fmtCheck, (decide (c.accRows ≤ row), 0x09, row), s.groupCheck rows []] else []))
      (s.xrows rows [.mx (s.xreq 10 d.toNat (c.s a) 0 0 rows [] none)])

/-- XCLR (R219). -/
def execXclr (h : Head) (ds : BitVec 28) (s : State) : Host.Outcome State Fault Refusal :=
  s.slotDo h [] fun c =>
    let rows := c.dsRows ds
    s.xop 11 ds.toNat rows ([c.chainCheck 11 rows, c.fmtCheck] ++ c.rowChecks ds) [.mx (s.xreq 11 0 0 0 ds.toNat rows [] none)]

/-- XCFG (R220). -/
def execXcfg (h : Head) (a : BitVec 5) (s : State) : Host.Outcome State Fault Refusal :=
  s.slotDo h [rS a] fun c => s.xdo [c.chainCheck 12 []] [.fly 1 (.csr 0x012 (BitVec.allOnes 64) (c.s a))]

end Sys2Proof.Machine
end

