-- ==== Sys2Proof/Machine/Stream.lean ====
section
/-! DEFINITION. The stream instructions at issue: commands, rings and status reads (11 R225 to R246). What the engines
do with a command is in StreamEngine. -/

namespace Sys2Proof.Machine

/-- How a handle reads: the stored fields with the views of the entry (R237). -/
def State.handleView (s : State) (g : Nat) (x : BitVec 128) : BitVec 128 :=
  let v := s.ringView g ((s.ctx g).ringCore x) (hRix x) (hProd x)
  BitVec.ofNat 128 (x.toNat % 2 ^ 34 + bits v.toNat 34 1 * 2 ^ 34 + bits x.toNat 35 29 * 2 ^ 35 + v.toNat / 2 ^ 64 * 2 ^ 64)

/-- The words that a tensor handle operand folds (R225). -/
def foldN (n : BitVec 256) : List Word := (List.range 4).map fun i => BitVec.ofNat 64 (bits n.toNat (64 * i) 64)

/-- Whether `n` bytes at a local address lie wholly in the own LSP or in one window (R228). -/
def lspWhole (ea n : Nat) : Bool :=
  let r := regionOf ea
  (r == 0 || (decide (2 ≤ r) && decide (r ≤ 5))) && regionOf (ea + n - 1) == r

/-- An operand in an LSP that does not lie there wholly (R228). -/
def lspSplit (ea n : Nat) : Bool :=
  let r := regionOf ea
  (r == 0 || (decide (2 ≤ r) && decide (r ≤ 5))) && !lspWhole ea n

/-- FE of a control word (R228). -/
def ctlFE (w : Nat) : Bool := bits w 49 1 == 1
/-- CE of a control word. -/
def ctlCE (w : Nat) : Bool := bits w 54 1 == 1

/-- The address of the completion counter: s[b + 1]. -/
def Ctx.ctrAddr (c : Ctx) (b : BitVec 5) : Word := c.r.rs (b.toNat + 1)

/-- Whether a control word fails the checks common to all commands; `zeros` marks the bits that must be zero (R228). -/
def Ctx.ctlBad (c : Ctx) (b : BitVec 5) (zeros : Nat) : Bool :=
  let w := (c.s b).toNat
  (BitVec.ofNat 64 w &&& BitVec.ofNat 64 zeros) != 0 || (ctlCE w && (b == 31 || (c.ctrAddr b).toNat % 8 != 0))

/-- A run of ones from bit `lo` on. -/
def ones (lo n : Nat) : Nat := (2 ^ n - 1) * 2 ^ lo

/-- A command of a context with its control word in b (R228, R229). -/
def State.mkCmd (s : State) (op : CmdOp) (opc : Nat) (b : BitVec 5) (ws : List Word) (nh : Nat) : Cmd :=
  let c := s.me
  let w := (c.s b).toNat
  { op := op, g := s.cur, opc := opc, xcl := false, fe := ctlFE w, flag := bits w 50 4
    ctr := if ctlCE w then some (c.ctrAddr b, bits w 55 7) else none
    ws := ws, nh := nh, rows := [], cfg := c.r.mxcfg.toNat, asid := c.space.asid, ttb := c.space.ttb, home := c.al.home, pos := c.al.pos, kernel := c.al.kernel, pre := [] }

/-- The values that a command with a control word folds after its slot word and its d and a operands (R225). -/
def Ctx.ctlFolds (c : Ctx) (b : BitVec 5) : List Word :=
  c.s b :: (if ctlCE (c.s b).toNat then [c.ctrAddr b] else [])

/-- ILLEGAL of a handle whose rank field is out of range (02 R39). -/
def handleRank (n : BitVec 256) : XCheck := (decide (4 ≤ hRank n), 0x01, 0)

/-- What a command asks for: its checks in order, then its entry; s[b + 1] is an operand when CE = 1 (R225, R228). -/
def State.cmdActs (s : State) (b : BitVec 5) (checks : List XCheck) (m : Cmd) (path : Nat) (folds : List Word) : List Act :=
  let c := s.me
  if ctlCE (c.s b).toNat && b != 31 && c.pending (.s (b.toNat + 1)) then [.stall .busy]
  else s.xdo checks [.enter (.cmd m) 1 none path folds]

/-- Bits of a row of a copied box, and its bytes padded to 16 (R231). -/
def rowBytes (n0 w : Nat) : Nat := (n0 * w + 127) / 128 * 16

/-- The row pitch in the LSP (R231). -/
def rowPitch (ctl rb : Nat) : Nat := if bits ctl 32 16 = 0 then rb else 16 * bits ctl 32 16

/-- N0 + 1. -/
def ctlN0 (ctl : Nat) : Nat := bits ctl 0 16 + 1
/-- N1 + 1. -/
def ctlN1 (ctl : Nat) : Nat := bits ctl 16 16 + 1
/-- N2 + 1. -/
def ctlN2 (ctl : Nat) : Nat := bits ctl 32 16 + 1

/-- The bytes from the first to the last of row-major rows. -/
def rowsSpan (ctl w : Nat) : Nat :=
  let rb := rowBytes (ctlN0 ctl) w
  (ctlN1 ctl - 1) * rowPitch ctl rb + rb

/-- The descriptor of a handle's tensor, where it is valid and well formed. -/
def State.cmdDesc (s : State) (n : BitVec 256) : Option Desc :=
  match s.desc (coreOf s.cur) s.me.space (hTid n) with
  | some d => if hTid n ≠ 0 && d.valid && !d.malformed then some d else none
  | none => none

/-- CPY of a tensor box (R231): what the LSP image holds depends on the element width, which the descriptor gives; with
no usable descriptor the engine ends the command. -/
def execCpyHandle (h : Head) (d a b : BitVec 5) (s : State) : Host.Outcome State Fault Refusal :=
  s.slotDo h [rS d, .n a.toNat, rS b] fun c =>
    let n := c.r.rn a.toNat
    let w := (c.s b).toNat
    let va := (c.s d).toNat
    let lsp := match s.cmdDesc n with
      | some ds =>
        let rb := rowBytes (ctlN0 w) (2 ^ ds.eb)
        rowPitch w rb < rb || !lspWhole va (rowsSpan w (2 ^ ds.eb))
      | none => !lspWhole va 16
    s.cmdActs b [handleRank n, (va % 16 != 0, 0x08, va), (c.ctlBad b (ones 62 2) || lsp, 0x09, w)]
      (s.mkCmd .cpyH 1 b [c.s d, c.s b] n.toNat) 1
      (s.foldWordOf (.cpyHandle h d a b) :: c.s d :: foldN n ++ c.ctlFolds b)

/-- CPY between addresses (R231). -/
def execCpyAddress (h : Head) (d a b : BitVec 5) (s : State) : Host.Outcome State Fault Refusal :=
  s.slotDo h [rS d, rS a, rS b] fun c =>
    let w := (c.s b).toNat
    let va := (c.s d).toNat
    let sa := (c.s a).toNat
    let n := 16 * ctlN0 w
    let src := lspSplit sa n
    s.cmdActs b [(va % 16 != 0, 0x08, va), (sa % 16 != 0, 0x08, sa),
        (c.ctlBad b (ones 62 2 + ones 16 16) || !lspWhole va n || src, 0x09, w)]
      (s.mkCmd .cpyA 1 b [c.s d, c.s a, c.s b] 0) 1
      (s.foldWordOf (.cpyAddress h d a b) :: c.s d :: c.s a :: c.ctlFolds b)

/-- The width of a plane element that PW names (R228). -/
def planeWidth (ctl : Nat) : Nat :=
  match bits ctl 62 2 with
  | 0 => 1
  | 1 => 4
  | 2 => 8
  | _ => 16

/-- The bytes of the plane blocks of a box (R232). -/
def planeSpan (ctl : Nat) : Nat := ctlN0 ctl / 128 * ctlN1 ctl * (16 * planeWidth ctl)

/-- CPYP of a tensor box (R232): the LSP side holds plane blocks, or rows where the tensor is in the bit-plane layout. -/
def execCpypHandle (h : Head) (d a b : BitVec 5) (s : State) : Host.Outcome State Fault Refusal :=
  s.slotDo h [rS d, .n a.toNat, rS b] fun c =>
    let n := c.r.rn a.toNat
    let w := (c.s b).toNat
    let va := (c.s d).toNat
    let rb := rowBytes (ctlN0 w) (planeWidth w)
    let lsp := match s.cmdDesc n with
      | some ds =>
        if ds.layout = 1 then rowPitch w rb < rb || !lspWhole va (rowsSpan w (planeWidth w))
        else !lspWhole va (planeSpan w)
      | none => !lspWhole va 16
    s.cmdActs b [handleRank n, (va % 16 != 0, 0x08, va), (c.ctlBad b 0 || ctlN0 w % 128 != 0 || lsp, 0x09, w)]
      (s.mkCmd .cpypH 2 b [c.s d, c.s b] n.toNat) 1
      (s.foldWordOf (.cpypHandle h d a b) :: c.s d :: foldN n ++ c.ctlFolds b)

/-- CPYP between addresses: packed rows at s[a], plane blocks at s[d] (R232). -/
def execCpypAddress (h : Head) (d a b : BitVec 5) (s : State) : Host.Outcome State Fault Refusal :=
  s.slotDo h [rS d, rS a, rS b] fun c =>
    let w := (c.s b).toNat
    let va := (c.s d).toNat
    let sa := (c.s a).toNat
    let src := lspSplit sa (ctlN1 w * rowBytes (ctlN0 w) (planeWidth w))
    s.cmdActs b [(va % 16 != 0, 0x08, va), (sa % 16 != 0, 0x08, sa),
        (c.ctlBad b 0 || ctlN0 w % 128 != 0 || !lspWhole va (planeSpan w) || src, 0x09, w)]
      (s.mkCmd .cpypA 2 b [c.s d, c.s a, c.s b] 0) 1
      (s.foldWordOf (.cpypAddress h d a b) :: c.s d :: c.s a :: c.ctlFolds b)

/-- CPYW (R235): it waits while an earlier weight load is not yet current. MISALIGN is checked first (R228). -/
def execCpyw (h : Head) (a b : BitVec 5) (s : State) : Host.Outcome State Fault Refusal :=
  s.slotDo h [rS a, rS b] fun c =>
    let cfg := c.r.mxcfg.toNat
    let w := (c.s b).toNat
    let sa := (c.s a).toNat
    let busy := (s.core (coreOf s.cur)).wload != [] || c.mx.any fun o => o.part == 0 && !o.landed
    let checks : List XCheck :=
      [(sa % 128 != 0, 0x08, sa), c.fmtCheck, (cfgSp cfg && decide (3 ≤ cfgFmt cfg), 0x02, 0),
        (c.ctlBad b (ones 1 48 + ones 62 2), 0x09, w)]
    if busy && !(checks.any (·.1)) then [.stall (.part 0)]
    else
      s.cmdActs b checks (s.mkCmd .cpyw 3 b [c.s a, c.s b] 0) 3
        (s.foldWordOf (.cpyw h a b) :: c.s a :: c.ctlFolds b)

/-- SUBS (R241): SIDE is 0 for a loader, 1 for a storer. -/
def State.subscribe (s : State) (h : Head) (d a b : BitVec 5) (load : Bool) (i : Instr) : Host.Outcome State Fault Refusal :=
  s.slotDo h [.h d.toNat, .n a.toNat, rS b] fun c =>
    let x := c.r.rh d.toNat
    let n := c.r.rn a.toNat
    let w := (c.s b).toNat
    s.cmdActs b [handleRank n, (c.ctlBad b (ones 48 1 + ones 62 2) || !hBnd x || hProd x == load, 0x09, w)]
      (s.mkCmd (if load then .subsLoad else .subsStore) 4 b [c.s b] (n.toNat + 2 ^ 256 * x.toNat)) 4
      (s.foldWordOf i :: BitVec.ofNat 64 ((s.handleView s.cur x).toNat) :: foldN n ++ c.ctlFolds b)

/-- SUBS of a loader (R241): the loader produces. -/
def execSubsLoad (h : Head) (d a b : BitVec 5) (s : State) : Host.Outcome State Fault Refusal :=
  s.subscribe h d a b true (.subsLoad h d a b)

/-- SUBS of a storer (R241): the storer consumes. -/
def execSubsStore (h : Head) (d a b : BitVec 5) (s : State) : Host.Outcome State Fault Refusal :=
  s.subscribe h d a b false (.subsStore h d a b)

/-- SUBE (R242). -/
def execSube (h : Head) (d : BitVec 5) (s : State) : Host.Outcome State Fault Refusal :=
  s.slotDo h [.h d.toNat] fun c =>
    let x := c.r.rh d.toNat
    [.enter (.cmd (s.mkCmd .sube 5 0 [] (2 ^ 256 * x.toNat))) 1 none 4
      [s.foldWordOf (.sube h d), BitVec.ofNat 64 ((s.handleView s.cur x).toNat)]]

/-- The handle that HSET makes of an entry (R237, R238). -/
def handleOf (e : BitVec 128) (core rix side : Nat) : BitVec 128 :=
  BitVec.ofNat 128 (e.toNat % 2 ^ 33 + 2 ^ 33 + side * 2 ^ 35 + core * 2 ^ 36 + rix * 2 ^ 38)

/-- HSET (R238). -/
def execHset (h : Head) (d a : BitVec 5) (s : State) : Host.Outcome State Fault Refusal :=
  s.slotDo h [.h d.toNat, rS a] fun c =>
    let w := (c.s a).toNat
    if w / 2 ^ 8 ≠ 0 then s.permission (c.s a)
    else
      let core := bits w 0 2
      let rix := bits w 2 5
      s.twinValue (((s.core (4 * c.al.home + core)).rings.at 0 rix).truncate 64) fun e0 =>
        let e : BitVec 128 := e0.zeroExtend 128
        let bad := bits e.toNat 33 1 = 0 || 0xC0000 < bits e.toNat 0 20 + ringSlots e * 2 ^ bits e.toNat 20 5
        [.ilk (.h d.toNat (handleOf e core rix (bits w 7 1))) (if bad then some (s.accTrap 0x09 w) else none)]

/-- HWAIT (R239). -/
def execHwait (h : Head) (d a : BitVec 5) (i : BitVec 7) (s : State) : Host.Outcome State Fault Refusal :=
  s.slotDo h [rS d, .h a.toNat] fun c =>
    let x := c.r.rh a.toNat
    if !hBnd x || hSlots x < i.toNat then s.permission 0
    else [.tail (.wait (.ring d.toNat (c.ringCore x) (hRix x) (hProd x) a.toNat i.toNat) s.iss.pc s.iss.slot false)]

/-- HADV (R240). -/
def execHadv (h : Head) (a : BitVec 5) (i : BitVec 7) (s : State) : Host.Outcome State Fault Refusal :=
  s.slotDo h [.h a.toNat] fun c =>
    let x := c.r.rh a.toNat
    if !hBnd x || hSlots x < i.toNat then s.permission 0
    else [.enter (.hadv (c.ringCore x) (hRix x) (hProd x) i.toNat) 1 none 0
      [s.foldWordOf (.hadv h a i), BitVec.ofNat 64 ((s.handleView s.cur x).toNat)]]

/-- The elements of a type code of COLL, in bytes (R228). -/
def collBytes (ctl : Nat) : Nat :=
  match bits ctl 24 3 with
  | 0 => 4
  | 1 => 2
  | 2 => 2
  | 4 => 4
  | _ => 8

/-- The bytes that a COLL writes at its destination: those of one participant for an all-reduce, of all for an all-gather, a
participant's share for a reduce-scatter; 16 for a group that is not registered, whose command the engine ends (R228, R243; 18
R382). -/
def State.collDest (s : State) (ioc ctl n : Nat) : Nat :=
  match s.group ioc (bits ctl 32 16) with
  | .error _ => 16
  | .ok w =>
    if bits w 0 1 = 0 then 16
    else
      match bits ctl 27 2 with
      | 0 => n
      | 1 => (bits w 32 13 + 1) * n
      | _ => n / (bits w 32 13 + 1)

/-- COLL (R243). -/
def execColl (h : Head) (d a b : BitVec 5) (s : State) : Host.Outcome State Fault Refusal :=
  s.slotDo h [rS d, rS a, rS b] fun c =>
    let w := (c.s b).toNat
    let va := (c.s d).toNat
    let sa := (c.s a).toNat
    let n := (bits w 0 24 + 1) * collBytes w
    let bad := 6 ≤ bits w 24 3 || bits w 27 2 = 3 || bits w 29 2 = 3 || lspSplit sa n ||
      lspSplit va (max 1 (s.collDest (s.iocOf s.cur) w n))
    s.cmdActs b [(va % 16 != 0, 0x08, va), (sa % 16 != 0, 0x08, sa),
        (c.ctlBad b (ones 31 1 + ones 48 1 + ones 62 2) || bad, 0x09, w)]
      (s.mkCmd .coll 0x0B b [c.s d, c.s a, c.s b] 0) 5
      (s.foldWordOf (.coll h d a b) :: c.s d :: c.s a :: c.ctlFolds b)

/-- FPUT (R244). -/
def execFput (h : Head) (d a b : BitVec 5) (s : State) : Host.Outcome State Fault Refusal :=
  s.slotDo h [rS d, rS a, rS b] fun c =>
    let w := (c.s b).toNat
    let va := (c.s d).toNat
    let sa := (c.s a).toNat
    let n := 16 * (bits w 0 24 + 1)
    s.cmdActs b [(va % 16 != 0, 0x08, va), (sa % 16 != 0, 0x08, sa),
        (c.ctlBad b (ones 24 25 + ones 62 2) || lspSplit sa n, 0x09, w)]
      (s.mkCmd .fput 0x0C b [c.s d, c.s a, c.s b] 0) 5
      (s.foldWordOf (.fput h d a b) :: c.s d :: c.s a :: c.ctlFolds b)

/-- The engine-fault queue as a context reads it: without the records whose removal is held (R245). -/
def Ctx.efView (c : Ctx) : List (BitVec 256) := c.efq.drop (c.ivs.map (·.removed)).sum

/-- The value of QSTAT selector `i` (R245). -/
def State.qstatValue (s : State) (c : Ctx) (x : BitVec 128) (i : Nat) : Word :=
  let v := s.ringView s.cur (c.ringCore x) (hRix x) (hProd x)
  let q := c.efView
  let head := ((q.head?).getD 0).toNat
  match i with
  | 0 => BitVec.ofNat 64 (ringFilled v)
  | 1 => BitVec.ofNat 64 (ringSlots x + 2 ^ 64 - ringFilled v)
  | 2 => BitVec.ofNat 64 (bits v.toNat 64 32)
  | 3 => BitVec.ofNat 64 (bits v.toNat 96 32)
  | 4 => BitVec.ofNat 64 (bits v.toNat 34 1 + 2 * bits v.toNat 35 1 + 4 * bits v.toNat 36 1 + 8 * (hBnd x).toNat)
  | 5 => BitVec.ofNat 64 (q.length + 16 * c.efOvf.toNat)
  | 10 => BitVec.ofNat 64 (bits head 0 64)
  | n => BitVec.ofNat 64 (bits head (64 * (n - 6)) 64)

/-- QSTAT (R245): its result is interlocked; in class 2 the primary's value reaches both twins. -/
def execQstat (h : Head) (d a : BitVec 5) (i : BitVec 7) (s : State) : Host.Outcome State Fault Refusal :=
  s.slotDo h [rS d, .h a.toNat] fun c =>
    let x := c.r.rh a.toNat
    let n := i.toNat
    if n ≤ 4 && !hBnd x then s.permission 0
    else
      s.twinValue (s.qstatValue c x n) fun v =>
        .ilk (.s d.toNat v) none ::
          (if n = 5 then [.efq false true] else if n = 10 && c.efView != [] then [.efq true false] else [])

end Sys2Proof.Machine
end

