-- ==== Sys2Proof/Machine/Task.lean ====
section
/-! DEFINITION. TSPAWN and KLAUNCH at issue (14 R302, R307 to R309). -/

namespace Sys2Proof.Machine

/-- The number of task types of a kernel, TTN. -/
def Kernel.ttn (k : Kernel) : Nat := k.types.length

/-- Whether TSPAWN is refused at issue, on its placement word, record and dependence word (R308). -/
def State.spawnBad (s : State) (own : Bool) (p r x : Word) : Bool :=
  let c := s.me
  let k := s.kernelOf s.cur
  p.toNat / 2 ^ 11 != 0 || bits r.toNat 48 1 != 0 || decide ((k.map Kernel.ttn).getD 0 ≤ recType r) ||
    (!own && bits p.toNat 7 1 == 0 && decide ((k.map fun k => k.clus.length).getD 0 ≤ bits p.toNat 0 7)) ||
    (bits p.toNat 10 1 == 1 && !c.hnd) || (!recDep r && x != 0)

/-- TSPAWN (R307, R308): with d = 0 the own cluster at the spawner's priority. -/
def execTspawn (h : Head) (d a b : BitVec 5) (s : State) : Host.Outcome State Fault Refusal :=
  s.slotDo h [rS d, rS a, rS b] fun c =>
    let own := d == 0
    if s.spawnBad own (c.s d) (c.s a) (c.s b) then s.permission (c.s a)
    else
      let m := s.mkCmd .tspawn 9 0 [c.s d, c.s a, c.s b] own.toNat
      [.enter (.cmd { m with cfg := c.prio.toNat % 4 }) 1 none noPath
        [s.foldWordOf (.tspawn h d a b), c.s d, c.s a, c.s b]]

/-- KLAUNCH (R307, R309): the first word of the packet is checked at issue. -/
def execKlaunch (h : Head) (a : BitVec 5) (s : State) : Host.Outcome State Fault Refusal :=
  s.slotDo h [rS a] fun c =>
    s.atAddr .read (c.s a) 8 fun _ =>
      [.enter (.cmd (s.mkCmd .klaunch 0x0A 0 [c.s a] 0)) 1 none 5 [s.foldWordOf (.klaunch h a), c.s a]]

end Sys2Proof.Machine
end

