-- ==== Sys2Proof/Machine/Guard.lean ====
section
/-! DEFINITION. CKPT, CMPT, SIGRD and PHINT (15 R336 to R339; 16 R348, R350). -/

namespace Sys2Proof.Machine

/-- CKPT (R337). -/
def execCkpt (h : Head) (s : State) : Host.Outcome State Fault Refusal :=
  s.slotDo h [] fun c => c.unlessChain s [.ckpt false, .drainOn]

/-- CMPT (R338). -/
def execCmpt (h : Head) (a b : BitVec 5) (m : BitVec 2) (s : State) : Host.Outcome State Fault Refusal :=
  let reg (x : BitVec 5) : RegId := match m.toNat with
    | 0 => .s x.toNat
    | 1 => .v x.toNat
    | _ => .l x.toNat
  s.slotDo h [reg a, reg b] fun c =>
    let same := match m.toNat with
      | 0 => c.s a == c.s b
      | 1 => c.r.rv a.toNat == c.r.rv b.toNat
      | _ => c.r.rl a.toNat == c.r.rl b.toNat
    if same then [] else [.trap { s.trapAt 0x12 0 with how := .replay }]

/-- Whether folds of earlier bundles are still to be made (R339). -/
def Ctx.foldsDue (c : Ctx) : Bool :=
  c.protectedTask && (c.fl.any (fun f => f.folds != [] || f.vop.isSome) || c.chains != [] ||
    c.mx.any fun o => !o.landed && (o.req.op == 2 || o.req.op == 3))

/-- The signature word that SIGRD reads (R339): zero in class 0. -/
def Ctx.sigWord (c : Ctx) (m : BitVec 2) : Word :=
  if c.pcls = 0 then 0
  else
    match m.toNat with
    | 0 => c.siglo
    | 1 => c.sighi
    | 2 => c.cap.1
    | _ => c.cap.2

/-- SIGRD (R339, R341). -/
def execSigrd (h : Head) (d : BitVec 5) (m : BitVec 2) (s : State) : Host.Outcome State Fault Refusal :=
  s.slotDo h [rS d] fun c =>
    c.unlessChain s (if c.foldsDue then [.stall .folds] else [.ilk (.s d.toNat (c.sigWord m)) none])

/-- The liveness entry that a hint names; none where it is beyond the table or cannot be read (R350, R363; 03 R58). -/
def State.liveEntry (s : State) (g idx : Nat) : Option Nat :=
  let c := s.ctx g
  match s.kernelOf g with
  | none => none
  | some k =>
    if k.lvn ≤ idx then none
    else
      match s.devRead c.space (c.liveb.toNat + 32 * idx) 32 with
      | .ok bs => some (leNat bs)
      | .error _ => none

/-- The hint of a context: none, for a whole save, where its entry cannot be read (R350). -/
def State.hintAt (s : State) (g idx : Nat) (k1 k2 : BitVec 28) : Option Hint := (s.liveEntry g idx).map fun w => (idx, k1, k2, w)

/-- PHINT (R348, R350): a save point where PEND is set and a save slot is free. -/
def execPhint (h : Head) (i : BitVec 12) (k1 k2 : BitVec 28) (s : State) : Host.Outcome State Fault Refusal :=
  s.slotDo h [] fun c =>
    c.unlessChain s
      (if c.pend.isSome && s.savePoint s.cur then [.ckpt true, .tail (.save (s.hintAt s.cur i.toNat k1 k2))]
       else [])

end Sys2Proof.Machine
end

