-- ==== Sys2Proof/Machine/System.lean ====
section
/-! DEFINITION. The system instructions (16 R353 to R361). -/

namespace Sys2Proof.Machine

/-- CSRR (R354). -/
def execCsrr (h : Head) (d : BitVec 5) (i : BitVec 12) (s : State) : Host.Outcome State Fault Refusal :=
  s.slotDo h [rS d] fun c => [.fly 1 (.s d.toNat (c.csr s.cur i.toNat))]

/-- Whether a control register clears the bits written as ones (R354; 02 R42; 08 R158). -/
def csrW1C (i : Nat) : Bool := i == 0x000 || i == 0x011

/-- A write of a control register: bits `mask` become those of `x` where it may be written; MXCFG inside a chain raises
CHAININVALID (R354; 10 R207). -/
def State.csrWrite (s : State) (i : Nat) (mask x : Word) : List Act :=
  let c := s.me
  if i = 0x012 && c.inChain then [.trap (s.trapAt 0x03 0)]
  else if csrWritable c.hnd i then [.fly 1 (.csr i mask x)]
  else []

/-- CSRW (R354). -/
def execCsrw (h : Head) (d : BitVec 5) (i : BitVec 12) (s : State) : Host.Outcome State Fault Refusal :=
  s.slotDo h [rS d] fun c =>
    if csrW1C i.toNat then s.csrWrite i.toNat (c.s d) 0 else s.csrWrite i.toNat (BitVec.allOnes 64) (c.s d)

/-- CSRS (R354). -/
def execCsrs (h : Head) (d : BitVec 5) (i : BitVec 12) (s : State) : Host.Outcome State Fault Refusal :=
  s.slotDo h [rS d] fun c => if csrW1C i.toNat then [] else s.csrWrite i.toNat (c.s d) (BitVec.allOnes 64)

/-- CSRC (R354). -/
def execCsrc (h : Head) (d : BitVec 5) (i : BitVec 12) (s : State) : Host.Outcome State Fault Refusal :=
  s.slotDo h [rS d] fun c => s.csrWrite i.toNat (c.s d) 0

/-- ERET to the state of TCOPY (R355). -/
def execEretRestore (h : Head) (s : State) : Host.Outcome State Fault Refusal :=
  s.slotDo h [] fun c =>
    if !c.hnd then [.trap (s.trapAt 0x01 0)] else c.unlessChain s [.ckpt true, .tail (.eret none)]

/-- ERET to s[a] with the registers as they are (R355). -/
def execEretContinue (h : Head) (a : BitVec 5) (s : State) : Host.Outcome State Fault Refusal :=
  s.slotDo h [rS a] fun c =>
    if !c.hnd then [.trap (s.trapAt 0x01 0)]
    else if (c.s a).toNat % 4 ≠ 0 then [.trap (s.trapAt 0x08 (c.s a))]
    else c.unlessChain s [.ckpt true, .tail (.eret (some (c.s a)))]

/-- SYSC (R356). -/
def execSysc (h : Head) (i : BitVec 12) (s : State) : Host.Outcome State Fault Refusal :=
  s.slotDo h [] fun c => c.unlessChain s (s.softTrap 0x15 i.toNat)

/-- STEP (R358). -/
def execStep (h : Head) (a : BitVec 5) (s : State) : Host.Outcome State Fault Refusal :=
  s.slotDo h [rS a] fun c => [.enter (.step (c.s a)) 1 none noPath [s.foldWordOf (.step h a), c.s a]]

/-- ABORT (R357). -/
def execAbort (h : Head) (a : BitVec 5) (s : State) : Host.Outcome State Fault Refusal :=
  s.slotDo h [rS a] fun c =>
    let w := (c.s a).toNat
    let asid := c.space.asid
    if w / 2 ^ 16 ≠ 0 || !s.groupHas (s.iocOf s.cur) w asid then s.permission 0
    else c.unlessChain s [.ckpt true, .tail (.abort (BitVec.ofNat 16 w))]

/-- TTINV of a scope, in handler mode (R359). -/
def State.ttinv (s : State) (h : Head) (touch : List RegId) (scope : Nat) (k : Ctx → Nat × Nat) :
    Host.Outcome State Fault Refusal :=
  s.slotDo h touch fun c =>
    if !c.hnd then [.trap (s.trapAt 0x01 0)] else [.tail (.ttinv scope (k c).1 (k c).2)]

/-- TTINV of one tile (R359). -/
def execTtinvTile (h : Head) (a b : BitVec 5) (s : State) : Host.Outcome State Fault Refusal :=
  s.ttinv h [rS a, rS b] 0 fun c => (bits (c.s a).toNat 0 20, (c.s b).toNat)

/-- TTINV of one tensor (R359). -/
def execTtinvTensor (h : Head) (a : BitVec 5) (s : State) : Host.Outcome State Fault Refusal :=
  s.ttinv h [rS a] 1 fun c => (bits (c.s a).toNat 0 20, 0)

/-- TTINV of the ASID (R359). -/
def execTtinvAsid (h : Head) (s : State) : Host.Outcome State Fault Refusal := s.ttinv h [] 2 fun _ => (0, 0)

/-- TTINV of everything (R359). -/
def execTtinvAll (h : Head) (s : State) : Host.Outcome State Fault Refusal := s.ttinv h [] 3 fun _ => (0, 0)

/-- ICINV (R360). -/
def State.icinv (s : State) (h : Head) (a b : BitVec 5) (pkg : Bool) : Host.Outcome State Fault Refusal :=
  s.slotDo h [rS a, rS b] fun c =>
    if 2 ^ 32 < (c.s b).toNat then s.permission (c.s a)
    else [.tail (.icinv pkg (c.s a).toNat (c.s b).toNat)]

/-- ICINV of the own core (R360). -/
def execIcinvCore (h : Head) (a b : BitVec 5) (s : State) : Host.Outcome State Fault Refusal := s.icinv h a b false

/-- ICINV of the package (R360). -/
def execIcinvPkg (h : Head) (a b : BitVec 5) (s : State) : Host.Outcome State Fault Refusal := s.icinv h a b true

/-- ATTQ (R361): its reads and writes belong to the COPY path, as the MSC's accesses through the aperture do; the manual names no path
for them (07 R122; DESIGN CHOICE, log 67). -/
def execAttq (h : Head) (d a b : BitVec 5) (s : State) : Host.Outcome State Fault Refusal :=
  s.slotDo h [rS a, rS b] fun c =>
    let x := (c.s a).toNat
    let y := (c.s b).toNat
    let m := s.mkCmd .attq 0x0F 0 [c.s a, c.s b] 0
    s.xdo [(regionOf x != 10 || x % 4096 != 0, 0x08, x), (regionOf y != 10 || y % 64 != 0, 0x08, y)]
      [.enter (.cmd { m with fe := true, flag := d.toNat }) 1 none 1
        [s.foldWordOf (.attq h d a b), BitVec.ofNat 64 d.toNat, c.s a, c.s b]]

end Sys2Proof.Machine
end

