-- ==== Sys2Proof/Machine/CoreEvents.lean ====
section
/-! DEFINITION. The events of a core: its clock, the run limit, results that land, waits, DRAIN, TTINV, ICINV, lock
answers, and what ends a stall of issue (04 R62 to R69; 06 R108, R109; 07 R142; 09 R189; 13 R279, R283; 16 R359,
R360). An event that cannot happen in a state leaves it as it is (log 5). -/

namespace Sys2Proof.Machine

/-- An event that happens where it can. -/
def State.event (s : State) (can : Bool) (k : State → State) : Host.Outcome State Fault Refusal :=
  .next (if can then k s else s)

/-- A stall of a context ended, where it is one that `p` names: its bundle issues again. -/
def State.unstall (s : State) (g : Nat) (p : StallOn → Bool) : State :=
  let c := s.ctx g
  match c.stall with
  | some w => if p w then s.setCtx g { c with stall := none } else s
  | none => s

/-- The head of the work at the end of a context's bundle done away with. -/
def State.popTodo (s : State) (g : Nat) : State :=
  let c := s.ctx g
  s.setCtx g { c with todo := c.todo.tail }

/-! ### The clock and the run limit -/

/-- Whether a core's clock can restart (R65). -/
def State.canRestart (s : State) (core : Nat) : Bool := (s.core core).gated && (s.core core).batch != []

/-- CLOCK_RESTART (R65). -/
def execClockRestart (core : Nat) (s : State) : Host.Outcome State Fault Refusal :=
  s.event (s.canRestart core) fun s => s.restartClock core

/-- Whether the run limit falls due (R66). -/
def State.canRunDue (s : State) (g : Nat) : Bool :=
  let c := s.ctx g
  c.st == .issuing && !c.due && decide (c.run ≤ c.runLimit / 8)

/-- RUN_LIMIT_DUE (R66). -/
def execRunLimitDue (g : Nat) (s : State) : Host.Outcome State Fault Refusal :=
  s.event (s.canRunDue g) fun s => s.runDue g

/-- The bundle at which the counter of a context has reached 0 with no checkpoint since it fell due (R66). -/
def State.expiring (s : State) (g : Nat) : Option Word :=
  let c := s.ctx g
  match c.todo with
  | .expire pc :: _ => if c.st = .issuing && c.run = 0 then some pc else none
  | _ => none

/-- RUN_LIMIT_EXPIRY (R66). -/
def execRunLimitExpiry (g : Nat) (s : State) : Host.Outcome State Fault Refusal :=
  match s.expiring g with
  | some pc => .next ((s.popTodo g).runExpired g pc)
  | none => .next s

/-! ### Results that land -/

/-- Whether a context waits for its results in flight (R64; 15 R339). -/
def Ctx.landing (c : Ctx) : Bool :=
  c.st == .issuing && (c.todo.head? == some .land || (c.todo.head? == some .copy && !c.mx.all (·.landed)) || (c.todo == [] && c.stall == some .folds))

/-- Bundle counts until the next exposed result lands. -/
def Ctx.nextExposed (c : Ctx) : Option Nat :=
  ((c.fl.filter fun f => !f.ilk).map fun f => f.land - c.bseq).min?

/-- Engine steps until the next matrix operation lands. -/
def Ctx.nextSteps (c : Ctx) : Option Nat :=
  ((c.mx.filter fun o => !o.landed).filterMap fun o => o.land.map (· - c.mstep)).min?

/-- Cycles of the wait of R64 until something lands. -/
def Ctx.nextLand (c : Ctx) : Option Nat :=
  match c.nextExposed, c.nextSteps with
  | some a, some b => some (min a b)
  | some a, none => some a
  | none, b => b

/-- A trap of a result that lands: where the interval of its bundle has agreed, the context takes its copy first, and the handler
follows (12 R248; 15 R319). -/
def State.trapLate (s : State) (g : Nat) (t : TrapReq) : State :=
  if (s.ctx g).between then (s.takeCopy g).takeTrap g { t with how := .handler } else s.takeTrap g t

/-- `n` cycles of the wait of R64 pass, and what is then due lands (R64; 10 R197). -/
def State.waitAdvance (s : State) (g n : Nat) : State :=
  let c := s.ctx g
  let c1 := { c with
    mstep := c.mstep + n
    fl := c.fl.map fun f => if f.ilk then f else { f with land := f.land - n } }
  match (s.setCtx g c1).landExposed g with
  | (s1, some t) => s1.trapLate g (s1.withMxTrap g t)
  | (s1, none) =>
    match s1.mxLandDue g (c.mx.length + 1) with
    | (s2, some t) => s2.trapLate g t
    | (s2, none) => s2.unstall g fun w => w == .folds

/-- EXPOSED_RESULT_LAND (R62, R64): outside the wait of R64, exposed results land with the bundle at whose count they
are due. -/
def execExposedResultLand (g : Nat) (s : State) : Host.Outcome State Fault Refusal :=
  let c := s.ctx g
  match c.nextExposed with
  | some n => s.event (c.landing && c.nextLand == some n) fun s => s.waitAdvance g n
  | none => .next s

/-- Whether two interlocked vector results of one bundle are bound for one register (02 R37; 08 R152). -/
def Flight.rivals (f x : Flight) : Bool :=
  x.ilk && x.bundle == f.bundle && x.slot != f.slot && x.vop.isSome && f.vop.isSome && x.res.reg == f.res.reg

/-- The results that land with an interlocked one: those of its slot, and of another slot of its bundle one for the same register that
takes as long (R63; 02 R37; 08 R152). -/
def Ctx.landsWith (c : Ctx) (f : Flight) : List Flight :=
  c.fl.filter fun x => (x.ilk && x.bundle == f.bundle && x.slot == f.slot) || (f.rivals x && x.land == f.land)

/-- Whether an interlocked result may land: not before one of its bundle for the same register that takes less time (08 R152). -/
def Ctx.mayLand (c : Ctx) (f : Flight) : Bool := f.ilk && !(c.fl.any fun x => f.rivals x && decide (x.land < f.land))

/-- INTERLOCKED_RESULT_LAND (R63). -/
def execInterlockedResultLand (g k : Nat) (s : State) : Host.Outcome State Fault Refusal :=
  let c := s.ctx g
  match c.fl[k]? with
  | some f =>
    s.event (c.st == .issuing && c.mayLand f) fun s =>
      State.orTrap g (match s.landAll g (c.landsWith f) with
        | (s1, none) => (s1.unstall g fun w => w == .busy || w == .folds || f.iter.any fun u => w == .iter u, none)
        | r => r)
  | none => .next s

/-! ### Waits -/

/-- What re-evaluating the wait of a parked context finds, a read that ends it counted; none where it is not parked.
While the unit of its object holds requests back it finds nothing (17 R368). -/
def State.waked (s : State) (g : Nat) (expired : Bool) : Option (Waited × Word × Nat) :=
  let c := s.ctx g
  match c.st, c.wait with
  | .parked, some (w, pc, slot) =>
    if w.key.any fun pa => (s.waitsAt pa).isSome then some (.park, pc, slot)
    else some ((s.countReads g w.key.toList).evalWait g w expired, pc, slot)
  | _, _ => none

/-- A context leaves its wait (R68). -/
def State.wakeUp (s : State) (g : Nat) (r : Waited × Word × Nat) : State :=
  match r with
  | (.sat s1, _, _) => (s1.setCtx g { s1.ctx g with wait := none }).endRun g .ready
  | (.bad pa va, pc, slot) => (s.logError pa 2 0 g).takeTrap g ⟨0x10, 0, pc, slot, va, 0, 0, 0, .poison⟩
  | (.park, _, _) => s

/-- WAIT_WAKE (R68, R69): a trap that waits for the context abandons the wait; else a condition that holds ends it. -/
def execWaitWake (g : Nat) (s : State) : Host.Outcome State Fault Refusal :=
  match s.waked g false with
  | some (r, pc, slot) =>
    .next (if (s.ctx g).due' != [] then s.deliverDue g pc
      else if s.woundParked g then s.takeTrap g ⟨0x0B, 0, pc, 0, 0, 0, 0, 0, .handler⟩
      else s.wakeUp g (r, pc, slot))
  | none => .next s

/-- Whether the bound of a parked BWAIT has expired (12 R263). -/
def State.boundExpired (s : State) (g : Nat) : Bool :=
  match (s.ctx g).wait with
  | some (.bar _ _ _ (some t) _, _, _) => decide (t ≤ s.cycles)
  | _ => false

/-- BWAIT_BOUND_EXPIRY (12 R263). -/
def execBwaitBoundExpiry (g : Nat) (s : State) : Host.Outcome State Fault Refusal :=
  match s.waked g true with
  | some r => s.event (s.boundExpired g) fun s => s.wakeUp g r
  | none => .next s

/-! ### Stalls at the end of a bundle -/

/-- DRAIN_COMPLETE (07 R142): an ABORT that waits for the context ends the stall (R143). -/
def execDrainComplete (g : Nat) (s : State) : Host.Outcome State Fault Refusal :=
  let c := s.ctx g
  match c.todo with
  | .drain paths _ pc :: _ =>
    if c.due'.any fun t => t.cause == 0x18 then .next (s.deliverDue g pc)
    else s.event (s.drained g paths) fun s => s.popTodo g
  | _ => .next s

/-- Whether a TTINV of a scope names a tile cache entry: 0 one tile, 1 one tensor, 2 the ASID, 3 every ASID (16 R359). -/
def ttinvNames (scope asid tid tile : Nat) (k : Nat × Nat × Nat) : Bool :=
  match scope with
  | 0 => k == (asid, tid, tile)
  | 1 => k.1 == asid && k.2.1 == tid
  | 2 => k.1 == asid
  | _ => true

/-- Whether a TTINV of a scope names an interior entry: one on the walk of the tile (06 R108; 16 R359). -/
def ttinvNode (scope asid tid tile : Nat) (k : Nat × Nat × Nat × Nat) : Bool :=
  match scope with
  | 0 => k.1 == asid && k.2.1 == tid && k.2.2.2 == tile / 512 ^ k.2.2.1
  | 1 => k.1 == asid && k.2.1 == tid
  | 2 => k.1 == asid
  | _ => true

/-- Whether a TTINV of a scope names a leaf that the device holds: the aperture's by its ASID, every other by the scope of every ASID
alone (18 R379, R421). -/
def ttinvDev (scope asid : Nat) (k : Nat × Nat × Nat) : Bool := (scope == 2 && k.1 == apertureTag + asid) || decide (3 ≤ scope)

/-- A TTINV performed: leaves, interior entries and descriptors dropped in every cache, and commands on absent tiles walk again (16
R359; 11 R422). -/
def State.ttinvDo (s : State) (scope asid tid tile : Nat) : State :=
  let s1 := s.dropTile (ttinvNames scope asid tid tile)
  { s1 with
    spcs := s1.spcs.map fun (e : Nat × Spc) => (e.1, { e.2 with nodes := e.2.nodes.filter fun n => !ttinvNode scope asid tid tile n.1 })
    devTlb := s1.devTlb.filter fun e => !ttinvDev scope asid e.1
    cores := s1.cores.map fun (e : Nat × Core) => (e.1, { e.2 with
      dcache := e.2.dcache.filter fun d => !(match scope with
        | 0 => d.1 == (asid, tid)
        | 1 => d.1 == (asid, tid)
        | 2 => d.1.1 == asid
        | _ => true) })
    cmds := s1.cmds.map fun (e : Nat × EngCmd) => (e.1, if e.2.absent.isSome then { e.2 with retry := true } else e.2)
    subs := s1.subs.map fun (e : Nat × Sub) => (e.1, if e.2.absent.isSome then { e.2 with retry := true } else e.2) }

/-- TTINV_ACKNOWLEDGE (16 R359). -/
def execTtinvAcknowledge (g : Nat) (s : State) : Host.Outcome State Fault Refusal :=
  let c := s.ctx g
  match c.todo with
  | .ttinv scope tid tile :: _ => .next ((s.popTodo g).ttinvDo scope c.space.asid tid tile)
  | _ => .next s

/-- Lines of an instruction cache that overlap a range dropped (16 R360). -/
def Core.dropLines (k : Core) (a n : Nat) : Core :=
  { k with icache := k.icache.filter fun e => !(decide (e.1.2 * 128 < a + n) && decide (a < e.1.2 * 128 + 128)) }

/-- ICINV_ACKNOWLEDGE (16 R360). -/
def execIcinvAcknowledge (g : Nat) (s : State) : Host.Outcome State Fault Refusal :=
  match (s.ctx g).todo with
  | .icinv pkg a n :: _ =>
    let s1 := s.popTodo g
    .next (if n = 0 then s1
      else if pkg then { s1 with cores := s1.cores.map fun (e : Nat × Core) => (e.1, e.2.dropLines a n) }
      else s1.setCore (coreOf g) ((s1.core (coreOf g)).dropLines a n))
  | _ => .next s

/-- The answer to a lock request put into its register, and delivered to a twin; a queued request becomes a wait (13
R283, R285). -/
def State.lockAnswered (s : State) (g : Nat) (name : LockName) (op mode d : Nat) (pc : Word) (slot : Nat) : State :=
  match (s.popTodo g).lkRequest g op name mode with
  | (s1, .status w, fs) => ((s1.lkEffects fs).putS g d w).shareTwin g (w.zeroExtend 128)
  | (s1, .queued n, fs) =>
    let c := s1.ctx g
    (s1.setCtx g { c with todo := .wait (.lock d n) pc slot false :: c.todo }).lkEffects fs

/-- Whether the twin of a context is parked on a lock request. -/
def State.twinParked (s : State) (g : Nat) : Bool :=
  match (s.ctx g).twin with
  | some t => (match (s.ctx t).st, (s.ctx t).wait with | .parked, some (.lock _ _, _, _) => true | _, _ => false)
  | none => false

/-- LOCK_ANSWER (13 R283): a class 2 secondary sends nothing, and continues or parks as its primary does (R285). -/
def execLockAnswer (g : Nat) (s : State) : Host.Outcome State Fault Refusal :=
  let c := s.ctx g
  match c.todo with
  | .lock op name mode d pc slot :: rest =>
    if c.second then
      (match c.delivered 0 with
        | some x => .next ((s.setCtx g { c with todo := rest, shared := c.shared + 1 }).putS g d (x.truncate 64))
        | none => s.event (s.twinParked g) fun s => s.setCtx g { c with todo := .wait (.lock d name) pc slot false :: rest })
    -- a lock operation behind a FENCE waits for what the FENCE names (07 R139)
    else s.event (!s.coreFenced g) fun s => s.lockAnswered g name op mode d pc slot
  | _ => .next s

/-! ### Stalls of issue -/

/-- GRANT_CACHE_REFILL (13 R279): the entry is filled from the home LKM, and the access is checked again. -/
def execGrantCacheRefill (g : Nat) (s : State) : Host.Outcome State Fault Refusal :=
  match (s.ctx g).stall with
  | some (.grant n) =>
    let m := (s.lkm (lkmHome n.asid n.tid)).heldBy n (s.lkId g)
    let s1 := s.unstall g fun _ => true
    .next (if m = 0 || s.woundedId (s.lkId g) then s1 else s1.fillGrant g n m)
  | _ => .next s

/-- MIGRATION_WALK_RETRY (06 R109): the walk is made again with the bundle. -/
def execMigrationWalkRetry (g : Nat) (s : State) : Host.Outcome State Fault Refusal :=
  .next (s.unstall g fun w => w == .moving)

/-- SHADOW_FRAME_COPY_COMPLETE (15 R323): the copy is made and the TST issues again; CONTAINFULL with no frame to be had. -/
def execShadowFrameCopyComplete (g : Nat) (s : State) : Host.Outcome State Fault Refusal :=
  let c := s.ctx g
  match c.stall with
  | some (.frame key slot) =>
    let enforced := match s.walkTile (coreOf g) c.space key.2.1 key.2.2 with
      | .leaf _ w => bits w 57 1 == 1
      | _ => false
    let iv := if enforced && s.coversTile g key then none else some c.openId
    (match (s.unstall g fun _ => true).shadowAdd g key iv with
      | (s1, true) => .next s1
      | (s1, false) => .next (s1.takeTrap g ⟨0x17, 0, c.r.pc, slot, 0, 0, 0, 0, .handler⟩))
  | _ => .next s

/-- Whether an iterative unit ends its occupancy by itself: no result of a context is to come from it (09 R189). -/
def State.unitEnds (s : State) (core unit : Nat) : Bool :=
  (s.core core).iter.contains unit && !((coreCtxs core).any fun g => (s.ctx g).fl.any fun f => f.iter == some unit)

/-- ITERATIVE_UNIT_FREE (09 R189): a unit with a result to come is free when that one lands. -/
def execIterativeUnitFree (core unit : Nat) (s : State) : Host.Outcome State Fault Refusal :=
  let k := s.core core
  s.event (s.unitEnds core unit) fun s =>
    let s1 := s.setCore core { k with iter := k.iter.filter (· != unit) }
    match s1.issuer core with
    | some g => s1.unstall g fun w => w == .iter unit
    | none => s1

/-! ### Translation -/

/-- A leaf put into the tile caches of a core and its SPC, and a descriptor into the core's, the oldest dropped beyond
their sizes (06 R108; log 20). -/
def State.fillTile (s : State) (core asid tid tile leaf : Nat) (desc : Option Desc) : State :=
  let put (cap : Nat) (l : List ((Nat × Nat × Nat) × Nat)) : List ((Nat × Nat × Nat) × Nat) :=
    let r := (l.filter fun e => e.1 != (asid, tid, tile)) ++ [((asid, tid, tile), leaf)]
    r.drop (r.length - cap)
  let k := s.core core
  let d := match desc with
    | some x => let r := (k.dcache.filter fun e => e.1 != (asid, tid)) ++ [((asid, tid), x.w)]; r.drop (r.length - 32)
    | none => k.dcache
  let s1 := s.setCore core { k with tlb := put 256 k.tlb, dcache := d }
  let p := s1.spc (core / 16)
  s1.setSpc (core / 16) { p with tlb := put 8192 p.tlb }

/-- The address space that a core's contexts give an ASID. -/
def State.spaceOn (s : State) (core asid : Nat) : Option Space :=
  ((coreCtxs core).find? fun g => (s.ctx g).st != .free && (s.ctx g).space.asid == asid).map fun g => (s.ctx g).space

/-- The interior entries and the leaf of a walk of an SPC, kept by its walkers (06 R108; log 20). -/
def State.keepNodes (s : State) (spc : Nat) (asid tid tile leafAt : Nat) (l : List (Nat × Nat)) : State :=
  let p := s.spc spc
  let new := l.map fun e => ((asid, tid, e.1, tile / 512 ^ e.1), e.2)
  s.setSpc spc { p with
    nodes := (p.nodes.filter fun e => !new.any fun n => n.1 == e.1) ++ new
    leaves := insertNat leafAt p.leaves }

/-- The spaces that the device's own walkers serve: the aperture's, the system's, those of the queues (18 R379, R421). -/
def State.devSpaceOf (s : State) (n : Nat) : Space :=
  match n with
  | 0 => s.apertureSpace
  | 1 => s.sysSpace
  | n + 2 => dSpace (s.slot n).desc

/-- A walk of the device completes, and a valid leaf fills what it holds (18 R379, R421; 06 R108). -/
def State.devWalk (s : State) (sp : Space) (tile : Nat) : State :=
  match s.walkTile 0 sp 0 tile with
  | .leaf _ w => { s with devTlb := (s.devTlb.filter fun e => e.1 != devKey sp tile) ++ [(devKey sp tile, w)] }
  | _ => s

/-- TILE_WALK_COMPLETE (06 R108, R109): the walk reads the tables as they are, and a valid leaf that is not moving fills the
caches, under a valid and well-formed descriptor. A walk that a PREF began wakes the unit of its tile, and goes on while the tile
moves (R119). Any translation of a task on the core may be cached so; walkers 512 on are the device's (log 20). -/
def execTileWalkComplete (core : Nat) (asid : BitVec 16) (tid : BitVec 20) (tile : Nat) (s : State) :
    Host.Outcome State Fault Refusal :=
  if 512 ≤ core then .next (s.devWalk (s.devSpaceOf (core - 512)) tile)
  else
  let key := (asid.toNat, tid.toNat, tile)
  let k := s.core core
  let done := s.setCore core { k with walks := k.walks.filter (· != key) }
  match s.spaceOn core asid.toNat with
  | none => .next done
  | some sp =>
    let d := s.descMem sp tid.toNat
    let sound := tid.toNat = 0 || d.any fun x => x.valid && !x.malformed
    match s.walkTile core sp tid.toNat tile, s.tableOf core sp tid.toNat with
    | .leaf at' w, some (l, r) =>
      .next (if bits w 56 1 = 1 then s
        else if !sound then done
        else
          let s1 := (done.fillTile core asid.toNat tid.toNat tile w d).keepNodes (core / 16) asid.toNat tid.toNat tile at'
            (s.walkNodes (s.nodeOf core sp tid.toNat tile) tile l r)
          if k.walks.contains key then s1.wake (leafKey w 0) else s1)
    | _, _ => .next done

end Sys2Proof.Machine
end

