-- ==== Sys2Proof/Machine/MatrixEvents.lean ====
section
/-! DEFINITION. The events of the matrix engine (10 R196, R197, R212 to R221). `k` is the place of an operation among
those in flight of the context that issues on the core. -/

namespace Sys2Proof.Machine

/-- The operation that an event names: the context and the operation, not yet landed. -/
def State.mxAt (s : State) (core k : Nat) : Option (Nat × MxOp) :=
  match s.issuer core with
  | some g =>
    (match (s.ctx g).mx[k]? with
      | some o => if o.landed then none else some (g, o)
      | none => none)
  | none => none

/-- Whether a bundle waits in a matrix stall (R196). -/
def Ctx.mxStalled (c : Ctx) : Bool :=
  match c.stall with
  | some (.part _) => true
  | some .rows => true
  | _ => false

/-- The matrix engine runs on for `n` steps of a matrix stall; the bundle then issues again (R196, R197). -/
def State.stallAdvance (s : State) (g n : Nat) : State :=
  let c := { s.ctx g with mstep := (s.ctx g).mstep + n }
  State.orTrap g (match (s.setCtx g c).landAll g c.statusDue with
    | (s1, some t) => (s1, some (s1.withMxTrap g t))
    | (s1, none) =>
      match s1.mxLandDue g (c.mx.length + 1) with
      | (s2, none) => (s2.unstall g fun _ => true, none)
      | r => r)

/-- Engine steps until a part of the engine is free of the operation that it last began. -/
def Ctx.partSteps (c : Ctx) (part : Nat) : Nat :=
  (c.mx.filter fun o => o.part == part && o.eff != .held).foldl (fun n o => max n (o.busyTo - c.mstep)) 0

/-- An operation whose reads waited behind earlier accesses, or at a memory unit, begins, once those are performed, its part is free and no earlier one
waits for that part; bytes found poisoned then are a trap of its bundle (R196; 07 R129, R139; 17 R371). -/
def State.mxBegin (s : State) (g : Nat) (o : MxOp) : State :=
  if s.mxBehind g o.req || (s.ctx g).mxQueued o.req || (s.ctx g).partSteps o.part != 0 then s
  else
    match s.mxHeld g o.req with
    | some pa => s.waitFor (.mx g o.req.bundle) pa
    | none =>
    match o.req.reads.find? fun r => s.poisonedRange r.1 r.2 with
    | some r => (s.logError r.1 2 0 g).trapLate g ⟨0x10, 0, o.req.pc, o.req.slot, o.req.wa, 0, 0, 0, .poison⟩
    | none => (s.mxResume g o).unstall g fun _ => true

/-- Engine steps for which a matrix stall may last without being over: to the freeing of the part that it waits for (R196, R221). -/
def Ctx.stallBound (c : Ctx) : Option Nat :=
  match c.stall with
  | some (.part p) => some (c.partSteps p)
  | _ => none

/-- An operation with one of the opcodes named lands, where it is the next to do so: in a matrix stall, or in the wait of
R64. Otherwise it lands with the bundle at whose engine step it is due (R197). -/
def State.mxEvent (s : State) (core k : Nat) (ops : List Nat) : Host.Outcome State Fault Refusal :=
  match s.mxAt core k with
  | some (g, o) =>
    let c := s.ctx g
    if o.eff == .held then s.event (ops.contains o.req.op) fun s => s.mxBegin g o
    else
    (match c.nextSteps with
      | some n =>
        if !ops.contains o.req.op || o.land.map (· - c.mstep) != some n then .next s
        else if c.mxStalled then s.event (c.stallBound.all fun k => decide (n ≤ k)) fun s => s.stallAdvance g n
        else s.event (c.landing && c.nextLand == some n) fun s => s.waitAdvance g n
      | none => .next s)
  | none => .next s

/-- WEIGHT_BUFFER_CURRENT (R212). -/
def execWeightBufferCurrent (core k : Nat) (s : State) : Host.Outcome State Fault Refusal := s.mxEvent core k [1]

/-- MATRIX_ROWS_LAND (R221). -/
def execMatrixRowsLand (core k : Nat) (s : State) : Host.Outcome State Fault Refusal := s.mxEvent core k [2, 3, 11]

/-- XCHK_COMPLETE (R217). -/
def execXchkComplete (core k : Nat) (s : State) : Host.Outcome State Fault Refusal := s.mxEvent core k [9]

/-- XFIX_COMPLETE (R218). -/
def execXfixComplete (core k : Nat) (s : State) : Host.Outcome State Fault Refusal := s.mxEvent core k [10]

/-- XEPI_CHECK (R215). -/
def execXepiCheck (core k : Nat) (s : State) : Host.Outcome State Fault Refusal := s.mxEvent core k [6, 8]

/-- XACCLD_ROWS_ARRIVE (R214). -/
def execXaccldRowsArrive (core k : Nat) (s : State) : Host.Outcome State Fault Refusal :=
  match s.mxAt core k with
  | some (g, o) =>
    s.event (o.req.op == 7) fun s =>
      if o.eff == .held then s.mxBegin g o
      else
        let s1 := (s.mxLand g o).1
        let c := s1.ctx g
        ((s1.setCtx g { c with mx := c.mx.filter fun x => !x.landed || decide (c.mstep < x.busyTo) }).chainFolds g).unstall g fun _ => c.mxStalled
  | none => .next s

/-- The engine steps that cycles of a matrix stall or of the wait of R64 make, up to the next of its landings and the freeing of a part
that is waited for, which are events (R197). -/
def Ctx.engineRuns (c : Ctx) (cycles : Nat) : Nat :=
  if c.mxStalled then min cycles (min (c.nextSteps.getD cycles) (c.stallBound.getD cycles))
  else if c.landing then min cycles (c.nextLand.getD cycles)
  else 0

/-- Whether the wait of R64 is for an operation that waits for a part to be free (R196, R197). -/
def Ctx.landingOn (c : Ctx) (part : Nat) : Bool :=
  c.landing && c.mx.any (fun o => o.part == part && o.eff == .held) && (c.nextLand.all fun n => decide (c.partSteps part ≤ n))

/-- MATRIX_PART_FREE (R196): in a matrix stall on the part, or in the wait of R64 for an operation that needs it. -/
def execMatrixPartFree (core part : Nat) (s : State) : Host.Outcome State Fault Refusal :=
  match s.issuer core with
  | some g =>
    let c := s.ctx g
    let n := c.partSteps part
    if c.landingOn part then .next (s.waitAdvance g n)
    else s.event (c.stall == some (.part part)) fun s => s.stallAdvance g n
  | none => .next s

end Sys2Proof.Machine
end

