-- ==== Sys2Proof/Machine/EngineOps.lean ====
section
/-! DEFINITION. What the engines share: flags and records set by a completion, places that a command reads or writes,
plans of bits to move, completion counters (04 R70; 11 R225 to R233, R422; 15 R316). -/

namespace Sys2Proof.Machine

/-! ### Places -/

/-- A byte that a command reads or writes: at an address, of an element of a tensor, or of a ring slot. -/
inductive Place where
  /-- A physical key. -/
  | key (pa : Nat)
  /-- A byte address. -/
  | addr (ea : Nat)
  /-- Tensor, rank less 1, tile, byte in the tile, and the coordinates of the element. -/
  | elem (tid rk tile off c0 c1 c2 c3 : Nat)
  deriving DecidableEq, Repr

/-- How a command's access ends (11 R230, R422). -/
inductive Eng (α : Type) where
  /-- It names what it should. -/
  | ok (x : α)
  /-- An engine fault. -/
  | fault (f : EngFault)
  /-- It meets an absent tile: TID, tile, faulting address. -/
  | absent (key : Nat × Nat × Nat)
  /-- The tile moves, and the walk goes on; or the memory unit of a key holds the access back (17 R364 to R368). -/
  | moving (pa : Option Nat)
  deriving DecidableEq, Repr

/-- What a fault at a place names. -/
def Place.fault (p : Place) (kind : Nat) : EngFault :=
  match p with
  | .key pa => EngFault.at' kind (pa % 2 ^ 20)
  | .addr ea => EngFault.at' kind ea
  | .elem tid rk tile _ c0 c1 c2 c3 => ⟨kind, tid, rk, tile * 2 ^ 16, c0 + 2 ^ 32 * c1, c2 + 2 ^ 32 * c3, none⟩

/-- The tile that an engine accesses: R101 steps 3 to 5, where an absent tile is waited for (R230, R422). -/
def State.engTile (s : State) (c : Cmd) (p : Place) (tid tile off va : Nat) (a : Acc) : Eng Nat :=
  match s.checkTile c.g false c.space tid tile off a va with
  | .ok pa => .ok pa
  | .wait _ => .moving none
  | .bad cause _ =>
    if cause = 0x06 then .absent (tid, tile, va) else .fault (p.fault (if cause = 0x10 then 3 else 1))

/-- A command as one that another context issued. -/
def Cmd.forTwin (c : Cmd) (t : Nat) (d : Ctx) : Cmd := { c with g := t, home := d.al.home, pos := d.al.pos }

/-- The key of a place (R228, R230); COLL and FPUT move no data through another core's window (R243, R244; kind 1). -/
def State.engKey (s : State) (c : Cmd) (p : Place) (a : Acc) : Eng Nat :=
  match p with
  | .key pa => .ok pa
  | .addr ea =>
    let r := regionOf ea
    if r = 0 then .ok (pkLsp (coreOf c.g) ea)
    else if 2 ≤ r && r ≤ 5 then
      let k := windowCore (coreOf c.g) c.home c.pos (r - 2)
      if (c.op == .coll || c.op == .fput) && a != .add && k != coreOf c.g then .fault (p.fault 1)
      else .ok (pkLsp k ((ea - 0x1000000) % 0x400000))
    else if r = 10 then s.engTile c p 0 (ea / 2 ^ 16) (ea % 2 ^ 16) ea a
    else .fault (p.fault 2)
  | .elem tid _ tile off _ _ _ _ => s.engTile c p tid tile off (tile * 2 ^ 16) a

/-- The key of a byte of another package at an address: its leaf has NODE = 3 (11 R244). -/
def State.remoteKey (s : State) (c : Cmd) (ea : Nat) (a : Acc) : Eng Nat :=
  let p := Place.addr ea
  if regionOf ea ≠ 10 then .fault (p.fault (if isLocal ea then 1 else 2))
  else
    match s.leafOf (coreOf c.g) c.space 0 (ea / 2 ^ 16) with
    | .absent => .absent (0, ea / 2 ^ 16, ea)
    | .malformed => .fault (p.fault 1)
    | .poisoned => .fault (p.fault 3)
    | .leaf _ w =>
      if bits w 56 1 = 1 then .moving none
      else if bits w 58 2 ≠ 3 || bits w 57 1 = 1 || bits w (if a = .read then 62 else 61) 1 = 0 then .fault (p.fault 1)
      else .ok (leafKey w (ea % 2 ^ 16))

/-- Whether the fabric has no live link to another package: all are dead, or not yet trained (11 R244; 18 R381, R391). -/
def State.unreachable (s : State) : Bool := decide (s.msc.boot < 6) || (List.range 26).all fun i => (s.link i).dead

/-! ### Plans -/

/-- Some bits to move: from a place or as a value, to a place or nowhere; `n` bits from bit `i` of the first byte. -/
structure BitMove where
  /-- Source and bit, or the value. -/
  src : (Place × Nat) ⊕ Nat
  /-- Destination and bit. -/
  dst : Option (Place × Nat)
  /-- Number of bits: a multiple of 8 from bit 0, or within one byte. -/
  n : Nat
  deriving DecidableEq, Repr

/-- Bytes that hold `n` bits from a bit on. -/
def bitBytes (i n : Nat) : Nat := (i + n + 7) / 8

/-- The key of a move's destination; none where it goes nowhere. -/
def State.moveKey (s : State) (c : Cmd) (remote : Bool) (b : BitMove) : Option (Eng Nat) :=
  b.dst.map fun d =>
    match remote, d.1 with
    | true, .addr ea => s.remoteKey c ea .write
    | _, p => s.engKey c p .write

/-- One move of the request `q` as a write; none where it goes nowhere (R229, R231). -/
def State.engMove (s : State) (q : MemReq) (c : Cmd) (remote : Bool) (b : BitMove) : Eng (Option BitWrite) :=
  let src : Eng Nat := match b.src with
    | .inr x => .ok x
    | .inl (p, i) =>
      match s.engKey c p .read with
      | .ok pa =>
        if s.holdsBack q pa then .moving (some pa)
        else if s.poisonedRange pa (bitBytes i b.n) then .fault { p.fault 3 with log := some pa }
        else .ok (bits (leNat (s.peekFor c pa (bitBytes i b.n))) i b.n)
      | .fault f => .fault f
      | .absent k => .absent k
      | .moving k => .moving k
  match src with
  | .fault f => .fault f
  | .absent k => .absent k
  | .moving k => .moving k
  | .ok x =>
    match b.dst with
    | none => .ok none
    | some (_, i) =>
      match s.moveKey c remote b with
      | some (.ok pa) => if s.holdsBack q pa then .moving (some pa) else .ok (some (pa, i, b.n, x))
      | some (.fault f) => .fault f
      | some (.absent k) => .absent k
      | some (.moving k) => .moving k
      | none => .moving none

/-- The 8-byte granule that a move's destination lies in. -/
def State.moveGranule (s : State) (c : Cmd) (remote : Bool) (b : BitMove) : Option Nat :=
  match s.moveKey c remote b with
  | some (.ok pa) => some (pa / 8)
  | _ => none

/-- How far a plan comes: the writes before its end, how it ends, and the granules that its end leaves unfinished, those of the
moves from there on (R229). -/
def State.engRun (s : State) (q : MemReq) (c : Cmd) (remote : Bool) : List BitMove → List BitWrite × Eng Unit × List Nat
  | [] => ([], .ok (), [])
  | b :: r =>
    match s.engMove q c remote b with
    | .ok w => let (ws, e, k) := s.engRun q c remote r; (w.toList ++ ws, e, k)
    | .fault f => ([], .fault f, (b :: r).filterMap (s.moveGranule c remote))
    | .absent k => ([], .absent k, (b :: r).filterMap (s.moveGranule c remote))
    | .moving k => ([], .moving k, [])

/-- The writes of the granules that come wholly before the end of a plan: neither the one whose read or write fails nor a later one
is written (R229). -/
def beforeGranule (ws : List BitWrite) (rest : List Nat) : List BitWrite := ws.filter fun w => !rest.contains (w.1 / 8)

/-! ### Counters and completion -/

/-- A counter in an LSP advanced for the secondary too, by a command that its primary performs for both (15 R316). -/
def State.twinCounter (s : State) (c : Cmd) (p : Place) (pa n : Nat) : State :=
  match (s.ctx c.g).twin with
  | some t =>
    if c.perTwin || !isLsp pa then s
    else
      (match s.engKey (c.forTwin t (s.ctx t)) p .add with
        | .ok q => (s.caddAt t q n).1
        | _ => s)
  | none => s

/-- The completion counter of a command advanced, or the fault it ends with (R229); an FPUT may name a remote one. -/
def State.engCounter (s : State) (q : MemReq) (c : Cmd) : Eng State :=
  match c.ctr with
  | none => .ok s
  | some (a, n) =>
    let p := Place.addr a.toNat
    let key : Eng Nat := match c.op, s.engKey c p .add with
      | _, .ok pa => .ok pa
      | .fput, .fault _ => s.remoteKey c a.toNat .write
      | _, r => r
    match key with
    | .fault f => .fault f
    | .absent k => .absent k
    | .moving k => .moving k
    | .ok pa =>
      -- a counter outside the LSPs is advanced once, by the primary (15 R316)
      if c.perTwin && (s.ctx c.g).second && !isLsp pa then .ok s
      else if s.holdsBack q pa then .moving (some pa)
      else
        match s.caddAt c.g pa n with
        | (s1, true) => .ok (s1.twinCounter c p pa n)
        | (_, false) => .fault { p.fault 3 with log := some pa }

/-- A command that has come to its end leaves its engine. -/
def State.dropCmd (s : State) (i : Nat) : State := { s with cmds := s.cmds.erase i }

/-- The contexts that a command's completion is set in (15 R316). -/
def State.cmdTold (s : State) (c : Cmd) : List Nat := s.told c.g (!c.perTwin)

/-- A command ends with a fault (R229, R230). -/
def State.endFault (s : State) (i : Nat) (e : EngCmd) (f : EngFault) : State :=
  let s1 := s.dropCmd i
  if e.dead then s1
  else s1.postFault (s1.cmdTold e.c) e.c.opc e.c.xcl e.c.fe e.c.flag f

/-- The IOC that posts the records of a command's task. -/
def State.cmdIoc (s : State) (c : Cmd) : Nat := s.iocOf c.g

/-- A command waits on an absent tile behind the writes that come before, and the host is told of it once (R422). -/
def State.awaitTile (s : State) (i : Nat) (e : EngCmd) (k : Nat × Nat × Nat) (before : List BitWrite) : State :=
  let known := e.told.any fun x => x.1 == k.1 && x.2.1 == k.2.1
  let s1 := { s with cmds := s.cmds.set i { e with
    absent := some k, retry := false, before := before, told := if known then e.told else e.told ++ [k] } }
  if known then s1
  else
    let arg0 := if k.1 = 0 then k.2.2 else k.2.1 + 2 ^ 41 * k.1
    s1.postHost (s.cmdIoc e.c) ⟨13, 0, 0, (s.ctx e.c.g).tgcid, arg0, e.c.asid + (if k.1 = 0 then 0 else 2 ^ 16)⟩

/-- The 8-byte granules that a place of a plan lies in. -/
def State.placeGrains (s : State) (c : Cmd) (remote : Bool) (a : Acc) (p : Place × Nat) (n : Nat) : List Nat :=
  let key := match remote, p.1 with
    | true, .addr ea => s.remoteKey c ea a
    | _, q => s.engKey c q a
  match key with
  | .ok pa => (List.range ((pa + bitBytes p.2 n - 1) / 8 - pa / 8 + 1)).map (pa / 8 + ·)
  | _ => []

/-- The granules that a plan reads. -/
def State.readGrains (s : State) (c : Cmd) (plan : List BitMove) : List Nat :=
  (plan.flatMap fun b => match b.src with | .inl p => s.placeGrains c false .read p b.n | .inr _ => []).eraseDups

/-- A command that a unit holds back waits there; one whose tile moves walks on (06 R109; 17 R368). -/
def State.engWaits (s : State) (q : MemReq) : Option Nat → State
  | some pa => s.waitFor q pa
  | none => s

/-- A command's plan run to its end, in order: its payload, its counter, its flag; or a fault, or a wait on an absent
tile (R229, R422). -/
def State.finishPlan (s : State) (i : Nat) (e : EngCmd) (remote : Bool) (plan : List BitMove) : State :=
  let c := e.c
  let q := MemReq.cmd i
  match s.engRun q c remote plan with
  | (_, .moving k, _) => s.engWaits q k
  | (ws, .absent k, gr) => if e.dead then (s.performWrites c.g (beforeGranule ws gr)).dropCmd i else s.awaitTile i e k (beforeGranule ws gr)
  | (ws, .fault f, gr) => (s.performWrites c.g (beforeGranule ws gr)).endFault i e f
  | (ws, .ok _, _) =>
    match ((s.countReads c.g ((s.readGrains c plan).map (8 * ·))).performWrites c.g ws).engCounter q c with
    | .ok s1 =>
      let s2 := s1.dropCmd i
      if e.dead || !c.fe then s2
      else (s2.cmdTold c).foldl (fun s g => s.setFlags g (BitVec.ofNat 17 (2 ^ c.flag))) s2
    | .fault f => (s.performWrites c.g ws).endFault i e f
    | .absent k => if e.dead then (s.performWrites c.g ws).dropCmd i else s.awaitTile i e k ws
    | .moving k => s.engWaits q k

end Sys2Proof.Machine
end

