-- ==== Sys2Proof/Machine/ReleaseEvents.lean ====
section
/-! DEFINITION. What an entry of the store containment buffer does when it is released (07 R135 to R139; 11 R225, R240,
R241; 12 R248 to R264; 13 R284; 15 R316, R321; 16 R358). -/

namespace Sys2Proof.Machine

/-! ### Entries -/

/-- Whether an entry returns a value to a register (12 R248). -/
def Entry.returning (e : Entry) : Bool := e.op.returns

/-- Whether an entry is a FENCE marker. -/
def Entry.marker (e : Entry) : Bool := e.op.fences

/-- The entry of a context that may be released: the first, once its interval has agreed and no duplicate compare issued
before it is pending (02 R35; 07 R135). -/
def Ctx.releasable (c : Ctx) : Option Entry :=
  match c.scb with
  | [] => none
  | e :: _ =>
    let held := c.ivs.any fun i => i.id == e.iv && !i.agreed
    let compare := c.fl.any fun f => f.res == .none && (decide (f.bundle < e.bundle) || (f.bundle == e.bundle && decide (f.slot < e.slot)))
    if held || compare then none else some e

/-- The first entry of a context leaves the buffer. -/
def State.popEntry (s : State) (g : Nat) : State :=
  let c := s.ctx g
  s.setCtx g { c with scb := c.scb.tail }

/-- Whether a command reads or writes memory under a lock name: one of a tensor handle under a name of its tensor, one
of flat addresses under a name of tensor 0 (07 R137). -/
def Cmd.under (c : Cmd) (n : LockName) : Bool :=
  c.asid == n.asid &&
    match c.op with
    | .cpyH | .cpypH | .subsLoad | .subsStore => hTid (BitVec.ofNat 256 c.nh) == n.tid
    | .cpyA | .cpypA | .cpyw | .coll | .fput | .attq | .xaccst | .xepi | .klaunch => n.tid == 0
    | _ => false

/-- Whether a context still has accesses to perform to the object of a lock, of the entries, commands and X operations before (07
R137); an X operation reads flat addresses, those of tensor 0. -/
def State.lockBusy (s : State) (g : Nat) (n : LockName) : Bool :=
  let c := s.ctx g
  c.flying != [] || s.cmds.any (fun (e : Nat × EngCmd) => c.owns g e.2.c.g && !e.2.dead && e.2.c.under n) ||
    s.subs.any (fun (e : Nat × Sub) => c.owns g e.2.c.g && e.2.c.under n) ||
    (n.tid == 0 && c.asid.toNat == n.asid && c.mx.any fun o => o.eff == .held)

/-- The locks that a context's task holds. -/
def State.locksHeld (s : State) (g : Nat) : List LockName :=
  (List.range 8).flatMap fun k => ((s.lkm k).ents.filter fun e => e.age == s.lkId g && e.held != 0).map (·.name)

/-- Whether the twin of a context has still to release a lock operation of an interval that has agreed (13 R285). -/
def State.twinToRelease (s : State) (g : Nat) (op : EntOp) : Bool :=
  match (s.ctx g).twin with
  | some t =>
    let d := s.ctx t
    d.scb.any fun x => x.op == op && !(d.ivs.any fun i => i.id == x.iv && !i.agreed)
  | none => false

/-- Whether the release of an entry must wait: that of a lock for the accesses to its object (07 R137), a secondary's
downgrade or release for its primary's, a request for room in the queue of a unit that is held (17 R368). -/
def State.releaseWaits (s : State) (g : Nat) (e : Entry) : Bool :=
  let second := (s.ctx g).follows (some e.iv)
  s.queueFull g e ||
  match e.op with
  | .lkrel n => s.lockBusy g n || (second && s.twinToRelease g e.op)
  | .lkdwn n _ => s.lockBusy g n || (second && s.twinToRelease g e.op)
  | .lkrelAll => (s.ctx g).flying != [] || (s.locksHeld g).any (s.lockBusy g)
  | _ => false

/-- Whether the first entry of a context may be released by SCB_RELEASE. -/
def State.canRelease (s : State) (g : Nat) : Bool :=
  match (s.ctx g).releasable with
  | some e => !e.marker && !e.returning && !s.releaseWaits g e
  | none => false

/-- The operation on its way that is performed next: one of those that may be (log 57). -/
def State.nextFlying (s : State) (g : Nat) : Option (Nat × Entry) :=
  let l := (s.ctx g).flying
  let is := s.mayPerform g [] l 0
  (is[Config.pick (s.ticks + 1) % max 1 is.length]?).bind fun i => (l[i]?).map fun e => (i, e)

/-- Whether SCB_RELEASE may happen. -/
def State.canPerform (s : State) (g : Nat) : Bool := s.canRelease g || (s.nextFlying g).isSome

/-- An operation on its way performed at its home. -/
def State.performNext (s : State) (g : Nat) : State :=
  match s.nextFlying g with
  | some (i, e) => let c := s.ctx g; (s.setCtx g { c with flying := c.flying.eraseIdx i }).performEntry g e
  | none => s

/-- The first entry of a context released. -/
def State.releaseHead (s : State) (g : Nat) : State :=
  match (s.ctx g).releasable with
  | some e => ((s.popEntry g).releaseEntry g e).unstall g fun w => w == .busy
  | none => s

/-- SCB_RELEASE (07 R135): the first entry is released, or an operation released before is performed at its home; where
both may happen, freely (07 R128; log 57). -/
def execScbRelease (g : Nat) (s : State) : Host.Outcome State Fault Refusal :=
  if (s.nextFlying g).isSome && (!s.canRelease g || Config.freeBool (s.ticks + g)) then .next (s.performNext g)
  else s.event (s.canRelease g) fun s => s.releaseHead g

/-- Whether a FENCE marker's condition is met: no access of its context on the earlier paths is still to be performed
(07 R139, R140). -/
def State.markerMet (s : State) (g : Nat) : Bool :=
  let c := s.ctx g
  match c.releasable with
  | some e => (match e.op with | .fence bef _ => !s.pathOpen g bef e.bundle | _ => false)
  | none => false

/-- FENCE_MARKER_RELEASE (07 R139). -/
def execFenceMarkerRelease (g : Nat) (s : State) : Host.Outcome State Fault Refusal :=
  s.event (s.markerMet g) fun s => (s.popEntry g).unstall g fun w => w == .busy

/-! ### Returning operations -/

/-- The mark in a value delivered to a secondary that says the primary met an uncorrectable error (MODEL). -/
def poisonMark : BitVec 128 := BitVec.ofNat 128 (2 ^ 127)

/-- A trap put after the checkpoint copy in what is left of a bundle (12 R256). -/
def afterCopy (t : TrapReq) : List Tail → List Tail
  | [] => [.trap t]
  | .copy :: r => .copy :: .trap t :: r
  | x :: r => x :: afterCopy t r

/-- The trap of a returning operation whose read was uncorrectable (12 R256). -/
def State.returnPoison (s : State) (g : Nat) (e : Entry) : State :=
  let c := s.ctx g
  s.setCtx g { c with todo := afterCopy ⟨0x10, 0, e.pc, e.slot, e.va, 0, 0, 0, .handler⟩ c.todo }

/-- What a returning entry does at its home: the value, or none on an uncorrectable read; and its destination. -/
def State.returnAt (s : State) (g : Nat) (e : Entry) : State × Option Nat × Nat :=
  match e.op with
  | .atomic op pa n x ex d =>
    if (s.ctx g).performs e.iv pa then let r := s.atomAt g op pa n x ex; (r.1, r.2, d) else (s, none, d)
  | .barv pa n d => let r := s.barvAt g pa n; (r.1, r.2, d)
  | _ => (s, none, 0)

/-- The returning entry that is next: its interval has agreed, the context waits for it, and what it may not pass has been
performed (12 R248; 07 R129, R137). -/
def State.returnNext (s : State) (g : Nat) : Option Entry :=
  let c := s.ctx g
  match c.todo, c.releasable with
  | .agree :: _, some e =>
    if c.allAgreed && e.returning && (!c.follows (some e.iv) || (c.delivered 0).isSome) &&
        c.flying.all (fun x => x.op.passes (coreOf g) e.op)
    then some e else none
  | _, _ => none

/-- The returning entry that is due: its units serve it too (17 R368). -/
def State.returnDue (s : State) (g : Nat) : Option Entry :=
  (s.returnNext g).filter fun e => s.serves g e && !e.op.ranges.any fun r => s.holdsBack (e.req g) r.1

/-- A returning entry that its units hold back joins their queues (17 R368). -/
def State.returnArrives (s : State) (g : Nat) : State :=
  match s.returnNext g with
  | some e => s.joinQueues g e
  | none => s

/-- RETURNING_OP_COMPLETE (12 R248, R249, R256): the value lands in both twins, or the context traps after its copy. -/
def execReturningOpComplete (g : Nat) (s : State) : Host.Outcome State Fault Refusal :=
  let c := s.ctx g
  match s.returnDue g with
  | none => .next (s.returnArrives g)
  | some e =>
    match (((s.popEntry g).keepOld g e.bundle e.op.ranges).leave (e.req g)).returnAt g e with
    | (s1, r, d) =>
      if c.follows (some e.iv) then
        let x := (c.delivered 0).getD 0
        let s2 := s1.setCtx g { s1.ctx g with shared := c.shared + 1 }
        .next (if x == poisonMark then s2.returnPoison g e else s2.putS g d (x.truncate 64))
      else
        match r with
        | some v => .next ((s1.putS g d (BitVec.ofNat 64 v)).giveTwin g (BitVec.ofNat 128 v))
        | none => .next ((s1.returnPoison g e).giveTwin g poisonMark)

end Sys2Proof.Machine
end

