-- ==== Sys2Proof/Machine/CopyEvents.lean ====
section
/-! DEFINITION. The copy engine, the weight decompressor and the output stage of the matrix engine (10 R214, R216; 11
R229 to R235). -/

namespace Sys2Proof.Machine

/-- Whether a command may act: it waits on no absent tile, or may walk again (11 R422). -/
def EngCmd.ready (e : EngCmd) : Bool := e.absent.isNone || e.retry

/-- The tensor handle of a command. -/
def Cmd.handle (c : Cmd) : BitVec 256 := BitVec.ofNat 256 c.nh

/-- A fault at a handle's coordinates. -/
def handleFault (n : BitVec 256) (kind : Nat) : EngFault :=
  ⟨kind, hTid n, hRank n, 0, hCoord n 0 + 2 ^ 32 * hCoord n 1, hCoord n 2 + 2 ^ 32 * hCoord n 3, none⟩

/-- The descriptor of a command's tensor as its engine finds it (11 R230, R231). -/
def State.engDesc (s : State) (c : Cmd) (n : BitVec 256) : Except EngFault Desc :=
  let tid := hTid n
  let key := pkHbm (c.ttb + 64 * tid)
  if tid = 0 then .error (handleFault n 1)
  else if s.descPoisoned (coreOf c.g) c.space tid then .error { handleFault n 3 with log := some key }
  else
    match s.desc (coreOf c.g) c.space tid with
    | none => .error (handleFault n 1)
    | some d =>
      if !d.valid then .error (handleFault n 2)
      else if d.malformed || hRank n + 1 ≠ d.rank then .error (handleFault n 1)
      else .ok d

/-- Bit `b` of the element at offsets from a handle's coordinates; none where it is clipped (11 R231, R241). -/
def boxPlace (n : BitVec 256) (d : Desc) (i j k b : Nat) : Option (Place × Nat) :=
  let co (x : Nat) : Nat := hCoord n x + (if x = 0 then i else if x = 1 then j else if x = 2 then k else 0)
  if (List.range d.rank).any fun x => decide (d.ext x ≤ co x) then none
  else
    let off := d.bitOff co b
    some (.elem (hTid n) (d.rank - 1) (d.tile co) (off / 8) (co 0) (co 1) (co 2) (co 3), off % 8)

/-- A bit at an address. -/
def addrBit (ea bit : Nat) : Place × Nat := (.addr (ea + bit / 8), bit % 8)

/-- A move between a tensor element and a bit of the LSP: into the LSP a clipped element is zero, out of it nothing
(11 R231). -/
def boxMove (out : Bool) (t : Option (Place × Nat)) (l : Place × Nat) (n : Nat) : Option BitMove :=
  match out, t with
  | false, some p => some ⟨.inl p, some l, n⟩
  | false, none => some ⟨.inr 0, some l, n⟩
  | true, some p => some ⟨.inl l, some p, n⟩
  | true, none => none

/-- The pad bits of a row, zero for a copy into the LSP (11 R231). -/
def padMoves (out : Bool) (ea bits rb : Nat) : List BitMove :=
  if out then [] else (List.range (8 * rb - bits)).map fun i => ⟨.inr 0, some (addrBit ea (bits + i)), 1⟩

/-- Whether c2 or c3 lies beyond its extent (11 R231). -/
def highBeyond (n : BitVec 256) (d : Desc) : Bool :=
  (List.range d.rank).any fun x => decide (2 ≤ x) && decide (d.ext x ≤ hCoord n x)

/-- The plan of CPY of a tensor box (11 R231). -/
def State.planCpyH (s : State) (c : Cmd) : Except EngFault (List BitMove) :=
  let n := c.handle
  let ctl := c.ctl
  match s.engDesc c n with
  | .error f => .error f
  | .ok d =>
    if (d.rank < 2 && ctlN1 ctl ≠ 1) || d.layout = 1 then .error (handleFault n 1)
    else if highBeyond n d then .error (handleFault n 2)
    else
      let w := 2 ^ d.eb
      let out := ctlOut ctl
      let rb := rowBytes (ctlN0 ctl) w
      .ok ((List.range (ctlN1 ctl)).flatMap fun j =>
        let row := c.w 0 + j * rowPitch ctl rb
        ((List.range (ctlN0 ctl)).filterMap fun i => boxMove out (boxPlace n d i j 0 0) (addrBit row (i * w)) w) ++
          padMoves out row (ctlN0 ctl * w) rb)

/-- The plan of CPY between addresses (11 R231). -/
def planCpyA (c : Cmd) : List BitMove :=
  (List.range (2 * ctlN0 c.ctl)).map fun i =>
    let l : Place × Nat := (.addr (c.w 0 + 8 * i), 0)
    let m : Place × Nat := (.addr (c.w 1 + 8 * i), 0)
    if ctlOut c.ctl then ⟨.inl l, some m, 64⟩ else ⟨.inl m, some l, 64⟩

/-- The bit of a plane block that holds encoding bit `b` of element `i` of row `j` (10 R198, 11 R232). -/
def planePlace (c : Cmd) (w i j b : Nat) : Place × Nat :=
  (.addr (c.w 0 + (i / 128 * ctlN1 c.ctl + j) * (16 * w) + 16 * (w - 1 - b) + i % 128 / 8), i % 8)

/-- Every bit of a box in the order of R229: row, element, bit. -/
def boxBits (ctl w : Nat) (f : Nat → Nat → Nat → Option BitMove) : List BitMove :=
  (List.range (ctlN1 ctl)).flatMap fun j => (List.range (ctlN0 ctl)).flatMap fun i => (List.range w).filterMap (f i j)

/-- The plan of CPYP of a tensor box (11 R232). -/
def State.planCpypH (s : State) (c : Cmd) : Except EngFault (List BitMove) :=
  let n := c.handle
  let ctl := c.ctl
  let w := planeWidth ctl
  match s.engDesc c n with
  | .error f => .error f
  | .ok d =>
    if (d.rank < 2 && ctlN1 ctl ≠ 1) || (d.layout = 1 && hCoord n 0 % 128 ≠ 0) then .error (handleFault n 1)
    else if highBeyond n d then .error (handleFault n 2)
    else if 2 ^ d.eb ≠ w then .error (handleFault n 5)
    else
      let pitch := rowPitch ctl (rowBytes (ctlN0 ctl) w)
      .ok (boxBits ctl w fun i j b =>
        boxMove (ctlOut ctl) (boxPlace n d i j 0 b)
          (if d.layout = 1 then addrBit (c.w 0 + j * pitch) (i * w + b) else planePlace c w i j b) 1)

/-- The plan of CPYP between addresses: packed rows, and plane blocks in the LSP (11 R232). -/
def planCpypA (c : Cmd) : List BitMove :=
  let w := planeWidth c.ctl
  let rb := rowBytes (ctlN0 c.ctl) w
  boxBits c.ctl w fun i j b => boxMove (ctlOut c.ctl) (some (addrBit (c.w 1 + j * rb) (i * w + b))) (planePlace c w i j b) 1

/-- The plan of a copy. -/
def State.copyPlan (s : State) (c : Cmd) : Except EngFault (List BitMove) :=
  match c.op with
  | .cpyH => s.planCpyH c
  | .cpyA => .ok (planCpyA c)
  | .cpypH => s.planCpypH c
  | _ => .ok (planCpypA c)

/-- Whether a command is a copy. -/
def Cmd.isCopy (c : Cmd) : Bool := c.op == .cpyH || c.op == .cpyA || c.op == .cpypH || c.op == .cpypA

/-- The 128-B lines that a plan writes, as far as its destinations translate. -/
def State.planLines (s : State) (c : Cmd) (remote : Bool) (plan : List BitMove) : List Nat :=
  (plan.filterMap fun b => match b.dst with
    | some (.addr ea, _) =>
      (match (if remote then s.remoteKey c ea .write else s.engKey c (.addr ea) .write) with | .ok pa => some (pa / 128) | _ => none)
    | some (p, _) => (match s.engKey c p .write with | .ok pa => some (pa / 128) | _ => none)
    | none => none).eraseDups

/-- The lines that a copy writes. -/
def State.copyLines (s : State) (c : Cmd) : List Nat :=
  match s.copyPlan c with
  | .ok p => s.planLines c false p
  | .error _ => []

/-- The granules that a plan reads, and those that it writes. -/
def State.planGrains (s : State) (c : Cmd) (remote : Bool) (plan : List BitMove) : List Nat × List Nat :=
  (s.readGrains c plan,
    (plan.flatMap fun b => match b.dst with | some p => s.placeGrains c remote .write p b.n | none => []).eraseDups)

/-- Whether two accesses of one context on one path meet at some granule, and so keep their order (07 R129). -/
def grainsMeet (a b : List Nat × List Nat) : Bool := (a.1 ++ a.2).any fun x => b.1.contains x || b.2.contains x

/-- Whether a later copy keeps the order of an earlier one of its context: they meet otherwise than by the later one's reads of what
the earlier one writes, which are not ordered (11 R233, R234; 07 R129). -/
def copiesMeet (a b : List Nat × List Nat) : Bool :=
  a.1.any (fun x => b.1.contains x || b.2.contains x) || a.2.any b.2.contains

/-- The granules of a copy; none where its engine will end it with a fault. -/
def State.copyGrains (s : State) (c : Cmd) : Option (List Nat × List Nat) :=
  match s.copyPlan c with
  | .ok p => some (s.planGrains c false p)
  | .error _ => none

/-- Whether a copy may end before those that its engine accepted earlier: it writes no line of theirs, and keeps the order
of its own context's copies that meet it or end with a fault (07 R129; 11 R233, R246). -/
def State.copyTurn (s : State) (e : EngCmd) : Bool :=
  s.cmds.all fun (x : Nat × EngCmd) =>
    !(x.2.c.isCopy && coreOf x.2.c.g == coreOf e.c.g && decide (x.2.order < e.order)) ||
    (!((s.copyLines x.2.c).any fun l => (s.copyLines e.c).contains l) &&
      (x.2.c.g != e.c.g ||
        match s.copyGrains x.2.c, s.copyGrains e.c with
        | some a, some b => !copiesMeet a b
        | _, _ => false))

/-- COPY_COMPLETE (11 R229 to R233): the copy is made and completes, ends with an engine fault, or waits on an absent
tile. -/
def execCopyComplete (i : Nat) (s : State) : Host.Outcome State Fault Refusal :=
  match s.cmds.find? i with
  | none => .next s
  | some e =>
    s.event (e.c.isCopy && e.ready && s.copyTurn e) fun s =>
      match s.copyPlan e.c with
      | .error f => s.endFault i e f
      | .ok p => s.finishPlan i e false p

/-! ### Weight streaming -/

/-- The keys of the words that a command reads from addresses, in order (11 R229). -/
def State.engKeys (s : State) (q : MemReq) (c : Cmd) (ea : Nat) : Nat → Eng (List Nat)
  | 0 => .ok []
  | n + 1 =>
    let p := Place.addr ea
    match s.engKey c p .read with
    | .fault f => .fault f
    | .absent k => .absent k
    | .moving k => .moving k
    | .ok pa =>
      if s.holdsBack q pa then .moving (some pa)
      else if s.poisonedRange pa 8 then .fault { p.fault 3 with log := some pa }
      else
        match s.engKeys q c (ea + 8) n with
        | .ok r => .ok (pa :: r)
        | e => e

/-- The bytes of words as a command reads them. -/
def State.wordsFor (s : State) (c : Cmd) (ks : List Nat) : List Byte := ks.flatMap fun pa => s.peekFor c pa 8

/-- The dense or sparse image that present planes stand for: the bytes that XWLD would read (10 R201, 11 R235). -/
def expandImage (planes : List Byte) (masks : List Byte) (pmask w per : Nat) : List Byte :=
  let plane (n j : Nat) : List Byte :=
    if bits pmask j 1 = 0 then List.replicate per 0
    else
      let before := ((List.range j).filter fun x => bits pmask x 1 == 1).length
      (planes.drop (before * (128 * per) + n * per)).take per
  ((List.range 128).flatMap fun n => (List.range w).flatMap (plane n)) ++ masks

/-- What CPYW makes of an image: the buffer, and the keys of the words read (11 R235). -/
def State.readCompressed (s : State) (q : MemReq) (c : Cmd) : Eng (WBuf × List Nat) :=
  let ea := c.w 0
  if regionOf ea ≠ 10 then .fault (EngFault.at' (if isLocal ea then 1 else 2) ea)
  else
    match s.engKeys q c ea 2 with
    | .fault f => .fault f
    | .absent k => .absent k
    | .moving k => .moving k
    | .ok ks =>
      let h := leNat (s.wordsFor c ks)
      let fmt := cfgFmt c.cfg
      let sp := cfgSp c.cfg
      let w := blockSize fmt / 16
      let pm := bits h 0 16
      if bits h 16 3 ≠ fmt || (bits h 19 1 == 1) != sp || 2 ^ w ≤ pm then .fault (EngFault.at' 5 ea)
      else
        let per := if sp then 8 else 16
        let np := ((List.range 16).filter fun j => bits pm j 1 == 1).length
        let size := np * (128 * per)
        match s.engKeys q c (ea + 128) ((size + if sp then 2048 else 0) / 8) with
        | .fault f => .fault f
        | .absent k => .absent k
        | .moving k => .moving k
        | .ok ls =>
          let body := s.wordsFor c ls
          let img := expandImage (body.take size) (body.drop size) pm w per
          match readImage img fmt sp (BitVec.ofNat 32 (bits h 32 32)) with
          | (b, none) => .ok (b, ks ++ ls)
          | (_, some off) => .fault (EngFault.at' 1 (ea + 128 + size + (off - 64 * blockSize fmt)))

/-- The weight load of a command leaves the weight path; bundles that wait for it issue again (11 R235). -/
def State.endWload (s : State) (c : Cmd) (b : Option WBuf) : State :=
  let core := coreOf c.g
  let k := s.core core
  let wb := bits (c.w 1) 0 1
  let k1 := { k with wload := k.wload.erase (wb, c.g) }
  let k2 := match b with
    | some x => k1.setWb wb x
    | none => k1.setWb wb { k1.wb wb with valid := false }
  -- the buffer is written in the interval that its context has open (10 R223)
  let s1 := (s.setCore core k2).markDirty c.g [8 + wb]
  match s1.issuer core with
  | some g => s1.unstall g fun w => w == .part 0 || w == .rows
  | none => s1

/-- CPYW_COMPLETE (11 R235): the buffer becomes current and the command completes; any engine fault clears its valid
bit. -/
def execCpywComplete (i : Nat) (s : State) : Host.Outcome State Fault Refusal :=
  match s.cmds.find? i with
  | none => .next s
  | some e =>
    s.event (e.c.op == .cpyw && e.ready) fun s =>
      let q := MemReq.cmd i
      match s.readCompressed q e.c with
      | .moving k => s.engWaits q k
      | .absent k => if e.dead then (s.endWload e.c none).dropCmd i else s.awaitTile i e k []
      | .fault f => (s.endWload e.c none).endFault i e f
      | .ok (b, ks) =>
        match s.engCounter q e.c with
        | .fault f => (s.endWload e.c none).endFault i e f
        | .absent k => if e.dead then (s.endWload e.c (some b)).dropCmd i else s.awaitTile i e k []
        | .moving k => s.engWaits q k
        | .ok _ => ((s.countReads e.c.g ks).endWload e.c (some b)).finishPlan i e false []

/-! ### The output stage -/

/-- The bytes of a row of an XACCST or XEPI payload (10 R214, R215). -/
def Cmd.rowBytes (c : Cmd) : Nat := if c.op = .xaccst then 512 else 16 * ofmtWidth (bits c.cfg 16 3)

/-- The rows of a payload, in pieces from `at'` bytes on, performed at their homes: every 8-byte word of each row that arrives
changed is poisoned, and its level's log records that row once (10 R216). -/
def State.sendRows (s : State) (g n : Nat) (bad : Nat → Bool) : Nat → List (Nat × List Byte) → State
  | _, [] => s
  | at', (pa, bs) :: r =>
    let s1 := s.performAs 3 g pa bs
    let s2 := if !bad (at' / n) then s1
      else if at' % n = 0 then (s1.poisonRange pa bs.length).logError pa 4 3 g else s1.poisonRange pa bs.length
    s2.sendRows g n bad (at' + bs.length) r

/-- The rows of a payload that arrive changed where an upset strikes: one, freely, and others freely with it (10 R216). -/
def State.badRows (s : State) (c : Cmd) (upset : Bool) (i : Nat) : Bool :=
  upset && (i == Config.pick s.ticks % max 1 ((c.rows.map (·.2.length)).sum / c.rowBytes) || Config.freeBool (s.ticks * 128 + i))

/-- A payload leaves the output stage. -/
def State.freeStage (s : State) (core : Nat) : State :=
  let k := s.core core
  let s1 := s.setCore core { k with outst := k.outst - 1 }
  match s1.issuer core with
  | some g => s1.unstall g fun w => w == .busy
  | none => s1

/-- Whether a payload may leave the output stage: no earlier payload of its context, nor a read of an earlier XMAC or XACCLD that
still waits, meets its rows (07 R129). -/
def State.stageTurn (s : State) (e : EngCmd) : Bool :=
    !((s.ctx e.c.g).mx.any fun o =>
      o.eff == .held && mxReadPath o.req.op == some 2 && decide (o.req.bundle ≤ e.bundle) && rangesMeet o.req.reads e.c.rowRanges) &&
    s.cmds.all fun (x : Nat × EngCmd) =>
      !((x.2.c.op == .xaccst || x.2.c.op == .xepi) && x.2.c.g == e.c.g && decide (x.2.order < e.order)) ||
        !rangesMeet x.2.c.rowRanges e.c.rowRanges

/-- OUTPUT_STAGE_COMPLETE (10 R214, R216). -/
def execOutputStageComplete (i : Nat) (s : State) : Host.Outcome State Fault Refusal :=
  match s.cmds.find? i with
  | none => .next s
  | some e =>
    s.event ((e.c.op == .xaccst || e.c.op == .xepi) && s.stageTurn e) fun s =>
      match e.c.rows.find? fun r => s.holdsBack (.cmd i) r.1 with
      | some r => s.waitFor (.cmd i) r.1
      | none =>
      let bad := s.struck .transport && e.c.rows != []
      let s0 := (if bad then { s with upsets := s.upsets.tail } else s).keepOld e.c.g e.bundle e.c.rowRanges
      let s1 := (s0.sendRows e.c.g e.c.rowBytes (s.badRows e.c bad) 0 e.c.rows).freeStage (coreOf e.c.g)
      if bad then s1.endFault i e (EngFault.at' 4 (e.c.w 0))
      else s1.finishPlan i e false []

end Sys2Proof.Machine
end

