-- ==== Sys2Proof/Machine/StreamEvents.lean ====
section
/-! DEFINITION. Subscriptions, collectives, remote puts and quotes (11 R241 to R244, R422; 16 R361; 18 R382 to R386). -/

namespace Sys2Proof.Machine

/-! ### Subscriptions -/

/-- A command that walks again (11 R422). -/
def execAbsentTileRewalk (i : Nat) (s : State) : Host.Outcome State Fault Refusal :=
  .next { s with
    cmds := s.cmds.map fun (e : Nat × EngCmd) => (e.1, if e.1 == i && e.2.absent.isSome then { e.2 with retry := true } else e.2)
    subs := s.subs.map fun (e : Nat × Sub) => (e.1, if e.1 == i && e.2.absent.isSome then { e.2 with retry := true } else e.2) }

/-- Whether a subscription may act. -/
def Sub.ready (b : Sub) : Bool := b.absent.isNone || b.retry

/-- Slots of a traversal (R241). -/
def Sub.total (b : Sub) : Nat := ctlN0 b.c.ctl * ctlN1 b.c.ctl * ctlN2 b.c.ctl

/-- A subscription ends: its side is released (R241). -/
def State.freeSide (s : State) (i : Nat) (b : Sub) : State :=
  let s1 := s.setRing b.core b.rix (setBit (s.ring b.core b.rix) (if b.load then 35 else 36) false)
  { s1 with subs := s1.subs.erase i }

/-- A subscription ends with a fault (R229, R241, R242). -/
def State.subFault (s : State) (i : Nat) (b : Sub) (f : EngFault) : State :=
  let s1 := s.freeSide i b
  if b.dead then s1 else s1.postFault [b.c.g] b.c.opc false b.c.fe b.c.flag f

/-- A fault of the engine in a subscription, which breaks the ring (R241). -/
def State.subBreak (s : State) (i : Nat) (b : Sub) (f : EngFault) : State := (s.subFault i b f).breakRing b.core b.rix

/-- A subscription waits on an absent tile, which the host is told of once (R422). -/
def State.subAwait (s : State) (i : Nat) (b : Sub) (k : Nat × Nat × Nat) (before : List BitWrite) : State :=
  let known := b.told.any fun x => x.1 == k.1 && x.2.1 == k.2.1
  let s1 := { s with subs := s.subs.set i { b with
    absent := some k, retry := false, before := before, told := if known then b.told else b.told ++ [k] } }
  if known then s1
  else
    let arg0 := if k.1 = 0 then k.2.2 else k.2.1 + 2 ^ 41 * k.1
    s1.postHost (s.cmdIoc b.c) ⟨13, 0, 0, (s.ctx b.c.g).tgcid, arg0, b.c.asid + (if k.1 = 0 then 0 else 2 ^ 16)⟩

/-- A clean completion (R229, R241, R242). -/
def State.subDone (s : State) (i : Nat) (b : Sub) : State :=
  match s.engCounter (.cmd i) b.c with
  | .moving k => s.engWaits (.cmd i) k
  | .absent k => if b.dead then s.freeSide i b else s.subAwait i { b with t := b.total } k []
  | .fault f => s.subBreak i b f
  | .ok s1 =>
    let s2 := s1.freeSide i b
    if b.dead || !b.c.fe then s2 else s2.setFlags b.c.g (BitVec.ofNat 17 (2 ^ b.c.flag))

/-- The LSP offset of the slot of a count (R236). -/
def ringSlotAt (w : BitVec 128) (count : Nat) : Nat :=
  bits w.toNat 0 20 + count % ringSlots w * 2 ^ bits w.toNat 20 5

/-- The moves of a slot of a traversal: from the tensor to the slot, or back (R241). -/
def slotMoves (b : Sub) (d : Desc) (w : BitVec 128) : List BitMove :=
  let n : BitVec 256 := b.c.handle
  let e := 2 ^ d.eb
  let q := 2 ^ bits w.toNat 20 5 * 8 / e
  let n0 := ctlN0 b.c.ctl
  let n1 := ctlN1 b.c.ctl
  let i := b.t % n0
  let j := b.t / n0 % n1
  let k := b.t / (n0 * n1)
  let base := pkLsp b.core (ringSlotAt w (bits w.toNat (if b.load then 64 else 96) 32))
  (List.range q).filterMap fun x =>
    boxMove (!b.load) (boxPlace n d (q * i + x) j k 0) (.key (base + x * e / 8), x * e % 8) e

/-- A step of a subscription (R241, R242). -/
def State.subStep (s : State) (i : Nat) (b : Sub) : State :=
  let w := s.ring b.core b.rix
  let n : BitVec 256 := b.c.handle
  -- a slot that waits on an absent tile is finished first
  if b.absent.isNone && bits w.toNat 34 1 = 1 then s.subFault i b ⟨6, 0, 0, 0, b.t, 0, none⟩
  else if (b.absent.isNone && b.stop) || b.total ≤ b.t then s.subDone i b
  else
    match s.engDesc b.c n with
    | .error f => s.subBreak i b f
    | .ok d =>
      if d.layout = 1 || 2 ^ bits w.toNat 20 5 * 8 < 2 ^ d.eb then s.subBreak i b (handleFault n 1)
      else
        let advance (s : State) : State :=
          let b' := { b with t := b.t + 1, absent := none, retry := false }
          let s1 := s.setRing b.core b.rix (ringAdvance (s.ring b.core b.rix) b.load 1)
          let s2 := { s1 with subs := s1.subs.set i b' }
          if b.total ≤ b.t + 1 then s2.subDone i b' else s2
        -- the storer of a secondary writes nothing (15 R316)
        if !b.load && (s.ctx b.c.g).second then advance s
        else
          match s.engRun (.cmd i) b.c false (slotMoves b d w) with
          | (_, .moving k, _) => s.engWaits (.cmd i) k
          | (ws, .absent k, gr) => if b.dead then s.freeSide i b else s.subAwait i b k (beforeGranule ws gr)
          | (ws, .fault f, gr) => (s.performWrites b.c.g (beforeGranule ws gr)).subBreak i b f
          | (ws, .ok _, _) => advance ((s.countReads b.c.g ((s.readGrains b.c (slotMoves b d w)).map (8 * ·))).performWrites b.c.g ws)

/-- The granules of the tensor that slots `t` on of a subscription, `n` of them, read or write, as far as they translate. -/
def State.subGrains (s : State) (b : Sub) (t n : Nat) : List Nat :=
  match s.engDesc b.c b.c.handle with
  | .error _ => []
  | .ok d =>
    (List.range n).flatMap fun i =>
      (slotMoves { b with t := t + i } d (s.ring b.core b.rix)).flatMap fun m =>
        match b.load, m.src, m.dst with
        | true, .inl p, _ => s.placeGrains b.c false .read p m.n
        | false, _, some p => s.placeGrains b.c false .write p m.n
        | _, _, _ => []

/-- Whether the next step of a subscription follows what its context issued before: no earlier subscription of the context has
still to access a granule of the tensor that the step accesses (07 R129). -/
def State.subTurn (s : State) (i : Nat) (b : Sub) : Bool :=
  let earlier := s.subs.filter fun (e : Nat × Sub) => e.2.c.g == b.c.g && decide (e.1 < i)
  earlier == [] || decide (b.total ≤ b.t) ||
    let mine := s.subGrains b b.t 1
    earlier.all fun (e : Nat × Sub) => !((s.subGrains e.2 e.2.t (e.2.total - e.2.t)).any mine.contains)

/-- Whether a subscription has something to do: a slot to fill or to drain, or its end. -/
def State.subActs (s : State) (i : Nat) (b : Sub) : Bool :=
  let w := s.ring b.core b.rix
  b.ready && s.subTurn i b && (b.absent.isSome || bits w.toNat 34 1 == 1 || b.stop || decide (b.total ≤ b.t) ||
    (if b.load then decide (ringFilled w < ringSlots w) else decide (1 ≤ ringFilled w)))

/-- LOADER_SLOT_STEP (R241). -/
def execLoaderSlotStep (i : Nat) (s : State) : Host.Outcome State Fault Refusal :=
  match s.subs.find? i with
  | some b => s.event (b.load && s.subActs i b) fun s => s.subStep i b
  | none => .next s

/-- STORER_SLOT_STEP (R241). -/
def execStorerSlotStep (i : Nat) (s : State) : Host.Outcome State Fault Refusal :=
  match s.subs.find? i with
  | some b => s.event (!b.load && s.subActs i b) fun s => s.subStep i b
  | none => .next s

/-! ### Collectives -/

/-- The 32-bit peer check of a peer list (18 R382). -/
def peerCheck (peers : List Nat) : Nat := ((peers.zipIdx.map fun e => e.1 * (e.2 + 1)).sum) % 2 ^ 32

/-- The package numbers of a group in rank order, or the kind of failure (18 R382, R421). -/
def State.peers (s : State) (w : Nat) : Except Nat (List Nat) :=
  let g := bits w 32 13 + 1
  match s.devRead s.sysSpace (bits w 128 57) (2 * g) with
  | .error k => .error k
  | .ok bs => .ok ((List.range g).map fun i => leNat ((bs.drop (2 * i)).take 2))

/-- COLL_FLIT_RECEIVE (18 R382): the contribution of a peer, with its G and peer check, while a link lives (18 R381). A refusal
of a peer comes as a flit whose `op` names no collective (log 74). -/
def execCollFlitReceive (grp rank seq gsize check op : Nat) (data : List Byte) (s : State) :
    Host.Outcome State Fault Refusal :=
  s.event (!s.unreachable) fun s => { s with flits := s.flits ++ [⟨grp, rank, seq, op, gsize, check, data⟩] }

/-- What a COLL names for its matching: OPK, TYPE, RED and N. -/
def collWhat (ctl : Nat) : Nat := bits ctl 0 24 + bits ctl 24 7 * 2 ^ 24

/-- One step of a reduction (R243). -/
def collOp (ty red x y : Nat) : Nat :=
  let fp (f : Fmt) : Nat :=
    match red with
    | 0 => (f.addV .rne (f.decode x) (f.decode y)).1
    | r => fpMinMax f (r == 1) x y
  let int (w : Nat) : Nat :=
    match red with
    | 0 => (x + y) % 2 ^ w
    | 1 => if toSigned x w < toSigned y w then y else x
    | _ => if toSigned y w < toSigned x w then y else x
  match ty with
  | 0 => fp .f32
  | 1 => fp .bf16
  | 2 => fp .f16
  | 3 => fp .f64
  | 4 => int 32
  | _ => int 64

/-- Element `j` of a participant's bytes. -/
def collElem (bs : List Byte) (e j : Nat) : Nat := leNat ((bs.drop (j * e)).take e)

/-- A reduction over participants in ascending rank (R243). -/
def collReduce (ty red e j : Nat) : List (List Byte) → Nat
  | [] => 0
  | x :: r => r.foldl (fun acc y => collOp ty red acc (collElem y e j)) (collElem x e j)

/-- The result of a collective for this package's rank, from the data of every rank (R243). -/
def collResult (ctl rank : Nat) (xs : List (List Byte)) : List Byte :=
  let n := bits ctl 0 24 + 1
  let e := collBytes ctl
  let red (j : Nat) : List Byte := leBytes (collReduce (bits ctl 24 3) (bits ctl 29 2) e j xs) e
  match bits ctl 27 2 with
  | 0 => (List.range n).flatMap red
  | 1 => xs.flatten
  | _ => (List.range (n / xs.length)).flatMap fun j => red (rank * (n / xs.length) + j)

/-- Bytes as moves to addresses. -/
def litMoves (ea : Nat) (bs : List Byte) : List BitMove :=
  bs.zipIdx.map fun e => ⟨.inr e.1.toNat, some (.addr (ea + e.2), 0), 8⟩

/-- The contributions of the other ranks to a COLL, in rank order; none while one is missing. -/
def State.contributions (s : State) (grp seq rank g : Nat) (own : List Byte) : Option (List (List Byte)) :=
  (List.range g).mapM fun r =>
    if r = rank then some own else (s.flits.find? fun f => f.grp == grp && f.seq == seq && f.rank == r).map (·.data)

/-- The keys of the words of a COLL's source, and how many bytes it is. -/
def State.collSource (s : State) (q : MemReq) (c : Cmd) : Eng (List Nat) × Nat :=
  let n := (bits c.ctl 0 24 + 1) * collBytes c.ctl
  (s.engKeys q c (c.w 1) ((n + 7) / 8), n)

/-- A COLL for a secondary: the primary's result at the same place of its cluster (15 R316). -/
def State.collTwin (s : State) (q : MemReq) (c : Cmd) (bs : List Byte) : State :=
  match (s.ctx c.g).twin with
  | some t =>
    if isLocal (c.w 0) then
      let c' := c.forTwin t (s.ctx t)
      s.performWrites t (s.engRun q c' false (litMoves (c.w 0) bs)).1
    else s
  | none => s

/-- How a COLL stands: what ends it, or what it still waits for (R243; 18 R382, R421). -/
def State.collEnd (s : State) (i : Nat) (e : EngCmd) : Option State :=
  let c := e.c
  let ctl := c.ctl
  let grp := bits ctl 32 16
  let kind (k : Nat) : Option State := some (s.endFault i e (EngFault.at' k 0))
  match s.group (s.cmdIoc c) grp with
  | .error k => kind k
  | .ok w =>
    if bits w 0 1 = 0 then kind 5
    else
      match s.peers w with
      | .error k => kind k
      | .ok ps =>
        let mine := s.flits.filter fun f => f.grp == grp && f.seq == e.order
        let n := bits ctl 0 24 + 1
        if mine.any (fun f => f.gsize != ps.length || f.check != peerCheck ps || f.what != collWhat ctl) || (bits ctl 27 2 = 2 && n % ps.length ≠ 0) then kind 5
        else
          let rank := bits w 64 13
          match s.collSource (.cmd i) c with
          | (.moving k, _) => some (s.engWaits (.cmd i) k)
          | (.absent k, _) => some (if e.dead then s.dropCmd i else s.awaitTile i e k [])
          | (.fault f, _) => some (s.endFault i e f)
          | (.ok ks, m) =>
            -- its own read is over; it waits for the other ranks, and not at a unit
            match s.contributions grp e.order rank ps.length ((s.wordsFor c ks).take m) with
            | none => some (s.leave (.cmd i))
            | some xs =>
              let r := collResult ctl rank xs
              let s1 := (s.countReads c.g ks).finishPlan i e false (litMoves (c.w 0) r)
              -- the contributions stay while the command waits on an absent tile
              some (if (s1.cmds.find? i).isSome then s1
                else ({ s1 with flits := s1.flits.filter fun f => !(f.grp == grp && f.seq == e.order) }).collTwin (.cmd i) c r)

/-- The plan of FPUT (R244). -/
def planFput (c : Cmd) : List BitMove :=
  (List.range (2 * (bits c.ctl 0 24 + 1))).map fun i => ⟨.inl (.addr (c.w 1 + 8 * i), 0), some (.addr (c.w 0 + 8 * i), 0), 64⟩

/-- The lines that an FPUT writes. -/
def State.fputLines (s : State) (c : Cmd) : List Nat := s.planLines c true (planFput c)

/-- The granules that a COLL or an FPUT reads, and those that it writes. -/
def State.collGrains (s : State) (c : Cmd) : List Nat × List Nat :=
  if c.op = .fput then s.planGrains c true (planFput c)
  else
    let n := (bits c.ctl 0 24 + 1) * collBytes c.ctl
    let units (ea m : Nat) : List (Place × Nat) := (List.range ((m + 7) / 8)).map fun i => (.addr (ea + 8 * i), 0)
    ((units (c.w 1) n).flatMap fun p => s.placeGrains c false .read p 64,
      (units (c.w 0) (s.collDest (s.cmdIoc c) c.ctl n)).flatMap fun p => s.placeGrains c false .write p 64)

/-- Whether a command of the COLL path may end before the earlier ones of its context: it keeps the order of those that it
meets (R244; 07 R129). -/
def State.collTurn (s : State) (i : Nat) (e : EngCmd) : Bool :=
  s.cmds.all fun (x : Nat × EngCmd) =>
    !((x.2.c.op == .fput || x.2.c.op == .coll) && x.2.c.g == e.c.g && decide (x.1 < i)) ||
      (!grainsMeet (s.collGrains x.2.c) (s.collGrains e.c) &&
        (x.2.c.op != .fput || e.c.op != .fput || !((s.fputLines x.2.c).any fun l => (s.fputLines e.c).contains l)))

/-- COLL_COMPLETE (R243). -/
def execCollComplete (i : Nat) (s : State) : Host.Outcome State Fault Refusal :=
  match s.cmds.find? i with
  | none => .next s
  | some e => if e.c.op == .coll && e.ready && s.collTurn i e then .next ((s.collEnd i e).getD s) else .next s

/-! ### Remote puts -/

/-- FPUT_COMPLETE (R244): kind 7 where the other package cannot be reached. -/
def execFputComplete (i : Nat) (s : State) : Host.Outcome State Fault Refusal :=
  match s.cmds.find? i with
  | none => .next s
  | some e =>
    s.event (e.c.op == .fput && e.ready && s.collTurn i e) fun s =>
      if s.unreachable then s.endFault i e (EngFault.at' 7 (e.c.w 0)) else s.finishPlan i e true (planFput e.c)

/-! ### Quotes -/

/-- An entry of the measurement log: index and version, zeros in bytes 8 to 15, digest (18 R384; log 8). -/
def logEntry (e : BitVec 512) : List Byte := leBytes (e.toNat % 2 ^ 64) 8 ++ List.replicate 8 0 ++ leBytes (e.toNat / 2 ^ 128) 48

/-- The 4 KiB of the MSC's next quote (18 R385): the serial number is the package's, and the signature depends on its key (log 8). -/
def State.quoteBytes (s : State) (nonce : List Byte) : List Byte :=
  let log := Config.measurementLog.take 56
  leBytes 0x54514E41 4 ++ leBytes log.length 4 ++ leBytes (s.now % 2 ^ 64) 8 ++ nonce ++ leBytes Config.serial.toNat 16 ++
    log.flatMap logEntry ++ List.replicate (3936 - 64 * log.length) 0 ++ (List.range 96).map (Config.quoteByte s.msc.qdone)

/-- The MSC's next quote. -/
def State.nextQuote (s : State) : State :=
  { s with msc := { s.msc with quotes := s.msc.quotes.tail, qdone := s.msc.qdone + 1 } }

/-- The end of a host quote: ATST and the host record (18 R386). -/
def State.hostQuoteDone (s : State) (buf : Nat) (ok : Bool) : State :=
  let m := s.msc
  let seq := (bits m.atst.toNat 32 32 + (if ok then 1 else 0)) % 2 ^ 32
  let st := bits m.atst.toNat 3 1 * 8 + (if ok then 2 else 4) + seq * 2 ^ 32
  ({ s with msc := { m with atst := BitVec.ofNat 64 st } } : State).postHost 0 ⟨12, 0, 0, 0, buf, if ok then 0 else 1⟩

/-- QUOTE_COMPLETE (16 R361; 18 R385, R386). -/
def execQuoteComplete (s : State) : Host.Outcome State Fault Refusal :=
  match s.msc.quotes with
  | [] => .next s
  -- a peer receives its quote over the link that asked for it (18 R385)
  | .peer _ _ :: _ => .next s.nextQuote
  | .host buf nonce :: _ =>
    (match s.devWrite s.apertureSpace buf (s.quoteBytes nonce) with
      | .ok s1 => .next (s1.nextQuote.hostQuoteDone buf true)
      | .error _ => .next (s.nextQuote.hostQuoteDone buf false))
  | .attq i :: _ =>
    match s.cmds.find? i with
    | none => .next s.nextQuote
    | some e =>
      s.event e.ready fun s =>
        match s.engKeys (.cmd i) e.c (e.c.w 1) 4 with
        | .moving k => s.engWaits (.cmd i) k
        | .absent k => if e.dead then (s.dropCmd i).nextQuote else s.awaitTile i e k []
        | .fault f => (s.endFault i e f).nextQuote
        | .ok ks =>
          let s1 := s.finishPlan i e false (litMoves (e.c.w 0) (s.quoteBytes (s.wordsFor e.c ks)))
          -- the quote waits with its command on an absent tile
          if (s1.cmds.find? i).isSome then s1 else s1.nextQuote

end Sys2Proof.Machine
end

