-- ==== Sys2Proof/Machine/GuardEvents.lean ====
section
/-! DEFINITION. Agreement, recovery on a third SPC, the vote, suspicion and leases (01 R11; 13 R276; 15 R326 to R335). -/

namespace Sys2Proof.Machine

/-! ### Agreement -/

/-- The oldest interval of a context, where it is CLOSED: its signature (15 R318). -/
def Ctx.closedHead (c : Ctx) : Option (Word × Word) :=
  match c.ivs with
  | i :: _ => if i.agreed then none else i.sig
  | [] => none

/-- The twins of a class 2 pair, the primary first. -/
def State.pair (s : State) (g : Nat) : Option (Nat × Nat) :=
  let c := s.ctx g
  c.twin.map fun t => if c.second then (t, g) else (g, t)

/-- INTERVAL_AGREEMENT (R327): the CMPE reports that a class 1 interval's checks have passed. -/
def execIntervalAgreement (g : Nat) (s : State) : Host.Outcome State Fault Refusal :=
  let c := s.ctx g
  s.event (c.pcls == 1 && c.closedHead.isSome) fun s => s.agreeOldest g

/-- A twin rolled back for a vote to the start of its oldest interval (R329, R340): later intervals, their entries and
frames, waits and work left are discarded, and what the failed interval wrote in the accumulators and weight buffers is
invalid (10 R223). A failed interval that has closed keeps its signature, its entries and the copy that follows it, which the vote
may still make agree (R331 step 4). -/
def State.rollbackVote (s : State) (g : Nat) : State :=
  let c := s.ctx g
  match c.closedHead, c.ivs with
  | some _, f :: rest =>
    let s0 := s.setCore (coreOf g) ((s.core (coreOf g)).spoil f.dirty)
    if rest = [] then s0
    else
      let s1 := (s0.setCtx g { c with ivs := rest }).rollback g
      let d := s1.ctx g
      s1.setCtx g { d with ivs := f :: d.ivs, r := f.copy.noChain }
  | _, _ => s.rollback g

/-- Agreement of a pair fails: both roll back and stop until the vote (R329); a signature mismatch keeps the primary's SIGLO
(R335). -/
def State.toVote (s : State) (p q : Nat) (sig : Word) : State :=
  let pc := (s.ctx p).oldest.pc
  let t : TrapReq := ⟨0x13, 0, pc, 0, 0, 0, 0, 0, .check⟩
  let s1 := s.rollbackVote p
  let s2 := (s1.setCtx p { (s1.ctx p).setTrap t with recov := .pending 0x13 pc sig true }).endRun p .held
  let s3 := s2.rollbackVote q
  (s3.setCtx q { (s3.ctx q).setTrap t with recov := .voting }).endRun q .held

/-- The pair whose signatures the primary's CMPE may compare. -/
def State.comparable (s : State) (g : Nat) : Option (Nat × Nat × (Word × Word) × (Word × Word)) :=
  match s.pair g with
  | some (p, q) =>
    (match (s.ctx p).closedHead, (s.ctx q).closedHead with
      | some a, some b => if (s.ctx p).recov = .none && (s.ctx q).recov = .none then some (p, q, a, b) else none
      | _, _ => none)
  | none => none

/-- SIGNATURE_ARRIVAL (R328): equal signatures agree, different ones go to the vote. -/
def execSignatureArrival (g : Nat) (s : State) : Host.Outcome State Fault Refusal :=
  match s.comparable g with
  | some (p, q, a, b) => .next (if a = b then (s.agreeOldest p).agreeOldest q else s.toVote p q a.2)
  | none => .next s

/-- Whether the twin-skew bound does not run for a context now: PARKED, HELD, in handler mode, or stalled on an absent
tile (R328). -/
def State.skewExempt (s : State) (g : Nat) : Bool :=
  let c := s.ctx g
  c.st == .parked || c.st == .held || c.hnd ||
    (match c.todo with
      | .drain paths _ _ :: _ =>
        s.cmds.any (fun e => c.owns g e.2.c.g && onPath paths e.2.path && e.2.absent.isSome) ||
          s.subs.any (fun e => c.owns g e.2.c.g && onPath paths 4 && e.2.absent.isSome)
      | _ => false)

/-- Whether the skew bound of 2 µs has expired between a twin that has closed and one that has not (R328). -/
def State.skewed (s : State) (a b : Nat) : Bool :=
  match (s.ctx a).closedHead, (s.ctx a).ivs.head? with
  | some _, some i => (s.ctx b).closedHead.isNone && decide (i.closedAt + 2000 < s.now - (s.ctx b).exempt)
  | _, _ => false

/-- TWIN_SKEW_EXPIRY (R328). -/
def execTwinSkewExpiry (g : Nat) (s : State) : Host.Outcome State Fault Refusal :=
  match s.pair g with
  | some (p, q) =>
    s.event ((s.ctx p).recov == .none && (s.ctx q).recov == .none && !(s.ctx p).between && !(s.ctx q).between &&
      (s.skewed p q || s.skewed q p)) fun s => s.toVote p q 0
  | none => .next s

/-! ### The third SPC -/

/-- The SPCs of a domain. -/
def domainSpcs (d : Nat) : List Nat := (List.range 8).map fun i => 8 * d + i

/-- The domain paired with one (01 R10). -/
def pairedDomain (d : Nat) : Nat := (d + 2) % 4

/-- The domains that a third SPC may come from, the one to take first: lower suspicion, then A or B (01 R11). -/
def State.thirdDomains (s : State) (d : Nat) : List Nat :=
  let sum (x : Nat) : Nat := ((domainSpcs x).map s.spcScore).sum
  match (List.range 4).filter fun x => x != d && x != pairedDomain d with
  | [a, b] => if sum b < sum a then [b, a] else [a, b]
  | l => l

/-- Whether two ranges of LSP bytes meet. -/
def spansMeet (a n b m : Nat) : Bool := decide (0 < n) && decide (0 < m) && decide (a < b + m) && decide (b < a + n)

/-- Whether the LSP bytes of two allocations meet, carve-outs included. -/
def Alloc.meets (a b : Alloc) : Bool :=
  let ra := [(a.off, a.size), (a.cvhi - 1024 * a.spill, 1024 * a.spill)]
  let rb := [(b.off, b.size), (b.cvhi - 1024 * b.spill, 1024 * b.spill)]
  ra.any fun x => rb.any fun y => spansMeet x.1 x.2 y.1 y.2

/-- The contexts of a core that hold a task. -/
def State.tasksOn (s : State) (core : Nat) : List Nat := (coreCtxs core).filter fun g => (s.ctx g).st != .free

/-- Accumulator regions of a core that no task holds. -/
def State.freeRegions (s : State) (core : Nat) : List Nat :=
  (List.range 4).filter fun r => !((s.tasksOn core).any fun g => (s.ctx g).al.regions.contains r)

/-- Vector registers of a core that no task holds. -/
def State.freeVregs (s : State) (core : Nat) : Nat := 128 - ((s.tasksOn core).map fun g => (s.ctx g).al.vregs).sum

/-- The lowest FREE context of a core. -/
def State.freeOn (s : State) (core : Nat) : Option Nat := (coreCtxs core).find? fun g => (s.ctx g).st == .free

/-- Whether a core has free what a task's allocation needs, at its LSP offsets (15 R331, 16 R352). -/
def State.coreFits (s : State) (core : Nat) (al : Alloc) : Bool :=
  (s.freeOn core).isSome && !((s.tasksOn core).any fun g => (s.ctx g).al.meets al) &&
    decide (al.regions.length ≤ (s.freeRegions core).length) && decide (al.vregs ≤ s.freeVregs core)

/-- The core of an SPC that a task may be moved to: in a cluster of its kernel or a free one, not fenced and not retired
(R331). -/
def State.thirdCore (s : State) (spc : Nat) (al : Alloc) : Option Nat :=
  if (s.spc spc).ret then none
  else
    ((List.range 16).map fun i => 16 * spc + i).find? fun core =>
      let k := (s.cluster (core / 4)).kernel
      (k == none || k == some al.kernel) && !(s.core core).fen && !(s.core core).ret && s.coreFits core al

/-- The core that a task is moved to: the lowest SPC that fits, of the first domain and then of the other (R331). -/
def State.chooseThird (s : State) (g : Nat) : Option Nat :=
  let al := (s.ctx g).al
  ((s.thirdDomains (domainOf (spcOf g))).flatMap domainSpcs).findSome? fun spc => s.thirdCore spc al

/-- An allocation on another core: the same LSP offsets, the lowest free regions. -/
def State.allocOn (s : State) (core : Nat) (al : Alloc) : Alloc := { al with regions := (s.freeRegions core).take al.regions.length }

/-- LSP bytes copied from core to core at one offset. -/
def State.copyLsp (s : State) (src dst off n : Nat) : State := s.poke (pkLsp dst off) (s.peek (pkLsp src off) n)

/-- The allocation and carve-out of a task copied from core to core. -/
def State.copyAlloc (s : State) (src dst : Nat) (al : Alloc) : State :=
  (s.copyLsp src dst al.off al.size).copyLsp src dst (al.cvhi - 1024 * al.spill) (1024 * al.spill)

/-- Bit `i` of `x`. -/
def bitAt {n : Nat} (x : BitVec n) (i : Nat) : Bool := x.getLsbD i

/-- A region of an accumulator store put into a region of another, its checksums, exclusion bits and invalid bits with
it. -/
def AccStore.takeRegion (a : AccStore) (b : AccStore) (src dst : Nat) : AccStore :=
  let rows := List.range 128
  { rows := rows.foldl (fun m i => m.set (128 * dst + i) (b.row (128 * src + i))) a.rows
    chkcol := rows.foldl (fun m i => m.set (128 * dst + i) (b.col (128 * src + i))) a.chkcol
    chkrow := rows.foldl (fun m i => m.set (128 * dst + i) (b.chk src i)) a.chkrow
    rowEx := rows.foldl (fun x i => setBit x (128 * dst + i) (bitAt b.rowEx (128 * src + i))) a.rowEx
    colEx := rows.foldl (fun x i => setBit x (128 * dst + i) (bitAt b.colEx (128 * src + i))) a.colEx
    ginv := (List.range 2).foldl (fun x i => setBit x (2 * dst + i) (bitAt b.ginv (2 * src + i))) a.ginv
    bad := (a.bad.filter fun x => x / 16384 != dst) ++
      (b.bad.filter fun x => x / 16384 == src).map fun x => 16384 * dst + x % 16384 }

/-- Accumulator regions and valid weight buffers copied from core to core (R331). -/
def State.copyMatrix (s : State) (src dst : Nat) (al al' : Alloc) : State :=
  let a := s.core src
  let b := s.core dst
  let acc := (al.regions.zip al'.regions).foldl (fun x e => x.takeRegion a.acc e.1 e.2) b.acc
  s.setCore dst { b with acc := acc, wb0 := if a.wb0.valid then a.wb0 else b.wb0, wb1 := if a.wb1.valid then a.wb1 else b.wb1 }

/-- Everything outside a context that names its GCID names another (R12). -/
def State.rename (s : State) (a b : Nat) : State :=
  { s with
    lkms := s.lkms.map fun (k : Nat × Lkm) => (k.1, { k.2 with ents := k.2.ents.map fun e => if e.g == a then { e with g := b } else e })
    spcs := s.spcs.map fun (k : Nat × Spc) => (k.1, { k.2 with shadows := k.2.shadows.map fun f => if f.g == a then { f with g := b } else f })
    ctxs := s.ctxs.map fun (k : Nat × Ctx) => (k.1, if k.2.twin == some a then { k.2 with twin := some b } else k.2) }

/-- A cluster that becomes a kernel's. -/
def State.takeCluster (s : State) (cl k : Nat) : State :=
  if (s.cluster cl).kernel = none then s.setCluster cl { s.cluster cl with kernel := some k } else s

/-- Whether every released operation of a context has been performed, every entry that it still holds belongs to an open
interval, and no command of it is open (07 R144). -/
def State.settled (s : State) (g : Nat) : Bool :=
  let c := s.ctx g
  c.flying == [] && c.scb.all (fun e => c.ivs.any fun i => i.id == e.iv && !i.agreed) && !s.cmdsOpen g 0x3F &&
    !(s.cmds.any fun e => e.2.c.g == g && !e.2.dead)

/-- A task moved to a context of another core, its window accesses still naming its home cluster (R331); traps and a wound that
waited come before its first bundle (13 R275; 16 R346). -/
def State.moveTask (s : State) (g n : Nat) (rec : Recov) : State :=
  let c := s.ctx g
  let al' := s.allocOn (coreOf n) c.al
  let s1 := ((s.copyAlloc (coreOf g) (coreOf n) c.al).copyMatrix (coreOf g) (coreOf n) c.al al').takeCluster (clusterOf n) c.al.kernel
  let s2 := ((s1.setCtx n { c with al := al', recov := rec, wndAt := 0, todo := c.firstWork }).freeCtx g).rename g n
  s2.endRun n .ready

/-- The context that re-executes a failed interval for a vote (R331 step 4). -/
def State.thirdContext (s : State) (g n p q cause : Nat) (pc sig : Word) : State :=
  let c := s.ctx g
  let al' := s.allocOn (coreOf n) c.al
  let copy := c.oldest
  let s1 := ((s.copyAlloc (coreOf g) (coreOf n) c.al).copyMatrix (coreOf g) (coreOf n) c.al al').takeCluster (clusterOf n) c.al.kernel
  let t : Ctx := { c with
    r := copy, al := al', recov := .third p q cause pc sig, twin := none, second := false, st := .held
    fl := [], mx := [], chains := [], scb := [], flying := [], todo := [], wait := none, answer := none, stall := none
    ivs := [Interval.fresh 0 copy], nextIv := 1, siglo := 0, sighi := 0, deliver := [], due' := [], wndp := false, wndAt := 0
    pend := none, pendWhole := false, saving := none, efq := [], replay := 0 }
  ((s1.setCtx n t).setCtx g { s1.ctx g with recov := .voting }).endRun n .ready

/-- Whether a failure was declared a persistent fault before a third SPC was sought (R329, R330). -/
def persistentFault (pcls cause : Nat) : Bool := pcls == 0 || cause != 0x13

/-- RE_EXECUTION_START (R331 steps 1 and 2). -/
def execReExecutionStart (g : Nat) (s : State) : Host.Outcome State Fault Refusal :=
  let c := s.ctx g
  match c.recov with
  | .pending cause pc sig vote =>
    (match s.chooseThird g with
      | some core =>
        (match s.freeOn core with
          | some n =>
            let twinOk := match c.twin with
              | some t => s.settled t
              | none => true
            s.event (s.settled g && twinOk) fun s =>
              let s0 := if persistentFault c.pcls cause then
                  s.cmpeEvent (s.cmpeOf g) 2 cause c.tgcid (causePoints cause) (some (core / 16)) pc 0 else s
              if vote then
                (match s0.pair g with
                  | some (p, q) => s0.thirdContext g n p q cause pc sig
                  | none => s0)
              else s0.moveTask g n (.rerun (coreOf g) cause pc (core / 16))
          | none => .next s)
      | none => .next s)
  | _ => .next s

/-! ### The vote -/

/-- The cluster-relative place of an LSP key in another cluster. -/
def moveKey (src dst pa : Nat) : Nat :=
  match lspOf pa with
  | some core => if core / 4 = src then pkLsp (4 * dst + core % 4) ((pa - 2 ^ 56) % 2 ^ 20) else pa
  | none => pa

/-- A core's place in another cluster. -/
def moveCore (src dst core : Nat) : Nat := if core / 4 = src then 4 * dst + core % 4 else core

/-- An operation with its keys replaced. -/
def EntOp.mapKeys (k : Nat → Nat) : EntOp → EntOp
  | .store bs => .store (bs.map fun b => (k b.1, b.2))
  | .bits pa m x => .bits (k pa) m x
  | .atomic op pa n x y d => .atomic op (k pa) n x y d
  | .vatomic op tid l => .vatomic op tid (l.map fun e => (e.1, k e.2.1, e.2.2))
  | .cadd pa x => .cadd (k pa) x
  | .binit pa x => .binit (k pa) x
  | .barv pa n d => .barv (k pa) n d
  | .obrk pa => .obrk (k pa)
  | .cmd c => .cmd { c with rows := c.rows.map fun r => (k r.1, r.2), pre := c.pre.map fun b => (k b.1, b.2) }
  | o => o

/-- An entry of one twin as an entry of the other (R331 step 4). -/
def Entry.moved (e : Entry) (src g : Nat) (d : Ctx) : Entry :=
  let op := match e.op.mapKeys (moveKey src d.al.home) with
    | .obrkRing core rix => EntOp.obrkRing (moveCore src d.al.home core) rix
    | .hadv core rix p n => .hadv (moveCore src d.al.home core) rix p n
    | .cmd c => .cmd (c.forTwin g d)
    | o => o
  { e with op := op }

/-- Where a context goes on after a vote: it still waits as ENDING, or is READY. -/
def Ctx.resumeSt (c : Ctx) : CtxSt :=
  match c.todo with
  | .tend :: _ => .ending
  | _ => .ready

/-- The failed interval of the winner agrees; what it has done since is begun again from the copy that follows, where
that has been taken (R331 step 4). -/
def State.keepWinner (s : State) (w : Nat) : State :=
  let s1 := s.agreeOldest w
  match (s1.ctx w).closedHead, (s1.ctx w).ivs with
  | none, [i] => if i.agreed then s1 else s1.rollback w
  | _, _ => s1.rollback w

/-- The loser takes the winner's copy, allocation and entries (R331 step 4). -/
def State.followWinner (s : State) (w l : Nat) (entries : List Entry) (swapped : Bool) (iv : Nat) : State :=
  let s1 := s.rollback l
  let cw := s1.ctx w
  let cl := s1.ctx l
  let s2 := s1.copyAlloc (coreOf w) (coreOf l) cw.al
  let swap := if swapped then some iv else none
  let c' : Ctx := { cl with
    r := cw.r, ivs := cw.ivs, nextIv := cw.nextIv, todo := cw.todo, cap := cw.cap, siglo := cw.siglo, sighi := cw.sighi
    bseq := cw.bseq, opened := cw.opened, mstep := cw.mstep, run := cw.run, due := cw.due, hnd := cw.hnd, tcopy := cw.tcopy, wndp := cw.wndp, wndAt := cw.wndAt, wnd := cw.wnd
    shared := cw.shared, epoch := cw.epoch, lastPc := cw.lastPc, flying := []
    stepno := cw.stepno, scb := entries.map fun e => e.moved cw.al.home l cl, swap := swap }
  (s2.setCtx l c').setCtx w { s2.ctx w with swap := swap }

/-- Both twins go on; what waited for them comes before their first bundle. -/
def State.resumePair (s : State) (p q : Nat) : State :=
  let go (s : State) (g : Nat) : State :=
    let c := s.ctx g
    (s.setCtx g { c with recov := .none, wndAt := 0, todo := if c.todo = [] then c.firstWork else c.todo }).endRun g c.resumeSt
  go (go s p) q

/-- A vote with a winner (R331 step 4, R335). -/
def State.voteWon (s : State) (w l cause spc : Nat) (pc sig : Word) : State :=
  let cw := s.ctx w
  let iv := (cw.ivs.head?.map (·.id)).getD 0
  -- a frame of the winner is committed as the primary's would be
  let s0 := s.setCtx w { cw with swap := if cw.second then some iv else none }
  let s1 := s0.keepWinner w
  let entries := (s1.ctx w).scb.filter fun e => e.iv == iv
  let s2 := (s1.followWinner w l entries cw.second iv).addScore (coreOf l) 64
  let cm := s2.cmpeOf w
  let s3 := s2.cmpeEvent cm 4 cause w 0 (some spc) pc sig
  (s3.cmpeEvent cm 5 cause l 64 (some spc) pc sig).resumePair w l

/-- A vote without a majority: both twins enter their handlers with CHECKSUM (R331 step 5). -/
def State.voteLost (s : State) (p q cause spc : Nat) (pc sig : Word) : State :=
  let cm := s.cmpeOf p
  let t : TrapReq := ⟨0x13, 0, pc, 0, 0, 0, 0, 0, .handler⟩
  let s1 := (s.cmpeEvent cm 6 cause (s.ctx p).tgcid 0 (some spc) pc sig).cmpeEvent cm 7 cause (s.ctx p).tgcid (causePoints cause) (some spc) pc sig
  let go (s : State) (g : Nat) : State := (s.setCtx g { s.ctx g with recov := .none }).enterHandler g t
  go (go s1 p) q

/-- Whether a twin's part of a vote is known: its interval has closed, or a check failed in it (R331). -/
def Ctx.voteReady (c : Ctx) : Bool := c.closedHead.isSome || c.st == .held

/-- VOTE (R331 steps 4 and 5): `g` is the third context, whose interval has closed or which has trapped. Twins that agree
with each other after all go on. -/
def execVote (g : Nat) (s : State) : Host.Outcome State Fault Refusal :=
  let c := s.ctx g
  match c.recov with
  | .third p q cause pc sig =>
    let x := c.closedHead
    s.event (c.voteReady && (s.ctx p).voteReady && (s.ctx q).voteReady && s.settled p && s.settled q) fun s =>
      let a := (s.ctx p).closedHead
      let b := (s.ctx q).closedHead
      let spc := spcOf g
      let s1 :=
        if x.isSome && a = x && b = x then ((s.keepWinner p).keepWinner q).resumePair p q
        else if x.isSome && a = x then s.voteWon p q cause spc pc sig
        else if x.isSome && b = x then s.voteWon q p cause spc pc sig
        else if a.isSome && a = b then ((s.keepWinner p).keepWinner q).resumePair p q
        else s.voteLost p q cause spc pc sig
      s1.freeCtx g
  | _ => .next s

/-! ### Suspicion and leases -/

/-- SCORE_HALVING (R332): at each whole hour. -/
def execScoreHalving (s : State) : Host.Outcome State Fault Refusal :=
  s.event (decide (s.msc.halved < s.msc.up / 3600000000000)) fun s =>
    let s1 := { s with
      msc := { s.msc with halved := s.msc.halved + 1 }
      cores := s.cores.map fun (k : Nat × Core) => (k.1, { k.2 with score := k.2.score / 2 }) }
    -- the cores' clocks stand still in FREEZE (18 R388)
    if s.msc.frz then s1 else (s1.cores.map (·.1)).foldl (fun s k => s.thresholds k) s1

/-- The entry of a lock manager whose lease has run out. -/
def State.leaseOut (s : State) (i k : Nat) : Option LkEntry :=
  match (s.lkm i).ents[k]? with
  | some e => (match e.lease with | some t => if e.held = 6 && t ≤ s.now then some e else none | none => none)
  | none => none

/-- LEASE_EXPIRY (13 R276). -/
def execLeaseExpiry (i k : Nat) (s : State) : Host.Outcome State Fault Refusal :=
  match s.leaseOut i k with
  | some e => (match s.lkLeaseOut i e with | (s1, fs) => .next (s1.lkEffects fs))
  | none => .next s

end Sys2Proof.Machine
end

