-- ==== Sys2Proof/Machine/QueueEvents.lean ====
section
/-! DEFINITION. The queue scheduler: doorbells, hardware queue slots, packets and what they do, and the placing of
kernels (14 R288 to R300, R420; 03 R55 to R59). -/

namespace Sys2Proof.Machine

/-! ### Device accesses -/

/-- A CADD that the device performs: the counter saturates (12 R258). -/
def State.devCadd (s : State) (sp : Space) (va n : Nat) : Except (Nat × Nat) State :=
  match s.devSpan sp true 2 va 8 with
  | .error e => .error e
  | .ok ps =>
    if ps.any fun p => s.poisonedRange p.1 p.2 then .error (va, 3)
    else .ok (s.pokeAll 0 ps (leBytes (min (leNat (s.peekAll ps) + n) (2 ^ 64 - 1)) 8))

/-! ### Queue descriptors -/

/-- RBASE. -/
def dRbase (d : BitVec 512) : Nat := bits d.toNat 6 51 * 64
/-- RLOG. -/
def dRlog (d : BitVec 512) : Nat := bits d.toNat 57 5
/-- TENANT. -/
def dTenant (d : BitVec 512) : Nat := bits d.toNat 80 4
/-- WEIGHT, 0 read as 1. -/
def dWeight (d : BitVec 512) : Nat := max 1 (bits d.toNat 84 4)
/-- HTB. -/
def dHtb (d : BitVec 512) : Nat := bits d.toNat 128 64
/-- OVFB. -/
def dOvfb (d : BitVec 512) : Nat := bits d.toNat 192 64
/-- OVFS. -/
def dOvfs (d : BitVec 512) : Nat := bits d.toNat 256 6
/-- RCWB. -/
def dRcwb (d : BitVec 512) : Nat := bits d.toNat 320 64
/-- Whether a descriptor refuses the queue (R288). -/
def dRefused (d : BitVec 512) : Bool :=
  let w := d.toNat
  bits w 63 1 != 0 || bits w 88 40 != 0 || bits w 262 58 != 0 || bits w 426 86 != 0 ||
    decide (dRlog d < 6) || decide (20 < dRlog d) || decide (dOvfs d < 10) || decide (40 < dOvfs d) ||
    dRcwb d % 8 != 0 || bits w 384 12 != 0

/-- What a packet of a slot takes from its descriptor, or from the kernel that inserted it (R309). -/
def QSlot.origin (q : QSlot) (p : Packet) : Launcher :=
  p.by'.getD ⟨dAsid q.desc, dTenant q.desc, BitVec.ofNat 64 (dHtb q.desc), BitVec.ofNat 64 (dOvfb q.desc), dOvfs q.desc, dRoot q.desc⟩

/-- The space of a packet's addresses (18 R421). -/
def Launcher.space (l : Launcher) : Space := rootSpace l.asid l.root

/-- The tenant of a slot's next packet (R309, R312). -/
def QSlot.tenant (q : QSlot) : Nat :=
  match q.pkt, q.ins with
  | some p, _ => (q.origin p).tenant
  | none, p :: _ => (q.origin p).tenant
  | none, [] => dTenant q.desc

/-! ### Slots -/

/-- The IOC that owns a slot (01 R15). -/
def slotIoc (n : Nat) : Nat := n / 64

/-- The slots of an IOC. -/
def iocSlots (i : Nat) : List Nat := (List.range 64).map fun k => 64 * i + k

/-- The kernels that a queue has launched and that have not completed. -/
def State.queueKernels (s : State) (qid : Nat) : List Nat :=
  (s.kernels.filter fun (k : Nat × Kernel) => k.2.qid == qid).map (·.1)

/-- A slot that leaves READY loses its turn (R297). -/
def State.dropTurn (s : State) (n : Nat) : State :=
  let c := s.ioc (slotIoc n)
  match c.turn with
  | some (m, _, _) => if m = n then s.setIoc (slotIoc n) { c with turn := none } else s
  | none => s

/-- A slot is faulted, and the host told (R294, R420; 18 R380). -/
def State.faultSlot (s : State) (n code : Nat) (at' : Nat × Nat) : State :=
  let q := s.slot n
  let s1 := (s.setSlot n { q with st := .faulted, code := code, pkt := none, owed := none }).dropTurn n
  s1.postHost (slotIoc n) (if code = 6 then ⟨2, 6, q.qid, 0, at'.1, at'.2 + 2 ^ 16 * dAsid q.desc⟩ else ⟨2, code, q.qid, 0, 0, 0⟩)

/-- A word of a slot's ring (R289). -/
def State.ringWord (s : State) (q : QSlot) (c : Nat) : Except (Nat × Nat) Nat :=
  s.devGetWord (dSpace q.desc) (dRbase q.desc + 8 * (c % 2 ^ dRlog q.desc))

/-- What a slot finds at its read count (R292). -/
inductive Fetched where
  /-- No whole packet. -/
  | none
  /-- A ring word that cannot be read: address and kind. -/
  | bad (at' : Nat × Nat)
  /-- A packet: word 0 and the field words. -/
  | packet (w0 : Nat) (ws : List Nat)
  deriving DecidableEq, Repr

/-- The fields that a mask names, ascending. -/
def maskFields (w0 : Nat) : List Nat := (List.range 16).filter fun b => bits w0 b 1 == 1

/-- Words of a ring in order. -/
def State.ringWords (s : State) (q : QSlot) (c : Nat) : Nat → Except (Nat × Nat) (List Nat)
  | 0 => .ok []
  | n + 1 =>
    match s.ringWord q c with
    | .error e => .error e
    | .ok w =>
      match s.ringWords q (c + 1) n with
      | .ok ws => .ok (w :: ws)
      | .error e => .error e

/-- The packet at a slot's read count. -/
def State.ringPacket (s : State) (q : QSlot) : Fetched :=
  let avail := (q.wc - q.rc).toNat
  if avail = 0 then .none
  else
    match s.ringWord q q.rc.toNat with
    | .error e => .bad e
    | .ok w0 =>
      let k := (maskFields w0).length
      if avail < 1 + k then .none
      else
        match s.ringWords q (q.rc.toNat + 1) k with
        | .error e => .bad e
        | .ok ws => .packet w0 ws

/-- A packet's field values: those it carries, the others as they were (R293). -/
def mergeFields (old : Vector Word 16) (w0 : Nat) (ws : List Nat) : Vector Word 16 :=
  ((maskFields w0).zip ws).foldl (fun f e => vset f e.1 (BitVec.ofNat 64 e.2)) old

/-- The next packet of a slot as its fields will be: the one in progress, an inserted one, or that of the ring. -/
def State.nextFields (s : State) (n : Nat) : Option (Vector Word 16) :=
  let q := s.slot n
  match q.pkt, q.ins with
  | some p, _ => some p.f
  | none, p :: _ => some p.f
  | none, [] =>
    match s.ringPacket q with
    | .none => none
    | .bad _ => some (vset q.delta 0 0)
    | .packet w0 ws => some (mergeFields q.delta w0 ws)

/-- A slot is READY where a packet waits for it, else IDLE (R296). -/
def State.reReady (s : State) (n : Nat) : State :=
  let q := s.slot n
  if (s.nextFields n).isSome then s.setSlot n { q with st := .ready }
  else s.setSlot n { q with st := .idle, idleAt := if q.st = .idle then q.idleAt else s.now }

/-- A packet has taken effect: a failed write-back of RC faults the slot now, or the slot goes on (R296, R420). -/
def State.packetDone (s : State) (n : Nat) : State :=
  let q := s.slot n
  match q.owed with
  | some e => s.faultSlot n 6 e
  | none => (s.setSlot n { q with pkt := none }).reReady n

/-! ### Doorbells -/

/-- The pointer mirror of a slot has been written: the lap test, then READY where a packet is whole (R291, R296). -/
def State.afterDoorbell (s : State) (n : Nat) : State :=
  let q := s.slot n
  if q.st = .free || q.st = .overrun || q.desc = 0 then s
  else if 2 ^ dRlog q.desc < (q.wc - q.rc).toNat then
    ((s.setSlot n { q with st := .overrun, pkt := none, owed := none, code := 0 }).dropTurn n).postHost (slotIoc n) ⟨1, 0, q.qid, 0, 0, 0⟩
  else if q.st = .idle then s.reReady n
  else s

/-- The lowest FREE slot of an IOC. -/
def State.freeSlot (s : State) (i : Nat) : Option Nat := (iocSlots i).find? fun n => (s.slot n).st == .free

/-- What a queue saved, read back: RC, the delta state and the mask (R289). -/
def reloadSlot (q : QSlot) (bs : List Byte) : QSlot :=
  let w (k : Nat) : Nat := leNat ((bs.drop (8 * k)).take 8)
  { q with
    rc := BitVec.ofNat 64 (w 0)
    delta := (List.range 16).foldl (fun f b => vset f b (BitVec.ofNat 64 (w (1 + b)))) q.delta
    given := BitVec.ofNat 16 (w 17) }

/-- A queue mapped onto a FREE slot, with what it saved (R289); a failing read of that faults the slot. -/
def State.mapQueue (s : State) (n u : Nat) (wc : Word) (d : BitVec 512) : State :=
  let q : QSlot := { QSlot.reset with st := .idle, qid := u, wc := wc, desc := d, idleAt := s.now }
  let i := s.ioc (slotIoc n)
  if i.qsaved.contains u && dRcwb d != 0 then
    let s1 := s.setIoc (slotIoc n) { i with qsaved := i.qsaved.filter (· != u) }
    match s.devGet (dSpace d) (dRcwb d) 144 with
    | .ok bs => (s1.setSlot n (reloadSlot q bs)).afterDoorbell n
    | .error e => (s1.setSlot n q).faultSlot n 6 e
  else (s.setSlot n q).afterDoorbell n

/-- The descriptor of a queue in the table of its IOC (R288). -/
def State.queueDesc (s : State) (u : Nat) : Except Nat (BitVec 512) :=
  (s.devRead s.sysSpace ((s.ioc (u % 2)).qtb.toNat % 2 ^ 57 + 64 * u) 64).map fun bs => BitVec.ofNat 512 (leNat bs)

/-- A queue that is not mapped: refused, ignored, mapped, or its doorbell left pending (R288, R289). -/
def State.bellUnmapped (s : State) (u : Nat) (wc : Word) : State :=
  let i := u % 2
  let refuse := s.postHost i ⟨3, 0, u, 0, 0, 0⟩
  match s.queueDesc u with
  | .error _ => refuse
  | .ok d =>
    if bits d.toNat 62 1 = 0 then s
    else if dRefused d then refuse
    else
      match s.freeSlot i with
      | some n => s.mapQueue n u wc d
      | none => s.setIoc i { s.ioc i with bells := (s.ioc i).bells.set u wc }

/-- Pending doorbells mapped onto slots that have become FREE, lowest queue first (R289). -/
def State.mapBells (s : State) (i : Nat) : List (Nat × Word) → State
  | [] => s
  | (u, wc) :: r =>
    match s.freeSlot i with
    | none => s
    | some _ => ((s.setIoc i { s.ioc i with bells := (s.ioc i).bells.erase u }).bellUnmapped u wc).mapBells i r

/-- A slot of an IOC has become FREE. -/
def State.slotFreed (s : State) (i : Nat) : State := s.mapBells i (s.ioc i).bells

/-- The slot that a queue is mapped onto. -/
def State.slotOfQueue (s : State) (u : Nat) : Option Nat :=
  (iocSlots (u % 2)).find? fun n => (s.slot n).st != .free && (s.slot n).desc != 0 && (s.slot n).qid == u

/-- DOORBELL_WRITE (R288, R289, R291); ignored before the package is READY (18 R391). -/
def execDoorbellWrite (u : Nat) (wc : Word) (s : State) : Host.Outcome State Fault Refusal :=
  s.event (decide (u < 2 ^ 16) && s.msc.ready.getLsbD 0) fun s =>
    match s.slotOfQueue u with
    | some n => (s.setSlot n { s.slot n with wc := wc }).afterDoorbell n
    | none => s.bellUnmapped u wc

/-- Whether a slot has been IDLE for 100 µs with no kernel of its queue running and somewhere to save to (R289). -/
def State.idleOver (s : State) (n : Nat) : Bool :=
  let q := s.slot n
  q.st == .idle && dRcwb q.desc != 0 && s.queueKernels q.qid == [] && q.marks == [] && q.ins == [] &&
    decide (q.idleAt + 100000 ≤ s.now)

/-- The bytes of a slot's save area, RC first (R289). -/
def QSlot.saveBytes (q : QSlot) : List Byte :=
  leBytes q.rc.toNat 8 ++ (q.delta.toList.flatMap fun w => leBytes w.toNat 8) ++ leBytes q.given.toNat 8

/-- SLOT_IDLE_TIMEOUT (R289). -/
def execSlotIdleTimeout (n : Nat) (s : State) : Host.Outcome State Fault Refusal :=
  s.event (s.idleOver n) fun s =>
    let q := s.slot n
    match s.devPut (dSpace q.desc) (dRcwb q.desc) q.saveBytes with
    | .error e => s.faultSlot n 6 e
    | .ok s1 =>
      let i := slotIoc n
      ((s1.setSlot n QSlot.reset).setIoc i { s1.ioc i with qsaved := insertNat q.qid (s1.ioc i).qsaved }).slotFreed i

/-- QUEUE_RESET (R290, R296): a slot that maps no queue becomes IDLE too, and has nothing to fetch (log 34). -/
def execQueueReset (n : Nat) (s : State) : Host.Outcome State Fault Refusal :=
  let q := s.slot n
  s.event (decide (n < 128)) fun s =>
    (s.setSlot n { q with
      st := .idle, code := 0, wc := 0, rc := 0, delta := Vector.replicate 16 0, given := 0, pkt := none, ins := []
      owed := none, idleAt := s.now }).dropTurn n

/-- QUEUE_RESET_UNMAP (R290): what the reset clears, and the slot FREE. -/
def execQueueResetUnmap (n : Nat) (s : State) : Host.Outcome State Fault Refusal :=
  s.event (decide (n < 128)) fun s => ((s.setSlot n QSlot.reset).dropTurn n).slotFreed (slotIoc n)

/-! ### Turns -/

/-- The priority level of a slot's next packet (R297). -/
def State.slotPrio (s : State) (n : Nat) : Nat := ((s.nextFields n).map fun f => (vget f 12 0).toNat % 4).getD 0

/-- The READY slots of an IOC that may be served: those of the highest level (R297, R312). -/
def State.servable (s : State) (i : Nat) : List Nat :=
  let l := (iocSlots i).filter fun n => (s.slot n).st == .ready && s.tenantRuns i (s.slot n).tenant
  let top := (l.map s.slotPrio).foldl max 0
  l.filter fun n => s.slotPrio n == top

/-- Whether the turn of an IOC has lasted QSLICE µs (R297). -/
def State.turnOver (s : State) (i : Nat) : Bool :=
  match (s.ioc i).turn with
  | some (_, _, t) => decide (t + 1000 * bits (s.ioc i).qslice.toNat 0 32 ≤ s.now)
  | none => false

/-- The slot whose turn goes on. -/
def State.holder (s : State) (i : Nat) : Option Nat :=
  match (s.ioc i).turn with
  | some (n, b, _) =>
    if (s.servable i).contains n && decide (b < dWeight (s.slot n).desc) && !s.turnOver i then some n else none
  | none => none

/-- The slot that is served next (R297). -/
def State.served (s : State) (i : Nat) : Option Nat :=
  match s.holder i with
  | some n => some n
  | none =>
    let l := s.servable i
    (l.find? fun n => decide ((s.ioc i).lastTurn < n)).or l.head?

/-- The turn of a slot begins or goes on, with one packet more begun unless it goes on with one in progress. -/
def State.takeTurn (s : State) (n : Nat) : State :=
  let i := slotIoc n
  let c := s.ioc i
  let k := if (s.slot n).pkt.isSome then 0 else 1
  match s.holder i, c.turn with
  | some _, some (_, b, t) => s.setIoc i { c with turn := some (n, b + k, t) }
  | _, _ => s.setIoc i { c with turn := some (n, k, s.now), lastTurn := n }

/-- A turn ends when its slot leaves READY (R297). -/
def State.leaveTurn (s : State) (n : Nat) : State := if (s.slot n).st = .ready then s else s.dropTurn n

/-- QSCH_TURN_END (R297). -/
def execQschTurnEnd (i : Nat) (s : State) : Host.Outcome State Fault Refusal :=
  s.event (s.turnOver i) fun s => s.setIoc i { s.ioc i with turn := none }

/-! ### Packets -/

/-- ORD of a packet. -/
def Packet.ord (p : Packet) : Bool := bits (p.fld 14) 0 1 == 1
/-- INTR. -/
def Packet.intr (p : Packet) : Bool := bits (p.fld 14) 1 1 == 1
/-- WT. -/
def Packet.wt (p : Packet) : Bool := bits (p.fld 14) 2 1 == 1

/-- The fields that a packet uses by its kind and flags (R293); a reserved kind names no others. -/
def usedFields (f : Vector Word 16) : List Nat :=
  match (vget f 0 0).toNat with
  | 0 => [0, 1, 2, 3, 4, 5, 6, 7, 10, 11, 12, 13, 14, 15] ++ (if bits (vget f 14 0).toNat 2 1 = 1 then [8, 9] else [])
  | 1 => [0, 8, 9]
  | 2 => [0, 10, 11]
  | 3 => [0, 10, 11, 13, 14]
  | _ => [0]

/-- Whether a field holds a reserved bit or value (R293). -/
def fieldReserved (i x : Nat) : Bool :=
  match i with
  | 0 => decide (4 ≤ x)
  | 2 => x % 32 != 0
  | 3 => decide (129 ≤ x)
  | 4 => decide (4 ≤ x)
  | 5 => x % 8 != 0
  | 6 => x % 64 != 0
  | 7 => x % 32 != 0
  | 8 => x % 8 != 0
  | 10 => x % 8 != 0
  | 12 => decide (4 ≤ x)
  | 14 => decide (8 ≤ x)
  | 15 => decide (2 ^ 38 ≤ x)
  | _ => false

/-- The CODE with which a packet's fields fault its slot: 1 for a field never given, 2 for a reserved value (R294). -/
def packetCode (w0 : Nat) (given : BitVec 16) (f : Vector Word 16) : Option Nat :=
  let used := usedFields f
  if used.any fun b => !given.getLsbD b then some 1
  else if 2 ^ 16 ≤ w0 || used.any fun b => fieldReserved b (vget f b 0).toNat then some 2
  else none

/-- RC advanced and written back; a failure is kept until the packet has taken effect (R290, R292, R420). -/
def State.advanceRc (s : State) (n k : Nat) : State :=
  let q := s.slot n
  let rc := q.rc + BitVec.ofNat 64 k
  if dRcwb q.desc = 0 then s.setSlot n { q with rc := rc }
  else
    match s.devPut (dSpace q.desc) (dRcwb q.desc) (leBytes rc.toNat 8) with
    | .ok s1 => s1.setSlot n { q with rc := rc }
    | .error e => s.setSlot n { q with rc := rc, owed := some e }

/-- The packet that a slot goes on with: the one in progress, an inserted one, or one fetched from the ring; none where
the slot faults or has none (R292 to R294, R309). -/
def State.takePacket (s : State) (n : Nat) : State × Option Packet :=
  let q := s.slot n
  match q.pkt, q.ins with
  | some p, _ => (s, some p)
  | none, p :: r => (s.setSlot n { q with ins := r }, some p)
  | none, [] =>
    match s.ringPacket q with
    | .none => (s, none)
    | .bad e => (s.faultSlot n 6 e, none)
    | .packet w0 ws =>
      let f := mergeFields q.delta w0 ws
      let given := q.given ||| BitVec.ofNat 16 w0
      let s1 := s.advanceRc n (1 + ws.length)
      match packetCode w0 given f with
      | some code => (s1.faultSlot n code (0, 0), none)
      | none => (s1.setSlot n { s1.slot n with delta := f, given := given }, some ⟨f, none, false⟩)

/-- Whether a slot is the one served and its next packet is of a kind (R295, R297). -/
def State.servedKind (s : State) (n kind : Nat) : Bool :=
  decide (n < 128) && s.served (slotIoc n) == some n && ((s.nextFields n).map fun f => (vget f 0 0).toNat % 4) == some kind

/-- A slot's next packet taken and executed. -/
def State.servePacket (s : State) (n kind : Nat) (k : State → Packet → State) : Host.Outcome State Fault Refusal :=
  s.event (s.servedKind n kind) fun s =>
    match (s.takeTurn n).takePacket n with
    | (s1, some p) => (k s1 p).leaveTurn n
    | (s1, none) => s1.leaveTurn n

/-- A packet left in progress with its slot in a state. -/
def State.holdPacket (s : State) (n : Nat) (st : SlotSt) (p : Packet) : State :=
  s.setSlot n { s.slot n with st := st, pkt := some p }

/-- PACKET_WAIT (R295, R296): the slot waits, and goes on when it is READY again. -/
def execPacketWait (n : Nat) (s : State) : Host.Outcome State Fault Refusal :=
  s.servePacket n 1 fun s p => if p.waited then s.packetDone n else s.holdPacket n .waiting p

/-- The signal CADD of a packet; an address of 0 signals nothing (R293, R295). -/
def State.signal (s : State) (sp : Space) (p : Packet) : Except (Nat × Nat) State :=
  if p.fld 10 = 0 then .ok s else s.devCadd sp (p.fld 10) (p.fld 11)

/-- PACKET_SIGNAL (R295). -/
def execPacketSignal (n : Nat) (s : State) : Host.Outcome State Fault Refusal :=
  s.servePacket n 2 fun s p =>
    match s.signal ((s.slot n).origin p).space p with
    | .ok s1 => s1.packetDone n
    | .error e => s.faultSlot n 6 e

/-- PACKET_MARKER (R295): with ORD the slot is held until it has taken effect. A failed write-back of RC is kept with it until
then (R420). -/
def execPacketMarker (n : Nat) (s : State) : Host.Outcome State Fault Refusal :=
  s.servePacket n 3 fun s p =>
    if p.waited then s.packetDone n
    else
      let q := s.slot n
      let s1 := s.setSlot n { q with marks := q.marks ++ [(s.queueKernels q.qid, p, q.owed)], owed := none }
      if p.ord then s1.holdPacket n .waiting p else s1.packetDone n

/-- The first MARKER of a slot, where every kernel that it waits for has completed (R295). -/
def State.markDue (s : State) (n : Nat) : Option (Packet × Option (Nat × Nat)) :=
  match (s.slot n).marks with
  | (ks, p, owed) :: _ => if ks.all fun k => (s.kernels.find? k).isNone then some (p, owed) else none
  | [] => none

/-- A slot that an ORD MARKER holds is READY again, its packet to be continued, once its last MARKER has taken effect
(R296). -/
def State.markReleases (s : State) (n : Nat) : State :=
  let q := s.slot n
  match q.st, q.pkt with
  | .waiting, some p => if p.fld 0 % 4 = 3 && q.marks = [] then s.holdPacket n .ready { p with waited := true } else s
  | _, _ => s

/-- MARKER_EFFECT (R295, R420). -/
def execMarkerEffect (n : Nat) (s : State) : Host.Outcome State Fault Refusal :=
  match s.markDue n with
  | none => .next s
  | some (p, owed) =>
    let q := s.slot n
    let s1 := s.setSlot n { q with marks := q.marks.tail }
    match s1.signal (q.origin p).space p with
    | .error e => .next (s1.faultSlot n 6 e)
    | .ok s2 =>
      let s3 := if p.intr then s2.postHost (slotIoc n) ⟨5, 0, q.qid, 0, p.fld 13, 0⟩ else s2
      .next (match owed with
        | some e => s3.faultSlot n 6 e
        | none => s3.markReleases n)

/-- Whether a LAUNCH still waits: its counter has not been seen at its value, or ORD holds it (R295). -/
def State.launchWaits (s : State) (n : Nat) (p : Packet) : Bool :=
  (p.wt && !p.waited) || (p.ord && s.queueKernels (s.slot n).qid != [])

/-- What the wait of a WAITING slot finds: a failing read, that it goes on waiting, or how it goes on. -/
def State.slotWait (s : State) (n : Nat) : Option State :=
  let q := s.slot n
  match q.st, q.pkt with
  | .waiting, some p =>
    let kind := p.fld 0 % 4
    let counter (k : State → State) : Option State :=
      match s.devGetWord (q.origin p).space (p.fld 8) with
      | .error e => some (s.faultSlot n 6 e)
      | .ok x => if p.fld 9 ≤ x then some (k s) else none
    let launch (s : State) (p : Packet) : State := s.holdPacket n (if s.launchWaits n p then .waiting else .ready) p
    if kind = 1 then counter fun s => s.holdPacket n .ready { p with waited := true }
    else if kind = 0 then
      (if p.wt && !p.waited then counter fun s => launch s { p with waited := true }
      else if s.launchWaits n p then none
      else some (launch s p))
    else none
  | _, _ => none

/-- QSCH_WAIT_SATISFIED (R295, R296). -/
def execQschWaitSatisfied (n : Nat) (s : State) : Host.Outcome State Fault Refusal := .next ((s.slotWait n).getD s)

/-! ### Kernel images -/

/-- What a launch needs of a kernel image (03 R55 to R59). -/
structure Image where
  /-- Virtual clusters of the kernel. -/
  clus : Nat
  /-- Whether the kernel is paired (R298). -/
  paired : Bool
  /-- CODEO. -/
  codeO : Nat
  /-- LVO. -/
  lvo : Nat
  /-- LVN. -/
  lvn : Nat
  /-- The task types. -/
  types : List (BitVec 256)
  /-- The ring and barrier records. -/
  recs : List (BitVec 128)
  /-- The `.spad` image. -/
  spad : List Byte
  deriving DecidableEq, Repr

/-- Bytes cut into numbers of `w` bytes. -/
def cutWords (w : Nat) (bs : List Byte) : Nat → List Nat
  | 0 => []
  | n + 1 => leNat (bs.take w) :: cutWords w (bs.drop w) n

/-- An image read; none for CODE 4 (R294). -/
def State.readImage (s : State) (sp : Space) (p : Packet) : Option Image :=
  let at' := p.fld 1
  match s.devGet sp at' 128 with
  | .error _ => none
  | .ok h =>
    let w (o n : Nat) : Nat := leNat ((h.drop o).take n)
    let ttn := w 12 4
    if w 0 4 ≠ 0x4B4E4441 || w 4 2 ≠ 1 || ttn = 0 || w 72 4 ≠ 0 || w 80 8 ≠ at' || 786432 < w 64 4 then none
    else
      match s.devGet sp (if p.fld 2 = 0 then at' + w 16 4 else p.fld 2) (32 * ttn), s.devGet sp (at' + w 40 4) (16 * w 36 4),
          s.devGet sp (at' + w 60 4) (w 64 4) with
      | .ok tt, .ok rs, .ok spad =>
        let types := (cutWords 32 tt ttn).map (BitVec.ofNat 256)
        let paired := p.fld 4 = 2 || (p.fld 4 = 3 && types.any fun t => tyPcls t.toNat == 2)
        some ⟨if p.fld 3 = 0 then w 6 2 else p.fld 3, paired, w 44 4, w 24 4, w 20 4, types, (cutWords 16 rs (w 36 4)).map (BitVec.ofNat 128), spad⟩
      | _, _, _ => none

/-- The record of initial task `i` of virtual cluster `v` (R299). -/
def initRecord (v i : Nat) : Word := BitVec.ofNat 64 (3 * 2 ^ 50 + v % 2 ^ 16 * 2 ^ 16 + i)

/-- An image for a launch, or the CODE that refuses it: 4 a bad image, 5 a refused class (R294, R300). -/
def State.loadImage (s : State) (sp : Space) (p : Packet) : Except Nat Image :=
  match s.readImage sp p with
  | none => .error 4
  | some m =>
    if (taskClass m.paired (p.fld 4) ((m.types.getD 0 0).toNat) (initRecord 0 0)).isNone then .error 5 else .ok m

/-- PACKET_LAUNCH (R294, R295): the launch waits, is refused, or is left to be placed. -/
def execPacketLaunch (n : Nat) (s : State) : Host.Outcome State Fault Refusal :=
  s.servePacket n 0 fun s p =>
    if s.launchWaits n p then s.holdPacket n .waiting p
    else
      match s.loadImage ((s.slot n).origin p).space p with
      | .error code => s.faultSlot n code (0, 0)
      | .ok _ => s.holdPacket n .launching p

/-! ### Placing a kernel -/

/-- Whether a cluster is free and unretired (R298). -/
def State.clusterFree (s : State) (cl : Nat) : Bool := (s.cluster cl).kernel.isNone && !(s.spc (cl / 4)).ret

/-- The twin of a cluster: the same position on SPC (n + 16) mod 32 (R298). -/
def twinCluster (cl : Nat) : Nat := (cl + 64) % 128

/-- The clusters that a launch of an IOC takes, for its virtual clusters in order (R298). A launch of no cluster takes none, and
its kernel has no task (03 R55; log 58). -/
def State.findClusters (s : State) (i n : Nat) (paired : Bool) : Option (List Nat) :=
  let ok (g : Nat) : Bool := s.clusterFree g && (!paired || (decide (domainOf (g / 4) < 2) && s.clusterFree (twinCluster g)))
  let l := (((List.range 128).map fun k => ((s.ioc i).place + k) % 128).filter ok).take n
  if l.length = n then some l else none

/-- The ring-table entry of a ring record (11 R236; 19 R396). -/
def ringEntry (r : BitVec 128) : BitVec 128 :=
  let w := r.toNat
  BitVec.ofNat 128 (bits w 0 20 + bits w 40 5 * 2 ^ 20 + (bits w 48 16 + 255) % 256 * 2 ^ 25 + 2 ^ 33)

/-- The ring records of an image. -/
def Image.ringRecs (m : Image) : List (BitVec 128) := m.recs.filter fun r => bits r.toNat 32 8 == 1

/-- The registered objects in record order: a ring by its entry, a barrier by its offset; a record of another kind registers
nothing (03 R59; log 58). -/
def regObjects (j : Nat) : List (BitVec 128) → List (Bool × Nat)
  | [] => []
  | r :: l =>
    if bits r.toNat 32 8 = 1 then (true, j) :: regObjects (j + 1) l
    else if bits r.toNat 32 8 = 2 then (false, bits r.toNat 0 20) :: regObjects j l
    else regObjects j l

/-- A core made ready for a kernel: its `.spad` image and its ring table (R299). Ring records from the 33rd on have no entry, and
an entry that no record of the kernel names is left as it is (03 R59; log 58). -/
def State.loadCore (s : State) (m : Image) (core : Nat) : State :=
  let s1 := s.pokeAll 0 [(pkLsp core 0, m.spad.length)] m.spad
  let k := s1.core core
  s1.setCore core { k with rings := (m.ringRecs.zipIdx.filter fun e => e.2 < 32).foldl (fun t e => t.set e.2 (ringEntry e.1)) k.rings }

/-- A record offered to a cluster; one that finds no room anywhere stays in the spill buffer (R299, R312). -/
def State.offer (s : State) (cl : Nat) (r : TaskRec) : State :=
  match s.enqueue cl r with
  | some s1 => s1
  | none => { s with spill := s.spill ++ [(cl, r)] }

/-- Clusters become a kernel's. -/
def State.takeClusters (s : State) (k : Nat) (cls : List Nat) : State :=
  cls.foldl (fun s cl => s.setCluster cl { s.cluster cl with kernel := some k }) s

/-- The placing pointer G of an IOC after a launch (R298). -/
def State.movePlace (s : State) (i : Nat) (cls : List Nat) : State :=
  match cls.getLast? with
  | some g => s.setIoc i { s.ioc i with place := (g + 1) % 128 }
  | none => s

/-- A kernel placed on clusters (R298, R299). -/
def State.startKernel (s : State) (n : Nat) (p : Packet) (m : Image) (cls : List Nat) : State :=
  let q := s.slot n
  let o := q.origin p
  let id := s.nextId
  let twins := if m.paired then cls.map twinCluster else []
  let ninit := bits (p.fld 15) 32 6 + 1
  let ctrb := match s.devGetWord o.space (p.fld 5) with
    | .ok x => x
    | .error _ => 1
  let k : Kernel := {
    slot := n, pkt := p, asid := o.asid, tenant := o.tenant, htb := o.htb, ovfb := o.ovfb
    ovfs := o.ovfs, root := o.root, codeO := m.codeO, lvo := m.lvo, lvn := m.lvn, spads := m.spad.length, types := m.types, clus := cls
    twins := twins, objs := regObjects 0 m.recs, ctrb := BitVec.ofNat 64 ctrb, live := cls.length * ninit, excs := [], excOvf := []
    ioc := slotIoc n, qid := q.qid, saved := false, kept := [] }
  let s1 := { s with nextId := id + 1, kernels := s.kernels.set id k }
  let s2 := k.cores.foldl (fun s c => s.loadCore m c) (s1.takeClusters id (cls ++ twins))
  let prio := p.fld 12 % 4
  let s3 := cls.zipIdx.foldl (fun s e => (List.range ninit).foldl (fun s i =>
    s.offer e.1 ⟨initRecord e.2 i, 0, prio, id, e.2, none, false, none⟩) s) s2
  s3.movePlace (slotIoc n) cls

/-- A core of a kernel gets back what was saved of it (16 R351). -/
def State.reloadCore (s : State) (k : Nat) (cls twins : List Nat) (c : SavedCore) : State :=
  if c.kernel ≠ k then s
  else
    -- positions 4 to 7 are those of the twin cluster
    let cl := if c.pos < 4 then cls.getD c.vc 0 else twins.getD c.vc 0
    let core := 4 * cl + c.pos % 4
    let s1 := s.pokeAll 0 [(pkLsp core 0, c.spad.length)] c.spad
    let i := s1.ioc c.ioc
    (s1.setCore core { s1.core core with rings := c.rings, swz := c.swz }).setIoc c.ioc (i.giveSlot c.slot)

/-- The saved contexts of a core of a kernel. -/
def State.savedAt (s : State) (c : SavedCore) : List Nat :=
  (s.saved.filter fun (e : Nat × Saved) =>
    let x := s.ctx e.2.gcid
    x.al.kernel == c.kernel && x.al.vc == c.vc && e.2.core % 4 == c.pos % 4 && x.second == decide (4 ≤ c.pos)).map fun e => e.2.gcid

/-- Saved contexts killed for a slot that cannot be read, with TRAPC 0x19 (18 R421). -/
def State.killUnread (s : State) (l : List Nat) : State :=
  l.foldl (fun s g => if (s.ctxs.find? g).isSome then (s.setCtx g { s.ctx g with trapc := 0x19 }).kill g else s) s

/-- A saved kernel placed afresh: its cores reloaded, its records queued again (R312; 16 R351). Where a core's slot cannot be read,
the contexts saved on that core are killed (18 R421; log 63). -/
def State.replaceKernel (s : State) (id : Nat) (k : Kernel) (cls : List Nat) : State :=
  let twins := if k.paired then cls.map twinCluster else []
  let s1 := s.takeClusters id (cls ++ twins)
  let lost := (s.savedCores.filter fun c => c.kernel == id && !s.coreSlotReads c).flatMap s.savedAt
  let s2 := s1.savedCores.foldl (fun s c => s.reloadCore id cls twins c) s1
  let s3 := { s2 with savedCores := s2.savedCores.filter fun c => c.kernel != id }
  let s4 := s3.setKernel id { k with clus := cls, twins := twins, saved := false, kept := [] }
  ((k.kept.foldl (fun s r => s.offer (cls.getD r.vc 0) r) s4).movePlace k.ioc cls).killUnread lost

/-- The saved kernel of a slot whose tenant runs. -/
def State.savedKernel (s : State) (n : Nat) : Option (Nat × Kernel) :=
  (s.kernels.filter fun (k : Nat × Kernel) => k.2.slot == n && k.2.saved && s.tenantRuns k.2.ioc k.2.tenant).head?

/-- The physical clusters of a virtual cluster: its own, and its twin's. -/
def Kernel.pairOf (k : Kernel) (v : Nat) : List Nat := (k.clus[v]?).toList ++ (k.twins[v]?).toList

/-- A virtual cluster of a kernel that lies on a retired SPC, with every context of it saved or ended (15 R333). -/
def State.strandedOf (s : State) (k : Kernel) : Option Nat :=
  (List.range k.clus.length).find? fun v =>
    (k.pairOf v).any (fun cl => (s.spc (cl / 4)).ret) &&
      (k.pairOf v).all fun cl => (List.range 32).all fun i => (s.ctx (32 * cl + i)).st == .free

/-- A cluster's records, `.spad` regions, ring tables and swizzle maps moved to another (15 R333; 16 R351). -/
def State.moveCluster (s : State) (k : Kernel) (id src dst : Nat) : State :=
  let s1 := (s.setCluster dst { s.cluster src with kernel := some id }).setCluster src Cluster.reset
  let s2 := (List.range 4).foldl (fun s p =>
    let a := 4 * src + p
    let b := 4 * dst + p
    let s0 := s.poke (pkLsp b 0) (s.peek (pkLsp a 0) k.spads)
    s0.setCore b { s0.core b with rings := (s0.core a).rings, swz := (s0.core a).swz }) s1
  { s2 with spill := s2.spill.map fun e => if e.1 == src then (dst, e.2) else e }

/-- A virtual cluster placed anew on a free cluster or pair (15 R333). -/
def State.moveVirtual (s : State) (id : Nat) (k : Kernel) (v : Nat) : Option State :=
  match s.findClusters k.ioc 1 k.paired with
  | some (cl :: _) =>
    let s1 := s.moveCluster k id (k.clus.getD v 0) cl
    let s2 := if k.paired then s1.moveCluster k id (k.twins.getD v 0) (twinCluster cl) else s1
    some ((s2.setKernel id { k with
      clus := k.clus.set v cl, twins := if k.paired then k.twins.set v (twinCluster cl) else k.twins }).movePlace k.ioc [cl])
  | _ => none

/-- What is to be placed anew of the kernels of a slot (15 R333). -/
def State.stranded (s : State) (n : Nat) : Option State :=
  (s.kernels.filter fun (k : Nat × Kernel) => k.2.slot == n && !k.2.saved && s.tenantRuns k.2.ioc k.2.tenant).findSome?
    fun (k : Nat × Kernel) => (s.strandedOf k.2).bind fun v => s.moveVirtual k.1 k.2 v

/-- The placing of the packet that a LAUNCHING slot holds, where it can happen (R298, R299). -/
def State.placeLaunch (s : State) (n : Nat) : Option State :=
  let q := s.slot n
  match q.st, q.pkt with
  | .launching, some p =>
    if !s.tenantRuns (slotIoc n) q.tenant then none
    else
      (match s.loadImage (q.origin p).space p with
      | .error code => some (s.faultSlot n code (0, 0))
      | .ok m => (s.findClusters (slotIoc n) m.clus m.paired).map fun cls => (s.startKernel n p m cls).packetDone n)
  | _, _ => none

/-- What KERNEL_PLACEMENT does, where it can happen. A launch of IOC 1 lets one of IOC 0 that can be placed at the same time
take its clusters first (01 R15). -/
def State.placement (s : State) (n : Nat) : Option State :=
  let replaced := match s.savedKernel n with
    | some (id, k) => (s.findClusters k.ioc k.clus.length k.paired).map fun cls => s.replaceKernel id k cls
    | none => none
  match replaced.or (s.stranded n) with
  | some s1 => some s1
  | none => if slotIoc n = 1 && (iocSlots 0).any fun m => (s.placeLaunch m).isSome then none else s.placeLaunch n

/-- KERNEL_PLACEMENT (R298, R299, R312; 15 R333). -/
def execKernelPlacement (n : Nat) (s : State) : Host.Outcome State Fault Refusal := .next ((s.placement n).getD s)

end Sys2Proof.Machine
end

