-- ==== Sys2Proof/Machine/TaskEvents.lean ====
section
/-! DEFINITION. Tasks and kernels as their clusters and the queue scheduler handle them: dispatch, dependences, the spill
buffer, KLAUNCH packets, completion, and gang instants (08 R160; 14 R301 to R312, R420). -/

namespace Sys2Proof.Machine

/-! ### Dispatch -/

/-- ENTRY of a task type. -/
def tyEntry (t : Nat) : Nat := bits t 0 32

/-- Size of an LSP in bytes (01 R13). -/
def lspSize : Nat := 786432

/-- The lowest carve-out in use on a core: its low end (R304). -/
def State.carveLow (s : State) (core : Nat) : Nat :=
  ((s.tasksOn core).map fun g =>
    let a := (s.ctx g).al
    if a.spill = 0 then lspSize else a.cvhi - 1024 * a.spill).foldl min lspSize

/-- Whether LSP bytes of a core are free of allocations. -/
def State.lspFree (s : State) (core off size : Nat) : Bool :=
  !((s.tasksOn core).any fun g => let a := (s.ctx g).al; spansMeet a.off a.size off size)

/-- Where a task is placed on a core: context, LSP offset, top of the carve-out, regions. -/
structure Fit where
  /-- The context. -/
  g : Nat
  /-- Offset of the allocation. -/
  off : Nat
  /-- Top of the carve-out. -/
  cvhi : Nat
  /-- Accumulator regions. -/
  regions : List Nat
  deriving DecidableEq, Repr

/-- Whether a core takes a task of a class (15 R333). -/
def State.coreTakes (s : State) (core cls : Nat) : Bool :=
  !(s.core core).ret && !(s.spc (core / 16)).ret && (cls == 0 || !(s.core core).fen)

/-- The lowest places that a task type finds on each of some cores, one LSP offset for all (R304; log 28). Fields of the type
outside their ranges are used as they stand (03 R57; log 58). -/
def State.fitCores (s : State) (spads t cls : Nat) (cores : List Nat) : Option (List Fit) :=
  let size := 4096 * tySpad t
  let cvhi := (cores.map s.carveLow).foldl min lspSize
  let need := (tyAcc t + 1) / 2
  let ready := cores.all fun c =>
    s.coreTakes c cls && (s.freeOn c).isSome && decide (need ≤ (s.freeRegions c).length) && decide (tyVregs t ≤ s.freeVregs c)
  let room (off : Nat) : Bool :=
    decide (spads ≤ off) && decide (off + size + 1024 * tySpill t ≤ cvhi) && cores.all fun c => s.lspFree c off size
  -- the carve-out lies clear of every allocation
  let carve := cores.all fun c => decide (1024 * tySpill t ≤ cvhi) && s.lspFree c (cvhi - 1024 * tySpill t) (1024 * tySpill t)
  if !ready || !carve then none
  else
    match ((List.range 192).map (4096 * ·)).find? room with
    | none => none
    | some off => some (cores.map fun c => ⟨(s.freeOn c).getD 0, off, cvhi, (s.freeRegions c).take need⟩)

/-- Where a record at the head of a FIFO is placed: on its core, and for class 2 on its twin's (R304). -/
def State.fitRecord (s : State) (cl : Nat) (r : TaskRec) : Option (Kernel × Nat × List Fit) :=
  match s.kernels.find? r.kernel with
  | none => none
  | some k =>
    let t := k.type (recType r.word)
    match k.class' r.word with
    | none => none
    | some cls =>
      let twin := k.twins.getD (k.clus.findIdx (· == cl)) 0
      let on (p : Nat) : Option (List Fit) :=
        if bits (tyCores t) p 1 = 0 then none
        else s.fitCores k.spads t cls ((4 * cl + p) :: if cls = 2 then [4 * twin + p] else [])
      if s.tenantRuns k.ioc k.tenant then ((List.range 4).findSome? on).map fun f => (k, cls, f) else none

/-- The state a placed task starts with (R305). -/
def startCtx (k : Kernel) (id cls now : Nat) (r : TaskRec) (f : Fit) (first : Nat) : Ctx :=
  let t := k.type (recType r.word)
  let set (s : Vector Word 32) (i x : Nat) : Vector Word 32 := vset s i (BitVec.ofNat 64 x)
  let regs : Regs := { Regs.reset with
    s := set (set (set (set (set (set Regs.reset.s 1 r.word.toNat) 2 (k.pkt.fld 5)) 3 r.dep.toNat) 4 f.off) 5
      (r.vc % 128 + 128 * posOf f.g)) 30 f.cvhi
    ovfp := (k.ovfb + BitVec.ofNat 64 ((first + 1) * 2 ^ k.ovfs)) &&& csrBits 0x016
    -- bits [1:0] of a PC are always zero (02 R24)
    pc := BitVec.ofNat 64 ((k.pkt.fld 1 + k.codeO + tyEntry t) / 4 * 4) }
  let w (i x : Nat) : Word := BitVec.ofNat 64 x &&& csrBits i
  { Ctx.reset f.g with
    r := regs
    pcls := cls
    tgcid := first
    stepno := w 0x009 (k.pkt.fld 13)
    prio := w 0x100 r.prio
    asid := w 0x101 k.asid
    ttb := w 0x102 (k.pkt.fld 6)
    lkage := r.age.getD (BitVec.ofNat 64 now)
    runlim := w 0x104 (bits (k.pkt.fld 15) 0 32)
    liveb := w 0x105 (k.pkt.fld 1 + k.lvo)
    htb := w 0x106 k.htb.toNat
    lastPc := regs.pc
    ivs := [Interval.fresh 0 regs]
    al := { off := f.off, size := 4096 * tySpad t, cvhi := f.cvhi, spill := tySpill t, vregs := tyVregs t, acc := tyAcc t
            regions := f.regions, kernel := id, vc := r.vc, ttype := recType r.word, lkcls := tyLkcls t, home := clusterOf f.g, pos := posOf f.g } }

/-- A record placed: its context and its twin's become READY (R304, R305; 15 R316). -/
def State.startTask (s : State) (r : TaskRec) (k : Kernel) (cls : Nat) (fs : List Fit) : State :=
  match fs with
  | [f] => (s.setCtx f.g (startCtx k r.kernel cls s.now r f f.g)).endRun f.g .ready
  | f :: h :: _ =>
    let s1 := s.setCtx f.g { startCtx k r.kernel cls s.now r f f.g with twin := some h.g }
    let s2 := s1.setCtx h.g { startCtx k r.kernel cls s.now r h f.g with twin := some f.g, second := true }
    (s2.endRun f.g .ready).endRun h.g .ready
  | [] => s

/-- What a cluster dispatches next: the first FIFO, of the highest priority, whose head fits (R304). -/
def State.dispatchable (s : State) (cl : Nat) : Option (Nat × TaskRec × Kernel × Nat × List Fit) :=
  [3, 2, 1, 0].findSome? fun p =>
    match vget (s.cluster cl).fifo p [] with
    | [] => none
    | r :: _ => (s.fitRecord cl r).map fun f => (p, r, f)

/-- TASK_DISPATCH (R304, R305). -/
def execTaskDispatch (cl : Nat) (s : State) : Host.Outcome State Fault Refusal :=
  match s.dispatchable cl with
  | none => .next s
  | some (p, r, k, cls, fs) =>
    let c := s.cluster cl
    .next ((s.setCluster cl { c with fifo := vset c.fifo p ((vget c.fifo p []).tail) }).startTask r k cls fs)

/-! ### Dependences and the spill buffer -/

/-- A cause 14 record for an access of a kernel (R420; 18 R380). -/
def State.kernelFault (s : State) (k : Kernel) (e : Nat × Nat) : State :=
  s.postHost k.ioc ⟨14, 0, k.qid, 0, e.1, e.2 + 2 ^ 16 * k.asid⟩

/-- What the test of a pooled record does, where it moves: discarded on a failing read; moved to its FIFO, or to the
spill buffer; where that is full too, its spawn is refused (R303, R420; log 59). -/
def State.poolMove (s : State) (cl i : Nat) : Option State :=
  let c := s.cluster cl
  match c.pool[i]? with
  | none => none
  | some r =>
    match s.kernels.find? r.kernel with
    | none => none
    | some k =>
      let s1 := s.setCluster cl { c with pool := c.pool.eraseIdx i }
      match s.devGetWord k.space (k.depAddr r.dep) with
      | .error e => some ((s1.setKernel r.kernel { k with live := k.live - 1 }).kernelFault k e)
      | .ok x =>
        if bits r.dep.toNat 0 40 ≤ x then
          some ((s1.enqueue cl { r with met := true }).getD
            ((s1.setKernel r.kernel { k with live := k.live - 1 }).refuseSpawn r.by'))
        else none

/-- DEPENDENCE_RELEASE (R303, R420). -/
def execDependenceRelease (cl k : Nat) (s : State) : Host.Outcome State Fault Refusal := .next ((s.poolMove cl k).getD s)

/-- Whether record `i` of the spill buffer may leave it: its place has room, and no earlier record waits for the same
(R303). -/
def State.drains (s : State) (i : Nat) : Bool :=
  match s.spill[i]? with
  | none => false
  | some (cl, r) =>
    let pooled (x : TaskRec) : Bool := recDep x.word && !x.met
    (s.cluster cl).hasRoom r && !((s.spill.take i).any fun e => e.1 == cl && pooled e.2 == pooled r)

/-- SPILL_BUFFER_DRAIN (R303). -/
def execSpillBufferDrain (i : Nat) (s : State) : Host.Outcome State Fault Refusal :=
  s.event (s.drains i) fun s =>
    match s.spill[i]? with
    | some (cl, r) => { s with spill := s.spill.eraseIdx i }.setCluster cl ((s.cluster cl).accept r)
    | none => s

/-! ### KLAUNCH -/

/-- The words of a KLAUNCH packet, read in the space of the task (18 R421): word 0 and its fields (R292, R309). -/
def State.launchWords (s : State) (sp : Space) (a : Nat) : Except (Nat × Nat) (Nat × List Nat) :=
  match s.devGetWord sp a with
  | .error e => .error e
  | .ok w0 =>
    let n := (maskFields w0).length
    match s.devGet sp (a + 8) (8 * n) with
    | .error e => .error e
    | .ok bs => .ok (w0, cutWords 8 bs n)

/-- What a kernel gives a packet of KLAUNCH: its own, with the root of tensor 0 of the launching task (R309; 18 R421). -/
def State.launcherOf (s : State) (k : Kernel) (sp : Space) : Launcher :=
  ⟨k.asid, k.tenant, k.htb, k.ovfb, k.ovfs, ((s.descMem sp 0).map fun d => d.root).getD 0⟩

/-- A KLAUNCH packet that the launching kernel's slot accepts (R309): the slot still serves the kernel's queue, the kind is
LAUNCH, nothing is reserved, and the image is good. -/
def State.launchOk (s : State) (k : Kernel) (w0 : Nat) (p : Packet) (o : Launcher) : Bool :=
  let q := s.slot k.slot
  q.st != .free && q.qid == k.qid && (vget p.f 0 0).toNat % 4 == 0 && (packetCode w0 (BitVec.allOnes 16) p.f).isNone &&
    (s.readImage o.space p).isSome

/-- A command that has done what it does leaves its engine with nothing to set (R307). -/
def State.endPlain (s : State) (i : Nat) : State := s.dropCmd i

/-- KLAUNCH_PACKET_READ (R309, R420). -/
def execKlaunchPacketRead (i : Nat) (s : State) : Host.Outcome State Fault Refusal :=
  match s.cmds.find? i with
  | none => .next s
  | some e =>
    s.event (e.c.op == .klaunch) fun s =>
      match s.kernels.find? e.c.kernel with
      | none => s.endPlain i
      | some k =>
        match s.launchWords e.c.space (e.c.w 0) with
        | .error x => s.endFault i e (EngFault.at' x.2 x.1)
        | .ok (w0, ws) =>
          let o := s.launcherOf k e.c.space
          let p : Packet := ⟨mergeFields k.pkt.f w0 ws, some o, false⟩
          if s.launchOk k w0 p o then
            let q := s.slot k.slot
            let s1 := (s.endPlain i).setSlot k.slot { q with ins := q.ins ++ [p] }
            if q.st = .idle then s1.reReady k.slot else s1
          else s.endFault i e (EngFault.at' 5 0)

/-! ### Completion -/

/-- Whether every task of a kernel has ended (R301). -/
def State.kernelOver (s : State) (id : Nat) : Bool :=
  match s.kernels.find? id with
  | none => false
  | some k => k.live == 0 && !k.saved && k.kept == [] && !(s.ctxs.any fun (e : Nat × Ctx) => e.2.st != .free && e.2.al.kernel == id)

/-- The counts of a kernel for a tensor: SAT, FLUSH, NAN and CEIL. -/
def tidCounts (m : SMap Nat) (tid : Nat) : List Nat := (List.range 4).map fun i => m.at 0 (4 * tid + i)

/-- The bytes of a kernel's exception record (08 R160). -/
def Kernel.excRecord (k : Kernel) : List Byte :=
  let tids := ((k.excs.map fun (e : Nat × Nat) => e.1 / 4).eraseDups).filter fun t => (tidCounts k.excs t).any (· != 0)
  leBytes 0x45524358 4 ++ leBytes tids.length 4 ++ leBytes (k.excOvf.at 0 0) 4 ++ leBytes 0 20 ++
    tids.flatMap fun t => leBytes t 8 ++ ((tidCounts k.excs t).flatMap fun n => leBytes n 4) ++ leBytes 0 8

/-- The exception record written, where the packet names a place for it (08 R160). -/
def State.writeExc (s : State) (k : Kernel) : State :=
  if k.pkt.fld 7 = 0 then s
  else
    match s.devPut k.space (k.pkt.fld 7) k.excRecord with
    | .ok s1 => s1
    | .error e => s.kernelFault k e

/-- The completion CADD of a kernel. -/
def State.signalDone (s : State) (k : Kernel) : State :=
  match s.signal k.space k.pkt with
  | .ok s1 => s1
  | .error e => s.kernelFault k e

/-- An IDLE slot counts its 100 µs from now on (R289). -/
def State.idleFrom (s : State) (qid : Nat) : State :=
  { s with slots := s.slots.map fun (q : Nat × QSlot) =>
      (q.1, if q.2.st == .idle && q.2.qid == qid then { q.2 with idleAt := s.now } else q.2) }

/-- KERNEL_COMPLETE (R301; 08 R160). -/
def execKernelComplete (id : Nat) (s : State) : Host.Outcome State Fault Refusal :=
  s.event (s.kernelOver id) fun s =>
    match s.kernels.find? id with
    | none => s
    | some k =>
      let s1 := (s.writeExc k).signalDone k
      let s2 := if k.pkt.intr then s1.postHost k.ioc ⟨4, 0, k.qid, 0, 0, 0⟩ else s1
      let s3 := s2.freeClusters id
      { s3 with kernels := s3.kernels.erase id }.idleFrom k.qid

/-! ### Gang time slices -/

/-- AT of an entry of an IOC's slice table. -/
def Ioc.at' (c : Ioc) (i : Nat) : Nat := (vget c.gslt i 0).toNat

/-- Whether an entry is valid. -/
def Ioc.val (c : Ioc) (i : Nat) : Bool := (vget c.gsln i 0).getLsbD 4

/-- Whether an entry is skipped: another has acted in its period at an instant that does not lie below its AT; with PER = 0 the
period has no end (R311). -/
def Ioc.skipped (c : Ioc) (i : Nat) : Bool :=
  c.gacted.any fun (e : Nat × Nat) => e.1 != i && decide (c.at' i ≤ e.2) && (c.gsper == 0 || decide (e.2 < c.at' i + c.gsper.toNat))

/-- Whether the AT of an entry is still to pass: with PER = 0 it passes once (R311). -/
def Ioc.pendingAt (c : Ioc) (i : Nat) : Bool := decide (i < 16) && (c.gsper != 0 || (c.gacted.find? i).isNone)

/-- Whether the AT of an entry passes now: of those whose instant has come, the first; of equal ones the highest (R311). -/
def Ioc.passes (c : Ioc) (i now : Nat) : Bool :=
  c.pendingAt i && decide (c.at' i ≤ now) &&
    !((List.range 16).any fun j => c.pendingAt j && (decide (c.at' j < c.at' i) || (c.at' j == c.at' i && decide (i < j))))

/-- Whether an entry acts as its AT passes (R311). -/
def Ioc.acts (c : Ioc) (i now : Nat) : Bool := c.passes i now && c.val i && !c.skipped i

/-- An entry whose AT has passed: the period is added to it; to that of an invalid entry as often as it has passed (R311). -/
def Ioc.passedAt (c : Ioc) (i now : Nat) : Ioc :=
  let n := if c.val i || c.gsper = 0 then 1 else (now - c.at' i) / c.gsper.toNat + 1
  let gacted := if c.acts i now || c.gsper = 0 then c.gacted.set i (c.at' i) else c.gacted
  { c with gacted := gacted, gslt := vset c.gslt i (vget c.gslt i 0 + BitVec.ofNat 64 (n * c.gsper.toNat)) }

/-- The contexts of kernels that an IOC placed for tenants other than the one that runs. -/
def State.outgoing (s : State) (i t : Nat) : List Nat :=
  (s.ctxs.filter fun (e : Nat × Ctx) => e.2.st != .free && decide (e.1 < 4096) &&
    (match s.kernels.find? e.2.al.kernel with
      | some k => k.ioc == i && k.tenant != t
      | none => false)).map (·.1)

/-- GANG_INSTANT (R311, R312): an entry that is invalid or skipped only passes. -/
def execGangInstant (i e : Nat) (s : State) : Host.Outcome State Fault Refusal :=
  s.event ((s.ioc i).passes e s.now) fun s =>
    let c := s.ioc i
    if !c.acts e s.now then s.setIoc i (c.passedAt e s.now) else
    let t := (vget c.gsln e 0).toNat % 16
    let s1 := s.setIoc i { c.passedAt e s.now with tenant := some t }
    let l := s1.outgoing i t
    let s2 := (s1.requestSave false l).releaseKernels i
    if l = [] then s2 else s2.tellFull i

end Sys2Proof.Machine
end

