-- ==== Sys2Proof/Machine/SaveEvents.lean ====
section
/-! DEFINITION. Pre-emption: requests, deadlines, saving and restoring of contexts; and the ABORT tokens (16 R346 to
R352; 15 R333). -/

namespace Sys2Proof.Machine

/-! ### Requests and deadlines -/

/-- PRQ_GO (R347): for a context of a kernel that the IOC placed. -/
def execPrqGo (i g : Nat) (s : State) : Host.Outcome State Fault Refusal :=
  s.event (decide (g < 4096) && (s.ctx g).st != .free && s.iocOf g == i) fun s => (s.requestSave false [g]).tellFull i

/-- The time at which a deadline of a context's request passes: the first, then a further DL later (R348). -/
def State.deadline (s : State) (g n : Nat) : Option Nat :=
  (s.ctx g).pend.map fun t => t + n * bits (s.ioc (s.iocOf g)).predl.toNat 0 32

/-- Whether a deadline has passed. -/
def State.pastDeadline (s : State) (g n : Nat) : Bool :=
  match s.deadline g n with
  | some t => decide (t ≤ s.now)
  | none => false

/-- PREEMPT_DEADLINE_FIRST (R348). -/
def execPreemptDeadlineFirst (g : Nat) (s : State) : Host.Outcome State Fault Refusal :=
  let c := s.ctx g
  s.event (c.st != .free && !c.pendWhole && s.pastDeadline g 1) fun s => (s.requestSave true [g]).tellFull (s.iocOf g)

/-- Whether a parked context may be saved: its closed intervals have agreed, and no trap waits for it, a wound
neither (R348). -/
def Ctx.parkedReady (c : Ctx) : Bool := c.st == .parked && c.pend.isSome && c.ivs.length == 1 && c.due' == [] && !c.wndp && !c.savingNow

/-- The bundle at whose end PREEMPT is delivered: the last, or that of the wait (R342). -/
def Ctx.lastBundle (c : Ctx) : Word :=
  match c.wait with
  | some (_, pc, _) => pc
  | none => c.lastPc

/-- PREEMPT taken: the context rolls back, a wait is abandoned, and it is saved whole (04 R69; R342, R343, R348). -/
def State.preempt (s : State) (g : Nat) : State :=
  let pc := (s.ctx g).lastBundle
  let s1 := s.rollback g
  (s1.setCtx g ((s1.ctx g).setTrap ⟨0x19, 0, pc, 0, 0, 0, 0, 0, .handler⟩)).beginSave g none

/-- Whether a context may be pre-empted between checkpoints: one that runs, or is parked and cannot be saved with its wait
(04 R69); one whose interval has agreed takes its copy first (12 R248, R265). -/
def Ctx.preemptible (c : Ctx) : Bool :=
  (c.st == .issuing || c.st == .ready || (c.st == .parked && !c.parkedReady)) && !c.savingNow && !c.between

/-- The wound of a context past its second deadline taken in place of the save (R348; 13 R275). -/
def State.woundInstead (s : State) (g : Nat) : State :=
  if (s.ctx g).wndp then s.takeTrap g ⟨0x0B, 0, (s.ctx g).lastBundle, 0, 0, 0, 0, 0, .handler⟩ else s

/-- Free save slots of an IOC. -/
def Ioc.freeSlots (c : Ioc) : Nat := ((List.range c.nslot).filter fun n => (c.used.find? n).isNone).length

/-- PREEMPT_DEADLINE_SECOND (R348): both twins of a pair; a pending WOUND is delivered instead. -/
def execPreemptDeadlineSecond (g : Nat) (s : State) : Host.Outcome State Fault Refusal :=
  let c := s.ctx g
  let free := (s.ioc (s.iocOf g)).freeSlots
  let can := c.pendWhole && s.pastDeadline g 2 && c.preemptible
  match c.twin with
  | none => s.event (can && (c.wndp || decide (1 ≤ free))) fun s => if c.wndp then s.woundInstead g else s.preempt g
  | some t =>
    let w := c.wndp || (s.ctx t).wndp
    s.event (can && (s.ctx t).preemptible && (w || decide (2 ≤ free))) fun s =>
      if w then (s.woundInstead g).woundInstead t else (s.preempt g).preempt t

/-- A parked context closes its interval and is HELD until that has agreed (R348). -/
def State.parkSave (s : State) (g : Nat) : State := (s.closeInterval g).beginSave g none

/-- PARKED_SAVE (R348): both twins of a pair. -/
def execParkedSave (g : Nat) (s : State) : Host.Outcome State Fault Refusal :=
  let c := s.ctx g
  let free := (s.ioc (s.iocOf g)).freeSlots
  match c.twin with
  | none => s.event (c.parkedReady && decide (1 ≤ free)) fun s => s.parkSave g
  | some t => s.event (c.parkedReady && (s.ctx t).parkedReady && decide (2 ≤ free)) fun s => (s.parkSave g).parkSave t

/-! ### What a save keeps -/

/-- What a save names: scalar and vector registers, row groups of the allocation, LSP ranges (R350). -/
structure Keep where
  /-- Scalar registers. -/
  s : List Nat
  /-- Vector registers. -/
  v : List Nat
  /-- Row groups. -/
  groups : List Nat
  /-- LSP ranges of the allocation: offset and length. -/
  lsp : List (Nat × Nat)
  deriving DecidableEq, Repr

/-- A range clipped to an allocation. -/
def Alloc.clip (a : Alloc) (off n : Nat) : Nat × Nat :=
  let lo := max off a.off
  (lo, min (off + n) (a.off + a.size) - lo)

/-- A whole save. -/
def Alloc.keepAll (a : Alloc) : Keep := ⟨List.range 32, List.range 32, List.range a.acc, [(a.off, a.size)]⟩

/-- The LSP ranges of a liveness entry (03 R58). -/
def entryRanges (w : Nat) : List (Nat × Nat) :=
  (List.range (bits w 8 2)).map fun i => (bits w (64 + 64 * i) 32, bits w (96 + 64 * i) 32)

/-- What the save of a context keeps (R350). -/
def State.keepOf (s : State) (g : Nat) (hint : Option Hint) : Keep :=
  let a := (s.ctx g).al
  match hint with
  | none => a.keepAll
  | some (_, k1, k2, w) =>
    ⟨(List.range 32).filter fun i => decide (i < 4) || i == 30 || k1.getLsbD (i - 4),
      (List.range 32).filter fun i => decide (i < 4) || (decide (i < a.vregs) && k2.getLsbD (i - 4)),
      (List.range a.acc).filter fun b => bits w b 1 == 1,
      ((entryRanges w).map fun r => a.clip r.1 r.2).filter fun r => r.2 != 0⟩

/-- The part of the carve-out that is saved: from s30 to its top, or the whole (R349). -/
def Ctx.carveRange (c : Ctx) : Nat × Nat :=
  let hi := c.al.cvhi
  let lo := hi - 1024 * c.al.spill
  let p := (c.r.rs 30).toNat
  if lo ≤ p && p ≤ hi then (p, hi - p) else (lo, hi - lo)

/-- The registers with those not saved zero (R352). -/
def Regs.keepOnly (r : Regs) (k : Keep) : Regs :=
  { r with
    s := (List.range 32).foldl (fun v i => if k.s.contains i then v else vset v i 0) r.s
    v := (List.range 32).foldl (fun v i => if k.v.contains i then v else vset v i 0) r.v }

/-- Whether every byte of an allocation lies in some range of a list. -/
def covered (a : Alloc) (l : List (Nat × Nat)) : Bool :=
  (List.range (a.size / 128)).all fun i => l.any fun r => decide (r.1 ≤ a.off + 128 * i) && decide (a.off + 128 * i + 128 ≤ r.1 + r.2)

/-- The rows of a row group of the allocation. -/
def groupRows (b : Nat) : List Nat := (List.range 64).map (64 * b + ·)

/-- What is saved of a context, in a slot of an IOC (R349, R350). -/
def State.savedOf (s : State) (g gcid ioc slot : Nat) (hint : Option Hint) : Saved :=
  let c := s.ctx g
  let k := s.keepOf g hint
  let core := coreOf g
  let st := (s.core core).acc
  let cv := c.carveRange
  { gcid := gcid, core := core, ioc := ioc, slot := slot, hint := hint
    lsp := (k.lsp ++ if cv.2 = 0 then [] else [cv]).map fun r => (r.1, s.peek (pkLsp core r.1) r.2)
    rows := (k.groups.flatMap groupRows).map fun r =>
      let p := c.al.physRow r
      (r, st.row p, st.col p, st.rowEx.getLsbD p)
    cols := c.al.regions.map fun q => BitVec.ofNat 128 (bits st.colEx.toNat (128 * q) 128)
    ginv := k.groups.filter fun b => st.ginv.getLsbD (c.al.physRow (64 * b) / 64)
    dscd := !covered c.al k.lsp }

/-! ### The save slot -/

/-- Registers in the layout of a slot from an offset on: s, n, h, q from `0x800`, v from `0x2000` (R349). -/
def slotRegs (r : Regs) (k : Keep) (base : Nat) : List (Nat × List Byte) :=
  (k.s.map fun i => (base + 0x800 + 8 * i, leBytes (r.rs i).toNat 8)) ++
    ((List.range 16).map fun i => (base + 0x900 + 32 * i, leBytes (r.rn i).toNat 32)) ++
    ((List.range 8).map fun i => (base + 0xB00 + 16 * i, leBytes (r.rh i).toNat 16)) ++
    ((List.range 4).map fun i => (base + 0xB80 + 512 * i, leBytes (r.rq i).toNat 512)) ++
    k.v.map fun i => (base + 0x2000 + 0x200 * i, leBytes (r.rv i).toNat 512)

/-- The bytes of a part of a slot that holds some items in an arrangement that the manual leaves open (log 29). -/
def slotOpen (items : List Nat) : List Byte := (List.range 0x400).map fun i => Config.slotByte i items

/-- A wait instruction and its operands as numbers (R349). -/
def Wait.items : Wait → List Nat
  | .flag all mask => [1, all.toNat, mask.toNat]
  | .ge d pa x va => [2, d, pa, x.toNat, va.toNat]
  | .bar d pa ph bound va => [3, d, pa, ph, bound.getD 0, va.toNat]
  | .ring d core rix prod h n => [4, d, core, rix, prod.toNat, h, n]
  | .lock d n => [5, d, n.asid, n.tid, n.level, n.obj]

/-- The header of a slot: both GCIDs, the virtual cluster, the position, the kind of save, the liveness entry's index, LKAGE,
and TRAPC of a PREEMPT (R349). -/
def Ctx.headItems (c : Ctx) (g : Nat) (hint : Option Hint) : List Nat :=
  let kind := if hint.isSome then 0 else if c.wait.isSome then 2 else 1
  [c.tgcid, g, c.al.vc, posOf g, kind, (hint.map (·.1)).getD 0, c.lkage.toNat, if c.trapc = 0x19 then 0x19 else 0]

/-- The control registers of R41, CTXST first. -/
def csrList : List Nat := List.range 10 ++ (List.range 7).map (0x10 + ·) ++ (List.range 7).map (0x100 + ·)

/-- The block at `0x400` of a slot: control registers, f, p, l, WNDP and the parked wait (R349). -/
def Ctx.blockItems (c : Ctx) (g : Nat) : List Nat :=
  csrList.map (fun i => (c.csr g i).toNat) ++ [c.r.f.toNat, c.r.p.toNat] ++ c.r.l.toList.map BitVec.toNat ++ [c.wndp.toNat] ++
    match c.wait with
    | some (w, pc, slot) => w.items ++ [pc.toNat, slot]
    | none => []

/-- The pieces of a slot: offset and bytes (R349). -/
def State.slotPieces (s : State) (g : Nat) (v : Saved) : List (Nat × List Byte) :=
  let c := s.ctx g
  let k := s.keepOf g v.hint
  let lo := c.al.cvhi - 1024 * c.al.spill
  let rowEx := v.rows.foldl (fun n r => if r.2.2.2 then n + 2 ^ r.1 else n) 0
  [(0, slotOpen (c.headItems g v.hint)), (0x400, slotOpen (c.blockItems g))] ++ slotRegs c.r k 0 ++
    (match c.hnd, c.tcopy with
      | true, some t => (0x6000, slotOpen ({ c with r := t, wait := none }.blockItems g)) :: slotRegs t c.al.keepAll 0x5C00
      | _, _ => []) ++
    (v.rows.map fun r => (0xC000 + 8 * r.1, leBytes r.2.2.1.toNat 8)) ++
    [(0xD000, leBytes rowEx 64), (0xD040, v.cols.flatMap fun x => leBytes x.toNat 16)] ++
    (v.rows.map fun r => (0x10000 + 512 * r.1, leBytes r.2.1.toNat 512)) ++
    v.lsp.map fun p => (if p.1 < lo || c.al.spill = 0 then 0x50000 + (p.1 - c.al.off) else 0x110000 + (p.1 - lo), p.2)

/-- Pieces written to a save slot in order; none where one cannot be written. -/
def State.writePieces (s : State) (base : Nat) : List (Nat × List Byte) → Option State
  | [] => some s
  | (o, bs) :: r =>
    match s.devPut s.sysSpace (base + o) bs with
    | .ok s1 => s1.writePieces base r
    | .error _ => none

/-! ### Saving -/

/-- Whether a context is HELD for a save that can be completed: its intervals have agreed and its entries and commands
are over (R348; 07 R144). -/
def State.saveReady (s : State) (g : Nat) : Bool :=
  let c := s.ctx g
  c.st == .held && c.saving.isSome && c.scb == [] && (c.ivs.dropLast.all (·.agreed)) &&
    (match c.ivs.getLast? with
      | some i => i.agreed || i.sig.isNone
      | none => true) && s.settled g

/-- The slot of an IOC that a context has taken. -/
def State.slotTaken (s : State) (g : Nat) : Nat :=
  (((s.ioc (s.iocOf g)).used.filter fun (e : Nat × Nat) => e.2 == g).head?.map (·.1)).getD 0

/-- A context saved: it stands among the saved ones under a number of its own, and its place on the core is FREE. -/
def State.putAway (s : State) (g : Nat) (v : Saved) (k : Keep) : State :=
  let c := s.ctx g
  let s0 := s.dropGcid g
  let c1 := { c with
    r := c.r.keepOnly k, st := .held, saving := none, pend := none, pendWhole := false, fl := [], mx := [], chains := []
    stall := none, dscd := c.dscd || v.dscd }
  let s1 := ((s0.setCtx v.gcid c1).freeCtx g).rename g v.gcid
  let io := s1.ioc v.ioc
  { s1.setIoc v.ioc { io with used := io.used.set v.slot v.gcid } with
    saved := s1.saved.set s1.nextId v, nextId := s1.nextId + 1 }

/-- SAVE_COMPLETE (R349 to R351; 18 R421): a slot that cannot be written kills the task with TRAPC 0x19. -/
def execSaveComplete (g : Nat) (s : State) : Host.Outcome State Fault Refusal :=
  let c := s.ctx g
  match c.saving with
  | none => .next s
  | some hint =>
    s.event (s.saveReady g) fun s =>
      let i := s.iocOf g
      let slot := s.slotTaken g
      let v := s.savedOf g (4096 + s.nextId) i slot hint
      match s.writePieces ((s.ioc i).svpb.toNat % 2 ^ 57 + 2 ^ 21 * slot) (s.slotPieces g v) with
      | none => (s.setCtx g { c with trapc := 0x19 }).kill g
      | some s1 => (s1.putAway g v (s.keepOf g hint)).releaseKernels i

/-! ### Restoring -/

/-- The physical cluster of a saved context's virtual cluster. -/
def State.homeNow (s : State) (c : Ctx) : Option Nat :=
  match s.kernels.find? c.al.kernel with
  | none => none
  | some k => if k.saved || !s.tenantRuns k.ioc k.tenant then none else (if c.second then k.twins else k.clus)[c.al.vc]?

/-- Whether a core of a cluster takes a saved context (R352; 15 R333). -/
def State.takesSaved (s : State) (c : Ctx) (core : Nat) : Bool := s.coreTakes core c.pcls && s.coreFits core c.al

/-- The position at which saved contexts are restored, all of them at one: that they had, or where its core takes them no
more, the lowest that fits (R352; 15 R333). -/
def State.restorePos (s : State) (pos : Nat) (l : List (Ctx × Nat)) : Option Nat :=
  if l.all fun e => s.coreTakes (4 * e.2 + pos) e.1.pcls then
    (if l.all fun e => s.takesSaved e.1 (4 * e.2 + pos) then some pos else none)
  else (List.range 4).find? fun p => l.all fun e => s.takesSaved e.1 (4 * e.2 + p)

/-- The accumulator regions of a restored context: saved rows at their places, the others zero, checksum rows rebuilt
(R352; 10 R223). They are rebuilt in the type that FMT of the saved MXCFG gives, as the store tags none (DESIGN CHOICE, log 73). -/
def AccStore.restore (a : AccStore) (al : Alloc) (fp : Bool) (v : Saved) : AccStore :=
  let all := (List.range (128 * al.regions.length)).map al.physRow
  let a1 := { a with
    rows := all.foldl (fun m r => m.set r 0) a.rows
    chkcol := all.foldl (fun m r => m.set r 0) a.chkcol
    rowEx := all.foldl (fun x r => setBit x r false) a.rowEx
    ginv := all.foldl (fun x r => setBit x (r / 64) false) a.ginv
    bad := a.bad.filter fun x => !all.contains (x / 128)
    colEx := (al.regions.zip v.cols).foldl (fun x e =>
      (List.range 128).foldl (fun y n => setBit y (128 * e.1 + n) (e.2.getLsbD n)) x) a.colEx }
  let a2 := v.rows.foldl (fun (b : AccStore) r =>
    let p := al.physRow r.1
    { b with rows := b.rows.set p r.2.1, chkcol := b.chkcol.set p r.2.2.1, rowEx := setBit b.rowEx p r.2.2.2 }) a1
  let a3 := { a2 with ginv := v.ginv.foldl (fun x g => setBit x (al.physRow (64 * g) / 64) true) a2.ginv }
  al.regions.foldl (fun b q => b.rebuild fp q) a3

/-- A wait whose object lies where its context has been restored: keys and cores of its cluster before as those of its
cluster now, and of its own LSP as those of its core now (11 R239; 12 R259, R263). -/
def Wait.moved (w : Wait) (src dst old new : Nat) : Wait :=
  let key (pa : Nat) (va : Word) : Nat := if regionOf va.toNat = 0 && lspOf pa == some old then pkLsp new (pa - pkLsp old 0) else moveKey src dst pa
  match w with
  | .ge d pa x va => .ge d (key pa va) x va
  | .bar d pa ph bound va => .bar d (key pa va) ph bound va
  | .ring d core rix prod h n => .ring d (moveCore src dst core) rix prod h n
  | x => x

/-- A saved context restored on a core (R352). A wound that waits for it is delivered before its first bundle (13 R275). -/
def State.restoreOn (s : State) (k : Nat) (v : Saved) (core : Nat) : State :=
  let c := s.ctx v.gcid
  let n := (s.freeOn core).getD 0
  let al := { s.allocOn core c.al with home := core / 4, pos := core % 4 }
  let zero := s.poke (pkLsp core al.off) (List.replicate al.size 0)
  let s1 := v.lsp.foldl (fun s p => s.poke (pkLsp core p.1) p.2) zero
  let q := s1.core core
  let s2 := s1.setCore core { q with
    acc := q.acc.restore al (fmtFloat (cfgFmt c.r.mxcfg.toNat)) v
    wb0 := { q.wb0 with valid := false }, wb1 := { q.wb1 with valid := false } }
  let io := s2.ioc v.ioc
  let s3 := s2.setIoc v.ioc (io.giveSlot v.slot)
  let c1 := { c with
    al := al, ivs := [c.openWith c.r], nextIv := c.nextIv + 1, opened := c.bseq, siglo := 0, sighi := 0, wndAt := 0
    wait := c.wait.map fun w => (w.1.moved c.al.home (core / 4) v.core core, w.2)
    todo := if c.wait.isSome then c.todo else c.firstWork ++ c.todo }
  let s4 := (s3.setCtx n c1).rename v.gcid n
  let s5 := { s4 with ctxs := s4.ctxs.erase v.gcid, saved := s4.saved.erase k }
  s5.endRun n (if c.wait.isSome then .parked else .ready)

/-- The saved entry of a context. -/
def State.savedEntry (s : State) (gcid : Nat) : Option (Nat × Saved) :=
  (s.saved.filter fun (e : Nat × Saved) => e.2.gcid == gcid).head?

/-- Where a saved context and its twin are restored, where they can be: entries with their cores. -/
def State.restorable (s : State) (k : Nat) : Option (List (Nat × Saved × Nat)) :=
  match s.saved.find? k with
  | none => none
  | some v =>
    let c := s.ctx v.gcid
    let others := match c.twin with
      | none => some []
      | some t => (s.savedEntry t).map fun e => [e]
    match others with
    | none => none
    | some l =>
      let es := (k, v) :: l
      let homes := es.map fun e => s.homeNow (s.ctx e.2.gcid)
      if homes.any (·.isNone) then none
      else
        let cl := homes.map (·.getD 0)
        (s.restorePos (posOf (8 * v.core)) ((es.map fun e => s.ctx e.2.gcid).zip cl)).map fun p =>
          (es.zip cl).map fun e => (e.1.1, e.1.2, 4 * e.2 + p)

/-- Whether every piece of a save slot can be read (18 R421). -/
def State.slotReads (s : State) (v : Saved) : Bool :=
  (s.slotPieces v.gcid v).all fun p =>
    (s.devGet s.sysSpace ((s.ioc v.ioc).svpb.toNat % 2 ^ 57 + 2 ^ 21 * v.slot + p.1) p.2.length).isOk

/-- RESTORE (R352): twins together; a slot that cannot be read kills the task with TRAPC 0x19 (18 R421). -/
def execRestore (k : Nat) (s : State) : Host.Outcome State Fault Refusal :=
  match s.restorable k with
  | none => .next s
  | some l =>
    let lost := (l.filter fun e => !s.slotReads e.2.1).map fun e => e.2.1.gcid
    .next (if lost.isEmpty then l.foldl (fun s e => s.restoreOn e.1 e.2.1 e.2.2) s else s.killUnread lost)

/-! ### ABORT tokens -/

/-- Whether a context belongs to a kernel registered with a group. -/
def State.inGroup (s : State) (grp : Nat) (c : Ctx) : Bool :=
  c.st != .free &&
    (match s.kernels.find? c.al.kernel with
      | some k => s.groupHas k.ioc grp k.asid
      | none => false)

/-- Whether the ABORT of a group is still being delivered, or a context of it is in handler mode for an ABORT (R346). -/
def State.aborting (s : State) (grp : Nat) : Bool :=
  (s.ioc 0).tokens.any (fun t => t.grp == grp) ||
    s.ctxs.any fun (e : Nat × Ctx) => s.inGroup grp e.2 &&
      (e.2.due'.any (fun t => t.cause == 0x18 && t.n1 == BitVec.ofNat 64 grp) || (e.2.hnd && e.2.trapc.toNat % 256 == 0x18))

/-- The package's minimum completed step over the kernels registered with a group (R346). -/
def State.groupStep (s : State) (grp : Nat) : Word :=
  (s.kernels.filter fun (k : Nat × Kernel) => s.groupHas k.2.ioc grp k.2.asid).foldl
    (fun (m : Word) (k : Nat × Kernel) => let x := s.kernelStep k.1; if x.toNat < m.toNat then x else m) (BitVec.allOnes 64)

/-- Every COLL of a group in progress ends with kind 7 (R346; 11 R230). -/
def State.endColls (s : State) (grp : Nat) : State :=
  (s.cmds.filter fun (e : Nat × EngCmd) => e.2.c.op == .coll && bits e.2.c.ctl 32 16 == grp).foldl
    (fun s (e : Nat × EngCmd) => s.endFault e.1 e.2 (EngFault.at' 7 0)) s

/-- The lesser of two steps. -/
def minStep (a b : Word) : Word := if a.toNat < b.toNat then a else b

/-- ABORT_TOKEN_RECEIVE (R346). -/
def execAbortTokenReceive (grp : BitVec 16) (st : Word) (s : State) : Host.Outcome State Fault Refusal :=
  let n := grp.toNat
  s.event (!s.aborting n) fun s =>
    let s1 := s.endColls n
    s1.setIoc 0 { s1.ioc 0 with tokens := (s1.ioc 0).tokens ++ [⟨n, minStep st (s.groupStep n), s.now⟩] }

/-- ABORT_ANSWER (R346): within 100 µs of the token, while a link lives. -/
def execAbortAnswer (grp : BitVec 16) (st : Word) (s : State) : Host.Outcome State Fault Refusal :=
  let io := s.ioc 0
  let answered (t : Token) : Token :=
    if t.grp == grp.toNat && decide (s.now ≤ t.at' + 100000) then { t with step := minStep t.step st } else t
  s.event (!s.unreachable) fun s => s.setIoc 0 { io with tokens := io.tokens.map answered }

/-- ABORT delivered to every context of a group's kernels: each takes it at the end of its current bundle, one that is ENDING
only if it runs again (04 R60; R346). -/
def State.deliverAbort (s : State) (t : Token) : State :=
  let trap (c : Ctx) : TrapReq := ⟨0x18, 0, c.r.pc, 0, t.step, 0, BitVec.ofNat 64 t.grp, 0, .handler⟩
  let give (s : State) (e : Nat × Ctx) : State :=
    let c := s.ctx e.1
    s.setCtx e.1 { c with due' := c.due' ++ [trap c] }
  (s.ctxs.filter fun (e : Nat × Ctx) => s.inGroup t.grp e.2).foldl give s

/-- ABORT_ANSWER_WINDOW_EXPIRY (R346). -/
def execAbortAnswerWindowExpiry (grp : BitVec 16) (s : State) : Host.Outcome State Fault Refusal :=
  let io := s.ioc 0
  match io.tokens.find? fun t => t.grp == grp.toNat && decide (t.at' + 100000 ≤ s.now) with
  | none => .next s
  | some t => .next ((s.setIoc 0 { io with tokens := io.tokens.filter fun x => x.grp != grp.toNat }).deliverAbort t)

end Sys2Proof.Machine
end

