-- ==== Sys2Proof/Machine/FabricEvents.lean ====
section
/-! DEFINITION. Links, global time, the host's aperture and its reads and writes of device registers; FREEZE, module
reset and the retirement record (00 R6; 18 R378 to R392). -/

namespace Sys2Proof.Machine

/-! ### Voltage -/

/-- Nanoseconds in a second. -/
def second : Nat := 1000000000

/-- PFTH of UVCFG. -/
def Msc.pfth (m : Msc) : Nat := bits m.uvcfg.toNat 16 16

/-- A domain of the MSC. -/
def Msc.volt (m : Msc) (d : Nat) : Volt := vget m.volts d Volt.reset

/-- Corrected errors of an array in the last 600 s (R387). -/
def Volt.count (v : Volt) (up a : Nat) : Nat :=
  (v.errs.filter fun e => e.2 == a && decide (up < e.1 + 600 * second)).length

/-- The arrays of a domain with a count. -/
def Volt.arrays (v : Volt) : List Nat := (v.errs.map (·.2)).foldl (fun l a => insertNat a l) []

/-- The arrays above PFTH (R387). -/
def Volt.above (v : Volt) (up th : Nat) : List Nat := v.arrays.filter fun a => decide (th < v.count up a)

/-- The arrays that have crossed PFTH and are above it still: one that has fallen below may cross anew (R387). -/
def Msc.cool (m : Msc) : Msc :=
  { m with volts := m.volts.map fun v => { v with crossed := v.crossed.filter fun a => (v.above m.up m.pfth).contains a } }

/-- UVST (R387). -/
def Msc.uvst (m : Msc) : Word :=
  BitVec.ofNat 64 (((List.range 4).map fun d =>
    ((m.volt d).step % 8 + (if (m.volt d).hold.isSome then 8 else 0)) * 16 ^ d).sum)

/-! ### Links -/

/-- The IOC that carries a link: nine towers and four scale-out ports each, the host link on IOC 0 (R378, R381). -/
def linkIoc (l : Nat) : Nat := if l < 18 then l / 9 else if l < 26 then (l - 18) / 4 else 0

/-- How many lanes a link has, each with an injector: the host link 16 (R378, R389). -/
def lanesOf (l : Nat) : Nat := if l = 26 then 16 else Config.lanes l + 1

/-- The flits that an injector has counted with one more (R389). -/
def Injector.count (j : Injector) : Nat := if j.reg.getLsbD 3 then j.flits + 1 else j.flits

/-- Whether an injector acts on the flit that arrives (R389). -/
def Injector.acts (dbgen : Word) (j : Injector) : Bool :=
  let w := j.reg.toNat
  let every := bits w 32 32
  dbgen.getLsbD 0 && bits w 0 2 != 0 && bits w 3 1 == 1 && every != 0 &&
    (if bits w 2 1 = 1 then j.count % every == 0 else j.count == every)

/-- Whether an acting injector spoils the flit: it corrupts a bit of it or drops it (R389). -/
def Injector.spoils (j : Injector) : Bool :=
  let mode := bits j.reg.toNat 0 2
  (mode == 1 && bits j.reg.toNat 16 16 != 0) || mode == 2

/-- An injector after a flit: ARM is cleared by a single action (R389). -/
def Injector.after (dbgen : Word) (j : Injector) : Injector :=
  ⟨if j.acts dbgen && !j.reg.getLsbD 2 then j.reg &&& ~~~8#64 else j.reg, j.count⟩

/-- Whether a flit arrives good: its CRC and sequence number hold, and no injector of a lane spoils it (R381, R389). A flit runs
over every lane of its link (log 74). -/
def Link.delivers (k : Link) (dbgen : Word) (good : Bool) : Bool :=
  good && !k.inj.any fun (e : Nat × Injector) => e.2.acts dbgen && e.2.spoils

/-- A link after a flit has arrived, good, or bad the first time or replayed once more (R381, R389). -/
def Link.receive (k : Link) (dbgen : Word) (good : Bool) : Link :=
  let ok := k.delivers dbgen good
  { k with
    inj := k.inj.map fun (e : Nat × Injector) => (e.1, e.2.after dbgen)
    bad := if ok then 0 else k.bad + 1
    good := if ok then k.good + 1 else k.good }

/-- Whether 16 consecutive replays of one flit have failed, after its first bad arrival (R381). -/
def Link.failed (k : Link) : Bool := decide (17 ≤ k.bad)

/-- A peer's quote request that a good flit of a tower link carries joins the MSC's quotes (R385, R386; log 8). -/
def State.peerQuote (s : State) (l n : Nat) : State :=
  match Config.quoteFlit l n with
  | some nonce =>
    if l < 18 then { s with msc := { s.msc with quotes := s.msc.quotes ++ [.peer l (leBytes nonce.toNat 32)] } } else s
  | none => s

/-- LINK_FLIT_RECEIVE (R378, R381): none arrives over a dead link or one not yet trained (R391). -/
def execLinkFlitReceive (link : Nat) (good : Bool) (s : State) : Host.Outcome State Fault Refusal :=
  let k := s.link link
  s.event (decide (link < 27) && !k.dead && !k.failed && decide (6 ≤ s.msc.boot)) fun s =>
    let s1 := s.setLink link (k.receive s.msc.dbgen good)
    if k.delivers s.msc.dbgen good then s1.peerQuote link k.good else s1

/-- The registered groups that a link serves: the manual gives no routing (log 30). -/
def State.groupsServed (s : State) (l : Nat) : List Nat :=
  if l = 26 then []
  else (List.range 65536).filter fun n => Config.linkServes l n &&
    (match s.group (linkIoc l) n with
      | .ok w => bits w 0 1 == 1
      | .error _ => false)

/-- LINK_DEAD (R381): after 16 failed replays of a flit, or 10 µs of silence, which the environment reports. -/
def execLinkDead (link : Nat) (s : State) : Host.Outcome State Fault Refusal :=
  s.event (decide (link < 27) && !(s.link link).dead) fun s =>
    let s1 := (s.setLink link { s.link link with dead := true }).postHost (linkIoc link) ⟨10, 0, 0, 0, link, 0⟩
    (s1.groupsServed link).foldl (fun s n => s.sendAbort n (s.groupStep n)) s1

/-- PTP_MESSAGE (R381): global time follows the grandmaster. -/
def execPtpMessage (ns : Nat) (s : State) : Host.Outcome State Fault Refusal := .next { s with now := ns }

/-! ### The aperture -/

/-- Whether window 2 makes an access of `n` bytes at an offset (R379). -/
def apertureForm (o n : Nat) : Bool :=
  decide (o + n ≤ 2 ^ 36) && [1, 2, 4, 8, 64].contains n && o % n == 0

/-- The flat address at a window-2 offset (R379). -/
def State.apertureAddr (s : State) (o : Nat) : Nat := bits (s.ioc 0).hapb.toNat 36 21 * 2 ^ 36 + o

/-- The pieces of an aperture access; none where it fails (R379). -/
def State.aperture (s : State) (o n : Nat) (write : Bool) : Option (List (Nat × Nat)) :=
  let b := (s.ioc 0).hapb.toNat
  if bits b 16 1 = 0 || bits b 36 21 = 0 then none
  else
    match s.devAccess s.apertureSpace (s.apertureAddr o) n write with
    | .ok ps => some ps
    | .bad _ => none

/-- The record of an aperture fault (R379, R380). -/
def State.apertureFault (s : State) (o : Nat) : State := s.postHost 0 ⟨11, 0, 0, 0, s.apertureAddr o, 0⟩

/-- APERTURE_READ (R379): what the host receives is `apertureValue`. -/
def execApertureRead (o n : Nat) (s : State) : Host.Outcome State Fault Refusal :=
  s.event (apertureForm o n && (s.aperture o n false).isNone) fun s => s.apertureFault o

/-- The bytes that an aperture read returns (R379): zero where it fails. -/
def State.apertureValue (s : State) (o n : Nat) : List Byte :=
  match s.aperture o n false with
  | some ps => s.peekAll ps
  | none => List.replicate n 0

/-- APERTURE_WRITE (R379). -/
def execApertureWrite (o n x : Nat) (s : State) : Host.Outcome State Fault Refusal :=
  s.event (apertureForm o n) fun s =>
    match s.aperture o n true with
    | some ps => s.pokeAll 0 ps (leBytes x n)
    | none => s.apertureFault o

/-! ### Registers with behaviour -/

/-- HIRC_WRITE (R380): the write acknowledges the message. -/
def execHircWrite (ioc : Nat) (x : Word) (s : State) : Host.Outcome State Fault Refusal :=
  s.event (decide (ioc < 2) && !s.msc.frz) fun s => s.setIoc ioc { s.ioc ioc with hirc := x, msg := false }

/-- IDROP_READ (R380); a read while frozen disturbs nothing (R388). -/
def execIdropRead (ioc : Nat) (s : State) : Host.Outcome State Fault Refusal :=
  s.event (decide (ioc < 2) && !s.msc.frz) fun s => s.setIoc ioc { s.ioc ioc with idrop := 0 }

/-- Whether a unit number is that of a CUP or an LP6 controller. -/
def hotUnit (u : Nat) : Bool := decide (u < 12) || (decide (20 ≤ u) && decide (u < 28))

/-- HNDROP_READ (17 R375); a read while frozen disturbs nothing (R388). -/
def execHndropRead (u : Nat) (s : State) : Host.Outcome State Fault Refusal :=
  s.event (hotUnit u && !s.msc.frz) fun s => s.setUnit u { s.unit u with hndrop := 0 }

/-- The nonce that ATNC0 to ATNC3 hold (R386). -/
def Msc.nonce (m : Msc) : List Byte := m.atnc.toList.flatMap fun w => leBytes w.toNat 8

/-- ATCTL_GO (R386): a request joins the quotes, or REJ is set; a write without GO does nothing. -/
def execAtctlGo (x : Word) (s : State) : Host.Outcome State Fault Refusal :=
  s.event (x.getLsbD 0) fun s =>
    let m := s.msc
    if m.atst.getLsbD 0 then { s with msc := { m with atst := m.atst ||| 8 } }
    else { s with msc := { m with
      atst := (m.atst &&& ~~~6#64) ||| 1, quotes := m.quotes ++ [.host m.atbuf.toNat m.nonce] } }

/-- ATST_READ (R386): REJ is cleared; a read while frozen disturbs nothing (R388). -/
def execAtstRead (s : State) : Host.Outcome State Fault Refusal :=
  s.event (!s.msc.frz) fun s => { s with msc := { s.msc with atst := s.msc.atst &&& ~~~8#64 } }

/-- The bits of a flat base with its low `k` bits zero. -/
def baseMask (k : Nat) : Word := BitVec.ofNat 64 (2 ^ 57 - 2 ^ k)

/-- SFTB_WRITE (15 R324): ignored while a pool frame is in use. -/
def execSftbWrite (spc : Nat) (x : Word) (s : State) : Host.Outcome State Fault Refusal :=
  s.event (decide (spc < 32) && (s.spc spc).shadows.isEmpty && !s.msc.frz) fun s =>
    s.setSpc spc { s.spc spc with sftb := x &&& baseMask 6 }

/-! ### Plain register writes -/

/-- LSPSWZi as written: code 7 becomes 0 and bits [4j+3] stay zero (06 R103). -/
def swzWord (x : Word) : Word :=
  BitVec.ofNat 64 (((List.range 16).map fun j => let c := bits x.toNat (4 * j) 3; if c = 7 then 0 else c * 16 ^ j).sum)

/-- BankOf: the LSP bank of the chunk at an offset, under a swizzle-span code (02 R45; 06 R102). -/
def bankOf (a c : Nat) : Nat := if c = 0 then bits a 4 5 else bits a 4 5 ^^^ bits a (c + 8) 5

/-- The offset that names under code `c` the place that `a` names under code `c'`: the same row, the bank of that code. -/
def rebank (a c c' : Nat) : Nat := a - bits a 4 5 * 16 + (bankOf a c' ^^^ if c = 0 then 0 else bits a (c + 8) 5) * 16

/-- A page of an LSP under a new code: its bytes move to no other bank, so an offset reads what lies in the bank that the new
code names; stores on their way keep their banks (06 R103). Keys are offsets under the present code. -/
def State.recode (s : State) (core page c c' : Nat) : State :=
  if c = c' then s
  else
    let base := 4096 * page
    let l := (List.range 4096).map fun i => rebank (base + i) c c'
    let words := ((List.range 512).map fun i => base + 8 * i).filter fun a => s.poisoned (pkLsp core (rebank a c c'))
    let s1 := s.poke (pkLsp core base) (l.map fun a => memGet s.mem (pkLsp core a))
    let inPage (pa : Nat) : Bool := decide (pkLsp core base ≤ pa) && decide (pa < pkLsp core base + 4096)
    let key (pa : Nat) : Nat := if inPage pa then pkLsp core (rebank (pa - pkLsp core 0) c' c) else pa
    let move (e : Entry) : Entry := { e with op := e.op.mapKeys key }
    { s1 with
      poison := words.foldl (fun l a => insertNat (pkLsp core a) l) (s1.poison.filter fun pa => !inPage pa)
      ctxs := s1.ctxs.map fun (e : Nat × Ctx) => (e.1, { e.2 with scb := e.2.scb.map move, flying := e.2.flying.map move }) }

/-- The codes of sixteen pages written: LSPSWZ `i` of a core (06 R103). -/
def State.writeSwz (s : State) (core i : Nat) (w : Word) : State :=
  let old := (s.core core).swz.at 0 i
  let s1 := (List.range 16).foldl (fun s j => s.recode core (16 * i + j) (bits old.toNat (4 * j) 3) (bits w.toNat (4 * j) 3)) s
  s1.setCore core { s1.core core with swz := (s1.core core).swz.set i w }

/-- A half of a ring entry as written: SUBP and SUBC keep their values (11 R236). -/
def ringWritten (old : BitVec 128) (half : Nat) (w : Word) : BitVec 128 :=
  if half = 0 then blend old (BitVec.ofNat 128 (2 ^ 35 - 1)) (w.zeroExtend 128)
  else blend old (BitVec.ofNat 128 (2 ^ 128 - 2 ^ 64)) (w.zeroExtend 128 <<< 64)

/-- A queue-pointer mirror written as its doorbell writes it (14 R290). -/
def State.writeMirror (s : State) (n : Nat) (x : Word) : State :=
  if (s.slot n).st == .free then s.setSlot n { s.slot n with wc := x }
  else (s.setSlot n { s.slot n with wc := x }).afterDoorbell n

/-- The low `n` bits. -/
def low (n : Nat) : Word := BitVec.ofNat 64 (2 ^ n - 1)

/-- A register of a core's control block written (06 R103; 11 R236; 17 R372; 20 R401). -/
def State.writeCore (s : State) (r : RegName) (i : Nat) (w : Word) : State :=
  match r with
  | .lspswz => s.writeSwz (i / 12) (i % 12) (swzWord w)
  | .ringt =>
    let c := s.core (i / 64)
    let n := i / 2 % 32
    s.setCore (i / 64) { c with rings := c.rings.set n (ringWritten (c.rings.at 0 n) (i % 2) w) }
  | .ainj => s.setCore i { s.core i with ainj := w &&& low 22 }
  | .scrbLsp => s.setCore i { s.core i with scrbL := w &&& low 32 }
  | .scrbAcc => s.setCore i { s.core i with scrbA := w &&& low 32 }
  | _ => s

/-- A register of an IOC written (14 R288, R297, R311; 16 R347; 18 R379, R380, R382). -/
def State.writeIoc (s : State) (r : RegName) (i : Nat) (w : Word) : State :=
  let c := s.ioc i
  match r with
  | .qtb => s.setIoc i { c with qtb := w }
  | .qslice => s.setIoc i { c with qslice := w &&& low 32 }
  | .gsper => s.setIoc i { c with gsper := w }
  | .predl => s.setIoc i { c with predl := w &&& low 32 }
  | .svpb => s.setIoc i { c with svpb := w &&& baseMask 21 }
  | .svps => s.setIoc i { c with svps := w &&& low 16 }
  | .hirb => s.setIoc i { c with hirb := w &&& baseMask 12 }
  | .hirs => s.setIoc i { c with hirs := w &&& low 5 }
  | .grtb => s.setIoc i { c with grtb := w &&& baseMask 16 }
  | .hapb => s.setIoc i { c with hapb := w &&& BitVec.ofNat 64 (2 ^ 57 - 2 ^ 36 + (2 ^ 17 - 1)) }
  | .hapr => s.setIoc i { c with hapr := w &&& BitVec.ofNat 64 (2 ^ 42 - 2 ^ 12) }
  | _ => s

/-- A register of a memory unit written (17 R365, R372, R375). -/
def State.writeUnit (s : State) (r : RegName) (u : Nat) (w : Word) : State :=
  let m := s.unit u
  match r with
  | .scrbUnit => s.setUnit u { m with scrb := w &&& low 32 }
  | .hpmcfg => s.setUnit u { m with pmcfg := w &&& low 32 }
  | .hrefcfg => s.setUnit u { m with refcfg := BitVec.ofNat 64 (min 8 (bits w.toNat 0 4)) }
  | .hotcfg => s.setUnit u { m with hotcfg := w &&& low 32 }
  | .hnrb => s.setUnit u { m with hnrb := w &&& baseMask 12 }
  | .hnrs => s.setUnit u { m with hnrs := w &&& low 5 }
  | .hnrc => s.setUnit u { m with hnrc := w }
  | _ => s

/-- A register of the MSC written (15 R334; 18 R386, R387, R421). -/
def Msc.write (m : Msc) (r : RegName) (i : Nat) (w : Word) : Msc :=
  match r with
  | .susth => { m with susth := w &&& low 52 }
  | .sysrt => { m with sysrt := w &&& BitVec.ofNat 64 (2 ^ 42 - 2 ^ 12) }
  | .atnc => { m with atnc := vset m.atnc i w }
  | .atbuf => { m with atbuf := w &&& baseMask 12 }
  | .uvcfg => { m with uvcfg := w &&& 0xFFFF000F#64 }
  | _ => m

/-- The unit kind that holds a register, with how many indexes it has. -/
inductive RegHome where
  /-- A core. -/
  | core (n : Nat)
  /-- An IOC. -/
  | ioc (n : Nat)
  /-- A memory unit. -/
  | unit (ok : Nat → Bool)
  /-- The MSC. -/
  | msc (n : Nat)
  /-- Any other. -/
  | other (n : Nat)

/-- Where a register lives. -/
def regHome : RegName → RegHome
  | .lspswz => .core 6144
  | .ringt => .core 32768
  | .ainj | .scrbLsp | .scrbAcc => .core 512
  | .scrbUnit => .unit fun u => decide (u < 28)
  | .lkcm => .other 32
  | .mxlease => .other 8
  | .susth | .sysrt | .atbuf | .uvcfg => .msc 1
  | .atnc => .msc 4
  | .qtb | .qslice | .gsper | .predl | .svpb | .svps | .hirb | .hirs | .grtb => .ioc 2
  | .hapb | .hapr => .ioc 1
  | .qswc => .other 128
  | .gslt | .gsln => .other 32
  | .hpmcfg | .hotcfg | .hnrb | .hnrs | .hnrc => .unit hotUnit
  | .hrefcfg => .unit fun u => decide (u < 12)
  | .linj => .other 1728

/-- A register of the units left written (13 R270; 14 R290, R311; 18 R389); ARM starts the injector's count. -/
def State.writeOther (s : State) (r : RegName) (i : Nat) (w : Word) : State :=
  match r with
  | .lkcm => let (s1, fs) := s.lkMatrix (i / 4) (i % 4) w; s1.lkEffects fs
  | .mxlease => s.setLkm i { s.lkm i with lease := w &&& low 32 }
  | .qswc => s.writeMirror i w
  -- an entry written anew has not acted yet
  | .gslt => s.setIoc (i / 16) { s.ioc (i / 16) with gslt := vset (s.ioc (i / 16)).gslt (i % 16) w, gacted := (s.ioc (i / 16)).gacted.erase (i % 16) }
  | .gsln => s.setIoc (i / 16) { s.ioc (i / 16) with gsln := vset (s.ioc (i / 16)).gsln (i % 16) (w &&& low 5), gacted := (s.ioc (i / 16)).gacted.erase (i % 16) }
  -- lane `i % 64` of link `i / 64`
  | .linj =>
    let k := s.link (i / 64)
    if i % 64 < lanesOf (i / 64) then s.setLink (i / 64) { k with inj := k.inj.set (i % 64) ⟨w, 0⟩ } else s
  | _ => s

/-- A register of the MSC written; new thresholds are compared with every score, unless the cores' clocks stand still (15 R333; 18
R388). -/
def State.writeMsc (s : State) (r : RegName) (i : Nat) (w : Word) : State :=
  let s1 := { s with msc := (s.msc.write r i w).cool }
  if r = .susth && !s.msc.frz then (List.range 512).foldl State.thresholds s1 else s1

/-- A plain register write: the RW fields are replaced, the others keep (00 R6). -/
def State.writeReg (s : State) (r : RegName) (i : Nat) (w : Word) : State :=
  match regHome r with
  | .msc n => if i < n then s.writeMsc r i w else s
  | .core n => if i < n && !s.msc.frz then s.writeCore r i w else s
  | .ioc n => if i < n && !s.msc.frz then s.writeIoc r i w else s
  | .unit ok => if ok i && !s.msc.frz then s.writeUnit r i w else s
  | .other n => if i < n && !s.msc.frz then s.writeOther r i w else s

/-- REGISTER_WRITE (00 R6; 18 R378). -/
def execRegisterWrite (r : RegName) (i : Nat) (x : Word) (s : State) : Host.Outcome State Fault Refusal :=
  .next (s.writeReg r i x)

/-! ### Register reads -/

/-- A register of a unit that a write takes, as a read returns it: its current value, with reserved bits zero (00 R6). -/
def State.currentReg (s : State) (r : RegName) (i : Nat) : Word :=
  match r with
  | .lspswz => (s.core (i / 12)).swz.at 0 (i % 12)
  | .ringt => ((s.core (i / 64)).rings.at 0 (i / 2 % 32)).extractLsb' (64 * (i % 2)) 64
  | .ainj => (s.core i).ainj
  | .scrbLsp => (s.core i).scrbL
  | .scrbAcc => (s.core i).scrbA
  | .scrbUnit => (s.unit i).scrb
  | .lkcm => vget (s.lkm (i / 4)).cm (i % 4) 0 ||| 0x01010101010101FF -- row 0 and column 0 (13 R270)
  | .mxlease => (s.lkm i).lease
  | .susth => s.msc.susth
  | .qtb => (s.ioc i).qtb
  | .qswc => (s.slot i).wc
  | .qslice => (s.ioc i).qslice
  | .gslt => vget (s.ioc (i / 16)).gslt (i % 16) 0
  | .gsln => vget (s.ioc (i / 16)).gsln (i % 16) 0
  | .gsper => (s.ioc i).gsper
  | .predl => (s.ioc i).predl
  | .svpb => (s.ioc i).svpb
  -- SVPS.USED counts the slots that hold a saved context (16 R347)
  | .svps => (s.ioc i).svps + BitVec.ofNat 64 (2 ^ 16 * ((s.saved.filter fun (e : Nat × Saved) => e.2.ioc == i).length % 2 ^ 16))
  | .hirb => (s.ioc i).hirb
  | .hirs => (s.ioc i).hirs
  | .grtb => (s.ioc i).grtb
  | .hapb => (s.ioc i).hapb
  | .hapr => (s.ioc i).hapr
  | .sysrt => s.msc.sysrt
  | .hpmcfg => (s.unit i).pmcfg
  | .hrefcfg => (s.unit i).refcfg
  | .hotcfg => (s.unit i).hotcfg
  | .hnrb => (s.unit i).hnrb
  | .hnrs => (s.unit i).hnrs
  | .hnrc => (s.unit i).hnrc
  | .atnc => vget s.msc.atnc i 0
  | .atbuf => s.msc.atbuf
  | .uvcfg => s.msc.uvcfg
  | .linj => ((s.link (i / 64)).inj.at ⟨0, 0⟩ (i % 64)).reg

/-- Registers that no plain write changes: those that are read only, and those with a behaviour of their own. -/
inductive RoReg where
  /-- QSRC of a slot (14 R290). -/
  | qsrc
  /-- QSST of a slot. -/
  | qsst
  /-- QSRST, WO. -/
  | qsrst
  /-- LKUSE of a lock manager (13 R270). -/
  | lkuse
  /-- SFUSE of an SPC (15 R324). -/
  | sfuse
  /-- SUSCn of a core (15 R334). -/
  | susc
  /-- SUSSk of an SPC. -/
  | suss
  /-- PRQ of an IOC, WO (16 R347). -/
  | prq
  /-- HPCST0, HPCST1 of a CUP, or LPCST of a controller: unit and register (17 R365). -/
  | pcst
  /-- ELWC of a memory unit (17 R374). -/
  | elwc
  /-- ELWC of a core's LSP. -/
  | elwcLsp
  /-- ELWC of a core's accumulator store. -/
  | elwcAcc
  /-- HNWC of a memory unit (17 R375). -/
  | hnwc
  /-- HIWC of an IOC (18 R380). -/
  | hiwc
  /-- ATCTL, WO (18 R386). -/
  | atctl
  /-- READY of the MSC (18 R391). -/
  | ready
  /-- SFTB of an SPC (15 R324). -/
  | sftb
  /-- HIRC of an IOC (18 R380). -/
  | hirc
  /-- IDROP of an IOC. -/
  | idrop
  /-- HNDROP of a memory unit (17 R375). -/
  | hndrop
  /-- ATST (18 R386). -/
  | atst
  /-- UVST (18 R387). -/
  | uvst
  /-- FRZ (18 R388). -/
  | frz
  /-- DBGEN (18 R389). -/
  | dbgen
  /-- A word of the attestation key's certificate (18 R385). -/
  | cert
  /-- Word `i % 4` of ELOG `i / 4 % 64` of memory unit `i / 256` (17 R374). -/
  | elog
  /-- The same of a core's LSP. -/
  | elogLsp
  /-- The same of a core's accumulator store. -/
  | elogAcc
  /-- The same of an SPC's event ring (15 R335). -/
  | event
  deriving DecidableEq, Repr

/-- The number that QSST.ST has for a state (14 R290). -/
def SlotSt.code : SlotSt → Nat
  | .free => 0
  | .idle => 1
  | .ready => 2
  | .waiting => 3
  | .launching => 4
  | .overrun => 5
  | .faulted => 6

/-- HPCST0 and HPCST1 of a CUP, and LPCST of an LP6 controller (register 0): two bits for each pseudo-channel or rank (17
R365). -/
def MemUnit.pcst (m : MemUnit) (i : Nat) : Word :=
  BitVec.ofNat 64 ((List.range 32).map fun j => m.state (32 * i + j) % 4 * 2 ^ (2 * j)).sum

/-- Entry `j` of a ring of 64 entries of which `n` were ever written, and the newest are kept, oldest first: entry c lies in place
c mod 64 (17 R374). -/
def ringKept (l : List (BitVec 256)) (n j : Nat) : BitVec 256 :=
  let back := (n + 63 - j) % 64
  if back < l.length then l[l.length - 1 - back]?.getD 0 else 0

/-- Word `i % 4` of entry `i / 4 % 64` of such a ring. -/
def keptWord (l : List (BitVec 256)) (n i : Nat) : Word :=
  (ringKept l n (i / 4 % 64)).extractLsb' (64 * (i % 4)) 64

/-- The value of such a register: a WO register reads zero (00 R6). -/
def State.statusReg (s : State) (r : RoReg) (i : Nat) : Word :=
  match r with
  | .qsrc => (s.slot i).rc
  | .qsst => let q := s.slot i; BitVec.ofNat 64 (q.st.code + 2 ^ 8 * (q.code % 16) + 2 ^ 16 * (q.qid % 2 ^ 16))
  | .qsrst => 0
  | .lkuse => BitVec.ofNat 64 (s.lkm i).ents.length
  | .sfuse => BitVec.ofNat 64 (s.spc i).shadows.length
  | .susc => let k := s.core i; BitVec.ofNat 64 (k.score + 2 ^ 32 * k.fen.toNat + 2 ^ 33 * k.ret.toNat)
  | .suss => BitVec.ofNat 64 (s.spcScore i % 2 ^ 36 + 2 ^ 36 * s.spcRetired i + 2 ^ 41 * (s.spc i).ret.toNat)
  | .prq => 0
  | .pcst => (s.unit (i / 2)).pcst (i % 2)
  | .elwc => (s.unit i).elwc
  | .elwcLsp => (s.core i).elwcL
  | .elwcAcc => (s.core i).elwcA
  | .hnwc => (s.unit i).hnwc
  | .hiwc => (s.ioc i).hiwc
  | .atctl => 0
  | .ready => s.msc.ready
  | .sftb => (s.spc i).sftb
  | .hirc => (s.ioc i).hirc
  | .idrop => (s.ioc i).idrop
  | .hndrop => (s.unit i).hndrop
  | .atst => s.msc.atst
  | .uvst => s.msc.uvst
  | .frz => if s.msc.frz then 1 else 0
  | .dbgen => s.msc.dbgen
  | .cert => Config.certWord i
  | .elog => let m := s.unit (i / 256); keptWord m.elog m.elwc.toNat i
  | .elogLsp => let k := s.core (i / 256); keptWord k.elogL k.elwcL.toNat i
  | .elogAcc => let k := s.core (i / 256); keptWord k.elogA k.elwcA.toNat i
  | .event => let p := s.spc (i / 256); keptWord p.events p.evWc i

/-- What a read of a register that a write takes returns through window 1 or the debug port: zero until bring-up is complete (18
R391), and after it the current value, a frozen package included (00 R6; 18 R378, R388). -/
def State.readReg (s : State) (r : RegName) (i : Nat) : Word :=
  if s.msc.ready.getLsbD 0 then s.currentReg r i else 0

/-- What a read of any other register returns: READY answers before bring-up is complete too (18 R391). -/
def State.readStatus (s : State) (r : RoReg) (i : Nat) : Word :=
  if r = .ready || s.msc.ready.getLsbD 0 then s.statusReg r i else 0

/-! ### FREEZE, reset and the retirement record -/

/-- Every pseudo-channel or rank of a unit in forced self-refresh. -/
def MemUnit.force (m : MemUnit) (u : Nat) : MemUnit :=
  { m with ps := (List.range (unitSize u)).map fun j => (j, 3), exits := [], blocked := [], alerts := [], refr := [], debt := [] }

/-- The CUPs and the LP6 controllers. -/
def hotUnits : List Nat := List.range 12 ++ (List.range 8).map (20 + ·)

/-- FREEZE: self-refresh is forced and every clock but the MSC's stops (R388). -/
def State.freeze (s : State) : State :=
  let s1 := hotUnits.foldl (fun (s : State) u => s.setUnit u ((s.unit u).force u)) s
  { s1 with msc := { s1.msc with frz := true } }

/-- FREEZE_PIN (R388): held low for 100 ns or longer. -/
def execFreezePin (ns : Nat) (s : State) : Host.Outcome State Fault Refusal :=
  s.event (decide (100 ≤ ns) && !s.msc.frz) State.freeze

/-- FRZ_WRITE (R388). -/
def execFrzWrite (x : Word) (s : State) : Host.Outcome State Fault Refusal :=
  s.event (x.getLsbD 0 && !s.msc.frz) State.freeze

/-- The package after a module reset with a retirement record: retired blocks are held in reset (R391). -/
def State.resetWith (cores spcs : List Nat) : State :=
  { State.reset with
    cores := cores.map fun k => (k, { Core.reset with ret := true })
    spcs := spcs.map fun k => (k, { Spc.reset with ret := true })
    msc := { Msc.reset with recCores := cores, recSpcs := spcs } }

/-- What the environment and the choices of the model hold goes on through a reset. -/
def State.keepModel (s r : State) : State := { r with inbox := s.inbox, ticks := s.ticks, now := s.now }

/-- MODULE_RESET (R390, R391): the record's clears take effect, and bring-up begins. -/
def execModuleReset (s : State) : Host.Outcome State Fault Refusal :=
  let m := s.msc
  let r := State.resetWith (m.recCores.filter fun n => !m.clears.contains (false, n))
    (m.recSpcs.filter fun n => !m.clears.contains (true, n))
  .next (s.keepModel { r with msc := { r.msc with boot := 0, ready := 0 } })

/-- Whether the next step of bring-up finishes: the second and the fifth start measured components, and one that fails its signature
check is not started (R384, R391). -/
def Msc.stepEnds (m : Msc) : Bool :=
  match m.boot with
  | 1 => Config.signed 0
  | 4 => Config.signed 1 && Config.signed 2
  | n => decide (n < 7)

/-- A step of bring-up finishes; the seventh sets READY (R391). -/
def Msc.bringUp (m : Msc) : Msc :=
  if m.stepEnds then { m with boot := m.boot + 1, ready := if m.boot = 6 then 1 else m.ready } else m

/-- RETIREMENT_CLEAR (R390): while no kernel is placed, a saved one not being so (14 R312); takes effect at the next module reset. -/
def execRetirementClear (spc : Bool) (n : Nat) (s : State) : Host.Outcome State Fault Refusal :=
  s.event (s.kernels.all fun (k : Nat × Kernel) => k.2.saved || k.2.clus.isEmpty) fun s =>
    { s with msc := { s.msc with clears := s.msc.clears ++ [(spc, n)] } }

end Sys2Proof.Machine
end

