-- ==== Sys2Proof/Machine/MemUnitEvents.lean ====
section
/-! DEFINITION. What the memory controllers do of their own: power states, refresh and alerts, thermal holds, scrubbing
and hotness decay (17 R364 to R377; log 31). -/

namespace Sys2Proof.Machine

/-! ### Power states -/

/-- PDT of a unit's register (17 R365). -/
def MemUnit.pdt (m : MemUnit) : Nat := bits m.pmcfg.toNat 0 16

/-- SRT of a unit's register (17 R365). -/
def MemUnit.srt (m : MemUnit) : Nat := bits m.pmcfg.toNat 16 16

/-- POWER_DOWN_ENTRY (R364): a DSC bank always; else unless PDT is 0. -/
def execPowerDownEntry (u j : Nat) (s : State) : Host.Outcome State Fault Refusal :=
  let m := s.unit u
  let dsc := !hotUnit u
  s.event (decide (u < 28) && decide (j < unitSize u) && m.state j == 0 && (dsc || m.pdt != 0)) fun s =>
    s.setUnit u { m with ps := m.ps.set j 1 }

/-- SELF_REFRESH_ENTRY (R364): unless SRT is 0; a DSC has none. -/
def execSelfRefreshEntry (u j : Nat) (s : State) : Host.Outcome State Fault Refusal :=
  let m := s.unit u
  s.event (hotUnit u && decide (j < unitSize u) && decide (m.state j < 2) && m.srt != 0) fun s =>
    s.setUnit u { m with ps := m.ps.set j 2 }

/-- POWER_STATE_EXIT (R364, R368): an exit that a request, a prefetch or the end of a hold has begun. -/
def execPowerStateExit (u j : Nat) (s : State) : Host.Outcome State Fault Refusal :=
  let m := s.unit u
  s.event (m.exits.contains j) fun s =>
    s.setUnit u { m with ps := m.ps.erase j, exits := m.exits.filter (· != j) }

/-! ### Refresh and alerts -/

/-- PMAX of a unit: an LP6 controller has no HREFCFG and the field's greatest value (R365, log 31). -/
def MemUnit.pmax (m : MemUnit) : Nat := bits m.refcfg.toNat 0 4

/-- REFRESH_DUE (R366): postponed while the bank is busy and owes fewer than PMAX; else issued. -/
def execRefreshDue (u bank : Nat) (busy : Bool) (s : State) : Host.Outcome State Fault Refusal :=
  let m := s.unit u
  let d := m.debt.at 0 bank
  s.event (hotUnit u && m.hold.isNone && !m.refr.contains bank) fun s =>
    if busy && decide (d < m.pmax) then s.setUnit u { m with debt := m.debt.set bank (d + 1) }
    else s.setUnit u { m with refr := insertNat bank m.refr }

/-- REFRESH_COMPLETE (R366): the refresh that fell due is done; else one that was owed, in an idle gap. -/
def execRefreshComplete (u bank : Nat) (s : State) : Host.Outcome State Fault Refusal :=
  let m := s.unit u
  let d := m.debt.at 0 bank
  s.event (hotUnit u) fun s =>
    if m.refr.contains bank then s.setUnit u { m with refr := m.refr.filter (· != bank) }
    else if d ≤ 1 then s.setUnit u { m with debt := m.debt.erase bank }
    else s.setUnit u { m with debt := m.debt.set bank (d - 1) }

/-- ACTIVATION_ALERT (R367, R377): the bank is blocked, a refresh in progress completing first. -/
def execActivationAlert (u bank : Nat) (s : State) : Host.Outcome State Fault Refusal :=
  let m := s.unit u
  -- no activation is issued in forced self-refresh, of which a hold's exits are the end
  let part := Config.partOf u (Config.bankAddr u bank % 2 ^ 48) % unitSize u
  s.event (hotUnit u && m.hold.isNone && m.state part != 3) fun s =>
    -- a debt of PMAX is paid before the mitigation (R367 step 2)
    let full := m.debt.at 0 bank = m.pmax
    s.setUnit u { m with
      blocked := insertNat bank m.blocked, refr := m.refr.filter (· != bank)
      debt := if full then m.debt.erase bank else m.debt
      alerts := if full then insertNat bank m.alerts else m.alerts.filter (· != bank) }

/-- SRC and GCID of an entry of the error log whose requester the model does not follow: SRC 2 has no context (R374; log 31). -/
def logOrigin (n : Nat) : Nat × Nat :=
  let o := (Config.eventOrigin n).toNat
  (o % 4, if o % 4 = 2 then 0 else o / 4)

/-- An event of kind 5 or 6 logged by a unit (R374): the syndrome is 0; origin and address are not given (log 31). -/
def State.logUnit (s : State) (u kind bank : Nat) : State :=
  let m := s.unit u
  let o := logOrigin m.elwc.toNat
  s.setUnit u { m with
    elog := ringPush m.elog (elogEntry kind o.1 0 (Config.bankAddr u bank) s.now o.2), elwc := m.elwc + 1 }

/-- A back-off ended: the bank is unblocked, and the event logged when the owed refreshes were issued first (R367). -/
def State.endBackoff (s : State) (u bank : Nat) : State :=
  let m := s.unit u
  let s1 := s.setUnit u { m with blocked := m.blocked.filter (· != bank), alerts := m.alerts.filter (· != bank) }
  if m.alerts.contains bank then s1.logUnit u 6 bank else s1

/-- ALERT_BACKOFF_COMPLETE (R367). -/
def execAlertBackoffComplete (u bank : Nat) (s : State) : Host.Outcome State Fault Refusal :=
  s.event (hotUnit u && (s.unit u).blocked.contains bank) fun s => s.endBackoff u bank

/-! ### Thermal holds -/

/-- CRITICAL_TEMP_ASSERT (R368, R377): back-offs and refreshes in progress complete, then self-refresh is forced. -/
def execCriticalTempAssert (u : Nat) (s : State) : Host.Outcome State Fault Refusal :=
  s.event (hotUnit u && (s.unit u).hold.isNone) fun s =>
    let s1 := (s.unit u).blocked.foldl (fun (s : State) b => s.endBackoff u b) s
    let m := (s1.unit u).force u
    s1.setUnit u { m with hold := some s.now, held2 := false }

/-- CRITICAL_TEMP_CLEAR (R368): the exits begin; every debt is 0. -/
def execCriticalTempClear (u : Nat) (s : State) : Host.Outcome State Fault Refusal :=
  let m := s.unit u
  s.event (m.hold.isSome) fun s =>
    s.setUnit u { m with hold := none, held2 := false, exits := List.range (unitSize u), debt := [] }

/-- THERMAL_HOLD_TIMEOUT (R368): at 2 ms, once a hold. -/
def execThermalHoldTimeout (u : Nat) (s : State) : Host.Outcome State Fault Refusal :=
  let m := s.unit u
  match m.hold with
  | none => .next s
  | some t => s.event (!m.held2 && decide (t + 2000000 ≤ s.now)) fun s =>
      (s.setUnit u { m with held2 := true }).logUnit u 5 0

/-! ### Scrubbing -/

/-- The voltage domain of an array: the LSP of core n is array n, its accumulator store 512 + n, its other arrays
2048 + 512·j + n, and DSC d is array 1536 + d (01 R10). -/
def arrayDomain (a : Nat) : Nat := if a < 1536 || 2048 ≤ a then a % 512 / 128 else (a - 1536) / 2

/-- A corrected error of an array counted for predictive failure (18 R387). -/
def State.countCorrected (s : State) (a : Nat) : State :=
  let v := vget s.msc.volts (arrayDomain a) Volt.reset
  let v1 := { v with errs := (v.errs.filter fun e => decide (s.msc.up < e.1 + 600000000000)) ++ [(s.msc.up, a)] }
  { s with msc := { s.msc with volts := vset s.msc.volts (arrayDomain a) v1 } }

/-- What the scrubber does with the word at a key (R371, R373): an error corrected and logged; a word poisoned and
logged; one already poisoned left as it is. -/
def State.scrubWord (s : State) (pa : Nat) (err : EccErr) : State :=
  if s.poisoned pa then s
  else
    match err with
    | .clean => s
    | .corrected => s.logError pa 1 2 0
    | .uncorrectable => (s.poisonRange pa 8).logError pa 2 2 0

/-- Bytes that a memory unit holds (01 R16). -/
def unitBytes (u : Nat) : Nat := if u < 12 then 2 ^ 36 else if u < 20 then 2 ^ 26 else 2 ^ 37

/-- The key of a unit's first byte. -/
def unitBase (u : Nat) : Nat :=
  if u < 12 then pkNode 1 (u * 2 ^ 36) else if u < 20 then pkNode 0 ((u - 12) * 2 ^ 26) else pkNode 2 ((u - 20) * 2 ^ 37)

/-- A step of the scrubber of a DSC, CUP or LP6 controller; it pauses in forced self-refresh (R373). -/
def State.scrubUnit (s : State) (u : Nat) (err : EccErr) : State :=
  let m := s.unit u
  if bits m.scrb.toNat 0 32 = 0 || m.hold.isSome then s
  else
    let pa := unitBase u + 8 * m.scrubAt
    let s1 := (s.setUnit u { m with scrubAt := (m.scrubAt + 1) % (unitBytes u / 8) }).scrubWord pa err
    if err = .corrected && decide (12 ≤ u) && decide (u < 20) then s1.countCorrected (1536 + (u - 12)) else s1

/-- A step of the scrubber of a core's LSP (R371, R373). -/
def State.scrubLsp (s : State) (core : Nat) (err : EccErr) : State :=
  let k := s.core core
  if bits k.scrbL.toNat 0 32 = 0 then s
  else
    let pa := pkLsp core (8 * k.scrubLAt)
    let s1 := (s.setCore core { k with scrubLAt := (k.scrubLAt + 1) % 98304 }).scrubWord pa err
    if err = .corrected then (s1.countCorrected core).addScore core 1 else s1

/-- An entry of an accumulator store's error log (R374). -/
def Core.logAcc (k : Core) (kind row now : Nat) : Core :=
  let synd := (Config.syndrome k.elwcA.toNat).toNat
  { k with elogA := ringPush k.elogA (elogEntry kind 2 synd row now 0), elwcA := k.elwcA + 1 }

/-- A step of the scrubber of a core's accumulator store: an entry that cannot be corrected is marked, and one already marked
is left as it is (R371, R373). -/
def State.scrubAcc (s : State) (core : Nat) (err : EccErr) : State :=
  let k := s.core core
  if bits k.scrbA.toNat 0 32 = 0 then s
  else
    let row := k.scrubAAt / 128
    let k1 := { k with scrubAAt := (k.scrubAAt + 1) % 65536 }
    if k.acc.bad.contains k.scrubAAt then s.setCore core k1
    else
      match err with
      | .clean => s.setCore core k1
      | .corrected => ((s.setCore core (k1.logAcc 1 row s.now)).countCorrected (512 + core)).addScore core 1
      | .uncorrectable => s.setCore core { k1.logAcc 2 row s.now with acc := { k.acc with bad := insertNat k.scrubAAt k.acc.bad } }

/-- SCRUB_STEP (R373): units 0 to 27 are the memory units, 28 + n the LSP of core n, 540 + n its accumulator store. -/
def execScrubStep (u : Nat) (err : EccErr) (s : State) : Host.Outcome State Fault Refusal :=
  .next (if u < 28 then s.scrubUnit u err
    else if u < 540 then s.scrubLsp (u - 28) err
    else if u < 1052 then s.scrubAcc (u - 540) err
    else s)

/-! ### Hotness -/

/-- HOTNESS_DECAY (R375): every DECAY µs all counts halve. -/
def execHotnessDecay (u : Nat) (s : State) : Host.Outcome State Fault Refusal :=
  let m := s.unit u
  let d := bits m.hotcfg.toNat 16 16 * 1000
  s.event (hotUnit u && d != 0 && decide (m.decayAt + d ≤ s.now)) fun s =>
    s.setUnit u { m with decayAt := m.decayAt + d, hot := m.hot.map fun e => (e.1, e.2.1, e.2.2 / 2) }

end Sys2Proof.Machine
end

