-- ==== Sys2Proof/Machine/MscEvents.lean ====
section
/-! DEFINITION. The MSC's own steps: undervolting and the power ceiling; and the trap of a bundle that decodes to no
instruction (01 R18; 02 R44; 18 R387). -/

namespace Sys2Proof.Machine

/-- EN of UVCFG. -/
def Msc.uvEn (m : Msc) : Bool := m.uvcfg.getLsbD 0

/-- UVFLOOR. -/
def Msc.uvFloor (m : Msc) : Nat := bits m.uvcfg.toNat 1 3

/-- A domain replaced. -/
def Msc.setVolt (m : Msc) (d : Nat) (v : Volt) : Msc := { m with volts := vset m.volts d v }

/-- Whether every array is under PFTH; one without errors is, unless PFTH is 0. -/
def Volt.calm (v : Volt) (up th : Nat) : Bool := th != 0 && v.arrays.all fun a => decide (v.count up a < th)

/-- A domain one step nearer to nominal; a 600-s window opens when it stands at nominal with none open. -/
def Volt.raise (v : Volt) (up : Nat) : Volt :=
  let st := v.step - 1
  { v with step := st, win := if st = 0 && v.win.isNone then some up else v.win }

/-- An evaluation of one domain (R387). -/
def Volt.evaluate (v : Volt) (m : Msc) : Volt :=
  let up := m.up
  let hot := v.above up m.pfth
  if v.crossed.any hot.contains then (if v.step = 0 then v else v.raise up)
  else if m.uvEn && v.hold.isNone && v.calm up m.pfth && decide (v.step < m.uvFloor) then { v with step := v.step + 1 }
  else v

/-- UV_EVALUATE (R387): every 60 s. -/
def execUvEvaluate (s : State) : Host.Outcome State Fault Refusal :=
  let m := s.msc
  s.event (decide (m.uvAt + 60 * second ≤ m.up)) fun s =>
    { s with msc := { m with uvAt := m.uvAt + 60 * second, volts := m.volts.map fun v => v.evaluate m } }

/-- UV_CROSSING_RAISE (R387, R392): one step up however many arrays cross at once, and HOLD; at nominal the window. -/
def execUvCrossingRaise (dom arr : Nat) (s : State) : Host.Outcome State Fault Refusal :=
  let m := s.msc
  let v := m.volt dom
  let hot := v.above m.up m.pfth
  s.event (decide (dom < 4) && hot.contains arr && !v.crossed.contains arr) fun s =>
    let v1 := { v with crossed := hot }
    let v2 := if v.step = 0 then { v1 with win := some (v.win.getD m.up) }
      else let v3 := v1.raise m.up; { v3 with hold := some (m.up + 86400 * second) }
    { s with msc := m.setVolt dom v2 }

/-- What the MSC does with an array that still fails at the end of its window: a spare row where the array has them (an LSP, an
accumulator store, a DSC), else its core retired; then the record of cause 9 (R387, R380). -/
def State.failing (s : State) (a : Nat) : State :=
  let s1 := if 2048 ≤ a then (s.retireCore (a % 512)).thresholds (a % 512) else s
  s1.postHost 0 ⟨9, 0, 0, 0, (Config.arrayAddr a).toNat, 0⟩

/-- UV_WINDOW_EXPIRY (R387). -/
def execUvWindowExpiry (dom : Nat) (s : State) : Host.Outcome State Fault Refusal :=
  let m := s.msc
  let v := m.volt dom
  match v.win with
  | none => .next s
  | some t =>
    s.event (decide (dom < 4) && decide (t + 600 * second ≤ m.up)) fun s =>
      (v.above m.up m.pfth).foldl State.failing { s with msc := m.setVolt dom { v with win := none } }

/-- UV_HOLD_EXPIRY (R387): after 24 h. -/
def execUvHoldExpiry (dom : Nat) (s : State) : Host.Outcome State Fault Refusal :=
  let m := s.msc
  let v := m.volt dom
  match v.hold with
  | none => .next s
  | some t => s.event (decide (dom < 4) && decide (t ≤ m.up)) fun s => { s with msc := m.setVolt dom { v with hold := none } }

/-- POWER_CEILING_THROTTLE (01 R18): the MSC starts or stops gating X- and V-class issue. -/
def execPowerCeilingThrottle (on : Bool) (s : State) : Host.Outcome State Fault Refusal :=
  .next { s with msc := { s.msc with throttle := on } }

/-- ILLEGAL_BUNDLE (02 R34, R40, R44): the bundle of the acting context traps ILLEGAL at a slot. -/
def execIllegalBundle (sl : Nat) (s : State) : Host.Outcome State Fault Refusal :=
  .next (s.trapped ⟨0x01, 0, (s.ctx s.cur).r.pc, sl, 0, 0, 0, 0, .handler⟩)

end Sys2Proof.Machine
end

