-- ==== Sys2Proof/Machine/Strikes.lean ====
section
/-! DEFINITION. Faults that strike an array of the package: errors corrected or not, and parity (15 R329, R332; 17 R371; log 5).
When and where they strike the manual does not say. -/

namespace Sys2Proof.Machine

/-- The member of a list that a number names. -/
def pickOf {α : Type} (l : List α) (n : Nat) : Option α := l[n % max 1 l.length]?

/-- An event of a core's arrays logged with those of its LSP, at its start (17 R374; log 31). -/
def State.logCore (s : State) (core kind : Nat) : State :=
  let o := logOrigin s.ticks
  s.logError (pkLsp core 0) kind o.1 o.2

/-- An error corrected in array `j` of a core: a register file, a predicate copy, the SCB, a cache (15 R332; 17 R371; 18 R387). -/
def State.coreCorrected (s : State) (core j : Nat) : State :=
  ((s.logCore core 1).countCorrected (2048 + 512 * j + core)).addScore core 1

/-- The parity of an instruction-cache line fails: it is dropped (17 R371). -/
def State.lineParity (s : State) (core n : Nat) : State :=
  let k := s.core core
  match pickOf k.icache n with
  | some l => (s.setCore core { k with icache := k.icache.erase l }).logCore core 7
  | none => s

/-- The parity of a tile-cache entry of a core, or of its SPC, fails: it is dropped (17 R371). -/
def State.tileParity (s : State) (core n : Nat) : State :=
  let k := s.core core
  let p := s.spc (core / 16)
  match pickOf k.tlb n, pickOf p.tlb n with
  | some e, none => (s.setCore core { k with tlb := k.tlb.erase e }).logCore core 7
  | none, some e => (s.setSpc (core / 16) { p with tlb := p.tlb.erase e }).logCore core 7
  | some e, some e2 =>
    (if n % 2 = 0 then s.setCore core { k with tlb := k.tlb.erase e } else s.setSpc (core / 16) { p with tlb := p.tlb.erase e2 }).logCore core 7
  | none, none => s

/-- An entry of an interval that has not agreed, or of one that has, fails uncorrectably: the context rolls back and replays;
or the entry is written poisoned at its home, with ERRF and a record of kind 3 (17 R371). The record's OP is the model's choice
(log 60). -/
def State.entryFails (s : State) (g n : Nat) : State :=
  let c := s.ctx g
  match pickOf c.scb n with
  | none => s
  | some e =>
    if c.ivs.any fun i => i.id == e.iv && !i.agreed then s.takeTrap g ⟨0x10, 0, e.pc, e.slot, 0, 0, 0, 0, .replay⟩
    else
      let k := s.core (coreOf g)
      -- a payload of the matrix engine leaves the output stage with its entry
      let s0 := match e.op with
        | .cmd m => if m.xcl then s.setCore (coreOf g) { k with outst := k.outst - 1 } else s
        | _ => s
      let s1 := s0.setCtx g { c with scb := c.scb.eraseIdx (n % max 1 c.scb.length) }
      (e.op.ranges.foldl (fun s r => s.poisonRange r.1 r.2) s1).postFault [g] 0 false false 0 (EngFault.at' 3 e.va.toNat)

/-- The key of a word of a memory unit below 28, or of the LSP of core `u - 28`. -/
def wordKey (u n : Nat) : Nat :=
  if u < 28 then unitBase u + 8 * (n % (unitBytes u / 8)) else pkLsp (u - 28) (8 * (n % 98304))

/-- A word of memory fails, found by a read (17 R371): corrected, or poisoned. -/
def State.wordFails (s : State) (u n : Nat) (kind : Nat) : State :=
  let pa := wordKey u n
  if s.poisoned pa then s
  else
  let o := logOrigin s.ticks
  if kind = 2 then (s.poisonRange pa 8).logError pa 2 o.1 o.2
  else
    let s1 := s.logError pa 1 o.1 o.2
    if 28 ≤ u then (s1.countCorrected (u - 28)).addScore (u - 28) 1
    else if 12 ≤ u && u < 20 then s1.countCorrected (1536 + (u - 12))
    else s1

/-- What a fault of codes 6 to 13 does at once: 6 an error corrected in a core's arrays, 7 the parity of an instruction-cache line,
8 that of a tile-cache entry, 9 an SCB entry that fails, 10 the parity of a weight row that reads well again, 11 an error corrected
in an accumulator entry, 12 one in a memory word, 13 a memory word that cannot be corrected (17 R371). -/
def State.strike (s : State) (code : Nat) (a : Nat × Nat) : State :=
  let core := a.1 % 512
  match code with
  | 6 => s.coreCorrected core a.2
  | 7 => s.lineParity core a.2
  | 8 => s.tileParity core a.2
  | 9 => s.entryFails (a.1 % 4096) a.2
  | 10 => s.logCore core 7
  | 11 => ((s.setCore core ((s.core core).logAcc 1 (a.2 % 512) s.now)).countCorrected (512 + core)).addScore core 1
  | 12 => s.wordFails (a.1 % 540) a.2 1
  | 13 => s.wordFails (a.1 % 540) a.2 2
  | _ => s

end Sys2Proof.Machine
end

