-- ==== Sys2Proof/Machine/Held.lean ====
section
/-! DEFINITION. The device accesses that wait at a memory unit: an event that would read or write a key held there begins the exit
from a power state and happens later (17 R364, R366 to R369; log 68). -/

namespace Sys2Proof.Machine

/-- The keys of pieces, one for each 64 bytes that they touch. -/
def lineKeys (ps : List (Nat × Nat)) : List Nat :=
  ps.flatMap fun p => (List.range ((p.1 % 64 + p.2 + 63) / 64)).map fun i => max p.1 (p.1 / 64 * 64 + 64 * i)

/-- The keys of a device access at which it waits. -/
def State.devHeld (s : State) (sp : Space) (write : Bool) (va n : Nat) : List Nat :=
  match s.devSpan sp write (n / 2 ^ 16 + 2) va n with
  | .ok ps => (lineKeys ps).filter fun pa => (s.waitsAt pa).isSome
  | .error _ => []

/-- Those of a save slot, written or read. -/
def State.slotHeld (s : State) (write : Bool) (g : Nat) (v : Saved) : List Nat :=
  let base := (s.ioc v.ioc).svpb.toNat % 2 ^ 57 + 2 ^ 21 * v.slot
  (s.slotPieces g v).flatMap fun p => s.devHeld s.sysSpace write (base + p.1) p.2.length

/-- Those of the service of a slot's next packet: its words, where it lies in the ring; its signal; and the write-back of RC (14 R290,
R292, R295). -/
def State.packetHeld (s : State) (n : Nat) : List Nat :=
  let q := s.slot n
  let signal (p : Packet) : List Nat := if p.fld 10 = 0 then [] else s.devHeld (q.origin p).space true (p.fld 10) 8
  match q.pkt, q.ins with
  | some p, _ => signal p
  | none, p :: _ => signal p
  | none, [] =>
    (List.range (min 17 (q.wc - q.rc).toNat)).flatMap (fun i =>
      s.devHeld (dSpace q.desc) false (dRbase q.desc + 8 * ((q.rc.toNat + i) % 2 ^ dRlog q.desc)) 8) ++
      (if dRcwb q.desc = 0 then [] else s.devHeld (dSpace q.desc) true (dRcwb q.desc) 8) ++
      match s.nextFields n with
      | some f => signal ⟨f, none, false⟩
      | none => []

/-- The keys at which the device accesses of an event wait. -/
def State.heldBy (s : State) (e : Event) : List Nat :=
  match e with
  | .apertureRead o n => if (s.aperture o n false).isSome then s.devHeld s.apertureSpace false (s.apertureAddr o) n else []
  | .apertureWrite o n _ => if (s.aperture o n true).isSome then s.devHeld s.apertureSpace true (s.apertureAddr o) n else []
  | .quoteComplete =>
    match s.msc.quotes with
    | .host buf _ :: _ => s.devHeld s.apertureSpace true buf 4096
    | _ => []
  | .saveComplete g =>
    match (s.ctx g).saving with
    | some h => if s.saveReady g then s.slotHeld true g (s.savedOf g (4096 + s.nextId) (s.iocOf g) (s.slotTaken g) h) else []
    | none => []
  | .restore k => ((s.restorable k).getD []).flatMap fun x => s.slotHeld false x.2.1.gcid x.2.1
  | .packetLaunch n | .packetWait n | .packetSignal n | .packetMarker n =>
    if s.served (slotIoc n) == some n then s.packetHeld n else []
  | .qschWaitSatisfied n =>
    match (s.slot n).pkt with
    | some p => s.devHeld ((s.slot n).origin p).space false (p.fld 8) 8
    | none => []
  | .markerEffect n =>
    match s.markDue n with
    | some (p, _) => if p.fld 10 = 0 then [] else s.devHeld ((s.slot n).origin p).space true (p.fld 10) 8
    | none => []
  | .slotIdleTimeout n => if s.idleOver n then s.devHeld (dSpace (s.slot n).desc) true (dRcwb (s.slot n).desc) 144 else []
  | .klaunchPacketRead c =>
    match s.cmds.find? c with
    | some x => if x.c.op == .klaunch then s.devHeld x.c.space false (x.c.w 0) 8 else []
    | none => []
  | .dependenceRelease cl k =>
    match (s.cluster cl).pool[k]? with
    | some r =>
      match s.kernels.find? r.kernel with
      | some x => s.devHeld x.space false (x.depAddr r.dep) 8
      | none => []
    | none => []
  | .kernelComplete id =>
    match s.kernels.find? id with
    | some k => if s.kernelOver id && k.pkt.fld 7 != 0 then s.devHeld k.space true (k.pkt.fld 7) k.excRecord.length else []
    | none => []
  | _ => []

end Sys2Proof.Machine
end

