-- ==== Sys2Proof/Machine/Dispatch.lean ====
section
/-! DEFINITION. The meaning of each instruction: one arm per constructor. -/

namespace Sys2Proof.Machine

/-- What an instruction or event does. -/
def exec (i : Instr) (s : State) : Host.Outcome State Fault Refusal :=
  match i with
  | .nopC => Sys2Proof.Machine.execNopC s
  | .nopS => Sys2Proof.Machine.execNopS s
  | .nopM => Sys2Proof.Machine.execNopM s
  | .nopV => Sys2Proof.Machine.execNopV s
  | .nopX => Sys2Proof.Machine.execNopX s
  | .nopQ => Sys2Proof.Machine.execNopQ s
  | .nopG => Sys2Proof.Machine.execNopG s
  | .br h j ks => Sys2Proof.Machine.execBr h j ks s
  | .bri h a j => Sys2Proof.Machine.execBri h a j s
  | .call h j ks => Sys2Proof.Machine.execCall h j ks s
  | .calli h a j => Sys2Proof.Machine.execCalli h a j s
  | .ret h => Sys2Proof.Machine.execRet h s
  | .loopi h d a j => Sys2Proof.Machine.execLoopi h d a j s
  | .loopb h d j ks => Sys2Proof.Machine.execLoopb h d j ks s
  | .yield h => Sys2Proof.Machine.execYield h s
  | .waitf h l k => Sys2Proof.Machine.execWaitf h l k s
  | .tend h => Sys2Proof.Machine.execTend h s
  | .trap h j => Sys2Proof.Machine.execTrap h j s
  | .add h d a b => Sys2Proof.Machine.execAdd h d a b s
  | .sub h d a b => Sys2Proof.Machine.execSub h d a b s
  | .addi h d a j ks => Sys2Proof.Machine.execAddi h d a j ks s
  | .mul h d a b => Sys2Proof.Machine.execMul h d a b s
  | .mulh h d a b => Sys2Proof.Machine.execMulh h d a b s
  | .mulhn h d a b => Sys2Proof.Machine.execMulhn h d a b s
  | .div h d a b => Sys2Proof.Machine.execDiv h d a b s
  | .divn h d a b => Sys2Proof.Machine.execDivn h d a b s
  | .rem h d a b => Sys2Proof.Machine.execRem h d a b s
  | .remn h d a b => Sys2Proof.Machine.execRemn h d a b s
  | .and h d a b => Sys2Proof.Machine.execAnd h d a b s
  | .or h d a b => Sys2Proof.Machine.execOr h d a b s
  | .xor h d a b => Sys2Proof.Machine.execXor h d a b s
  | .andn h d a b => Sys2Proof.Machine.execAndn h d a b s
  | .andi h d a j ks => Sys2Proof.Machine.execAndi h d a j ks s
  | .ori h d a j ks => Sys2Proof.Machine.execOri h d a j ks s
  | .xori h d a j ks => Sys2Proof.Machine.execXori h d a j ks s
  | .shl h d a b => Sys2Proof.Machine.execShl h d a b s
  | .shr h d a b => Sys2Proof.Machine.execShr h d a b s
  | .sra h d a b => Sys2Proof.Machine.execSra h d a b s
  | .shli h d a j => Sys2Proof.Machine.execShli h d a j s
  | .shri h d a j => Sys2Proof.Machine.execShri h d a j s
  | .srai h d a j => Sys2Proof.Machine.execSrai h d a j s
  | .rotl h d a b => Sys2Proof.Machine.execRotl h d a b s
  | .clz h d a => Sys2Proof.Machine.execClz h d a s
  | .ctz h d a => Sys2Proof.Machine.execCtz h d a s
  | .popc h d a => Sys2Proof.Machine.execPopc h d a s
  | .min h d a b => Sys2Proof.Machine.execMin h d a b s
  | .max h d a b => Sys2Proof.Machine.execMax h d a b s
  | .minn h d a b => Sys2Proof.Machine.execMinn h d a b s
  | .maxn h d a b => Sys2Proof.Machine.execMaxn h d a b s
  | .sel h d a b m => Sys2Proof.Machine.execSel h d a b m s
  | .cmpeq h d a b m => Sys2Proof.Machine.execCmpeq h d a b m s
  | .cmpne h d a b m => Sys2Proof.Machine.execCmpne h d a b m s
  | .cmplt h d a b m => Sys2Proof.Machine.execCmplt h d a b m s
  | .cmpltn h d a b m => Sys2Proof.Machine.execCmpltn h d a b m s
  | .cmpge h d a b m => Sys2Proof.Machine.execCmpge h d a b m s
  | .cmpgen h d a b m => Sys2Proof.Machine.execCmpgen h d a b m s
  | .cmpeqi h d a j ks => Sys2Proof.Machine.execCmpeqi h d a j ks s
  | .cmplti h d a j ks => Sys2Proof.Machine.execCmplti h d a j ks s
  | .movi h d j ks => Sys2Proof.Machine.execMovi h d j ks s
  | .movhi h d j ks => Sys2Proof.Machine.execMovhi h d j ks s
  | .madd h d a b => Sys2Proof.Machine.execMadd h d a b s
  | .bfx h d a b m => Sys2Proof.Machine.execBfx h d a b m s
  | .bfi h d a b => Sys2Proof.Machine.execBfi h d a b s
  | .sext h d a j => Sys2Proof.Machine.execSext h d a j s
  | .zext h d a j => Sys2Proof.Machine.execZext h d a j s
  | .pand h d a b => Sys2Proof.Machine.execPand h d a b s
  | .por h d a b => Sys2Proof.Machine.execPor h d a b s
  | .pxor h d a b => Sys2Proof.Machine.execPxor h d a b s
  | .pandn h d a b => Sys2Proof.Machine.execPandn h d a b s
  | .pmov h d a m => Sys2Proof.Machine.execPmov h d a m s
  | .nset h d a j => Sys2Proof.Machine.execNset h d a j s
  | .nadv h d a j => Sys2Proof.Machine.execNadv h d a j s
  | .nget h d a j => Sys2Proof.Machine.execNget h d a j s
  | .cntrd h d j => Sys2Proof.Machine.execCntrd h d j s
  | .movsSFromF h d => Sys2Proof.Machine.execMovsSFromF h d s
  | .movsFFromS h a => Sys2Proof.Machine.execMovsFFromS h a s
  | .movsSFromP h d => Sys2Proof.Machine.execMovsSFromP h d s
  | .movsPFromS h a => Sys2Proof.Machine.execMovsPFromS h a s
  | .movsSFromLLo h d a => Sys2Proof.Machine.execMovsSFromLLo h d a s
  | .movsSFromLHi h d a => Sys2Proof.Machine.execMovsSFromLHi h d a s
  | .movsLLoFromS h d a => Sys2Proof.Machine.execMovsLLoFromS h d a s
  | .movsLHiFromS h d a => Sys2Proof.Machine.execMovsLHiFromS h d a s
  | .ldb h d a j ks => Sys2Proof.Machine.execLdb h d a j ks s
  | .ldh h d a j ks => Sys2Proof.Machine.execLdh h d a j ks s
  | .ldw h d a j ks => Sys2Proof.Machine.execLdw h d a j ks s
  | .ldd h d a j ks => Sys2Proof.Machine.execLdd h d a j ks s
  | .stb h d a j ks => Sys2Proof.Machine.execStb h d a j ks s
  | .sth h d a j ks => Sys2Proof.Machine.execSth h d a j ks s
  | .stw h d a j ks => Sys2Proof.Machine.execStw h d a j ks s
  | .std h d a j ks => Sys2Proof.Machine.execStd h d a j ks s
  | .ldv h d a j md => Sys2Proof.Machine.execLdv h d a j md s
  | .stv h d a j md => Sys2Proof.Machine.execStv h d a j md s
  | .ldvs h d a b m md => Sys2Proof.Machine.execLdvs h d a b m md s
  | .stvs h d a b m md => Sys2Proof.Machine.execStvs h d a b m md s
  | .ldvg h d a b m md => Sys2Proof.Machine.execLdvg h d a b m md s
  | .stvg h d a b m md => Sys2Proof.Machine.execStvg h d a b m md s
  | .ldq h d a j => Sys2Proof.Machine.execLdq h d a j s
  | .tld h d a md => Sys2Proof.Machine.execTld h d a md s
  | .tst h d a md => Sys2Proof.Machine.execTst h d a md s
  | .prefAddress h a j ks => Sys2Proof.Machine.execPrefAddress h a j ks s
  | .prefHandle h a => Sys2Proof.Machine.execPrefHandle h a s
  | .fence h b f => Sys2Proof.Machine.execFence h b f s
  | .drain h p sc => Sys2Proof.Machine.execDrain h p sc s
  | .aadd h d a b m => Sys2Proof.Machine.execAadd h d a b m s
  | .aand h d a b m => Sys2Proof.Machine.execAand h d a b m s
  | .aor h d a b m => Sys2Proof.Machine.execAor h d a b m s
  | .axor h d a b m => Sys2Proof.Machine.execAxor h d a b m s
  | .amin h d a b m => Sys2Proof.Machine.execAmin h d a b m s
  | .amax h d a b m => Sys2Proof.Machine.execAmax h d a b m s
  | .aminn h d a b m => Sys2Proof.Machine.execAminn h d a b m s
  | .amaxn h d a b m => Sys2Proof.Machine.execAmaxn h d a b m s
  | .axchg h d a b m => Sys2Proof.Machine.execAxchg h d a b m s
  | .acas h d a b m => Sys2Proof.Machine.execAcas h d a b m s
  | .vaadd h d a b m md => Sys2Proof.Machine.execVaadd h d a b m md s
  | .vaor h d a b m md => Sys2Proof.Machine.execVaor h d a b m md s
  | .vamax h d a b m md => Sys2Proof.Machine.execVamax h d a b m md s
  | .cadd h a b => Sys2Proof.Machine.execCadd h a b s
  | .waitge h d a b => Sys2Proof.Machine.execWaitge h d a b s
  | .binit h a b => Sys2Proof.Machine.execBinit h a b s
  | .barv h d a j => Sys2Proof.Machine.execBarv h d a j s
  | .bwait h d a b => Sys2Proof.Machine.execBwait h d a b s
  | .obrkBarrier h a => Sys2Proof.Machine.execObrkBarrier h a s
  | .obrkRing h a => Sys2Proof.Machine.execObrkRing h a s
  | .lkreq h d a b => Sys2Proof.Machine.execLkreq h d a b s
  | .lktry h d a b => Sys2Proof.Machine.execLktry h d a b s
  | .lkesc h d a b => Sys2Proof.Machine.execLkesc h d a b s
  | .lkdwn h a b => Sys2Proof.Machine.execLkdwn h a b s
  | .lkrel h a b => Sys2Proof.Machine.execLkrel h a b s
  | .lkrelAll h => Sys2Proof.Machine.execLkrelAll h s
  | .lkqry h d a b => Sys2Proof.Machine.execLkqry h d a b s
  | .vadd h d a b m md => Sys2Proof.Machine.execVadd h d a b m md s
  | .vsub h d a b m md => Sys2Proof.Machine.execVsub h d a b m md s
  | .vmul h d a b m md => Sys2Proof.Machine.execVmul h d a b m md s
  | .vfma h d a b m md => Sys2Proof.Machine.execVfma h d a b m md s
  | .vfms h d a b m md => Sys2Proof.Machine.execVfms h d a b m md s
  | .vfnma h d a b m md => Sys2Proof.Machine.execVfnma h d a b m md s
  | .vmin h d a b m md => Sys2Proof.Machine.execVmin h d a b m md s
  | .vmax h d a b m md => Sys2Proof.Machine.execVmax h d a b m md s
  | .vabs h d a m md => Sys2Proof.Machine.execVabs h d a m md s
  | .vneg h d a m md => Sys2Proof.Machine.execVneg h d a m md s
  | .vdiv h d a b m md => Sys2Proof.Machine.execVdiv h d a b m md s
  | .vsqrt h d a m md => Sys2Proof.Machine.execVsqrt h d a m md s
  | .vrcp h d a m md => Sys2Proof.Machine.execVrcp h d a m md s
  | .vrsq h d a m md => Sys2Proof.Machine.execVrsq h d a m md s
  | .vexp h d a m md => Sys2Proof.Machine.execVexp h d a m md s
  | .vlog h d a m md => Sys2Proof.Machine.execVlog h d a m md s
  | .vtanh h d a m md => Sys2Proof.Machine.execVtanh h d a m md s
  | .vcvt h d a x p r md => Sys2Proof.Machine.execVcvt h d a x p r md s
  | .vcmp h c f a b m md => Sys2Proof.Machine.execVcmp h c f a b m md s
  | .vsel h d a b md => Sys2Proof.Machine.execVsel h d a b md s
  | .viadd h d a b m md => Sys2Proof.Machine.execViadd h d a b m md s
  | .visub h d a b m md => Sys2Proof.Machine.execVisub h d a b m md s
  | .vimul h d a b m md => Sys2Proof.Machine.execVimul h d a b m md s
  | .vimulh h d a b m md => Sys2Proof.Machine.execVimulh h d a b m md s
  | .vand h d a b md => Sys2Proof.Machine.execVand h d a b md s
  | .vor h d a b md => Sys2Proof.Machine.execVor h d a b md s
  | .vxor h d a b md => Sys2Proof.Machine.execVxor h d a b md s
  | .vshl h d a b m md => Sys2Proof.Machine.execVshl h d a b m md s
  | .vshr h d a b m md => Sys2Proof.Machine.execVshr h d a b m md s
  | .vsra h d a b m md => Sys2Proof.Machine.execVsra h d a b m md s
  | .vimin h d a b m md => Sys2Proof.Machine.execVimin h d a b m md s
  | .vimax h d a b m md => Sys2Proof.Machine.execVimax h d a b m md s
  | .vpopc h d a m md => Sys2Proof.Machine.execVpopc h d a m md s
  | .vclz h d a m md => Sys2Proof.Machine.execVclz h d a m md s
  | .vperm h d a b m md => Sys2Proof.Machine.execVperm h d a b m md s
  | .vbcast h d a m md => Sys2Proof.Machine.execVbcast h d a m md s
  | .vext h d a b m => Sys2Proof.Machine.execVext h d a b m s
  | .vins h d a b m => Sys2Proof.Machine.execVins h d a b m s
  | .viota h d a b m md => Sys2Proof.Machine.execViota h d a b m md s
  | .vslide h d a j md => Sys2Proof.Machine.execVslide h d a j md s
  | .vred h d a b m md => Sys2Proof.Machine.execVred h d a b m md s
  | .vscan h d a b m md => Sys2Proof.Machine.execVscan h d a b m md s
  | .vmov h d a m md => Sys2Proof.Machine.execVmov h d a m md s
  | .vcomp h d a m md => Sys2Proof.Machine.execVcomp h d a m md s
  | .lmand h d a b => Sys2Proof.Machine.execLmand h d a b s
  | .lmor h d a b => Sys2Proof.Machine.execLmor h d a b s
  | .lmnot h d a => Sys2Proof.Machine.execLmnot h d a s
  | .lmpop h d a => Sys2Proof.Machine.execLmpop h d a s
  | .vsig h d a => Sys2Proof.Machine.execVsig h d a s
  | .lxadd h d a b m md => Sys2Proof.Machine.execLxadd h d a b m md s
  | .lxsub h d a b m md => Sys2Proof.Machine.execLxsub h d a b m md s
  | .lxmul h d a b m md => Sys2Proof.Machine.execLxmul h d a b m md s
  | .lxdiv h d a b m md => Sys2Proof.Machine.execLxdiv h d a b m md s
  | .lxcvt h d a x w r md => Sys2Proof.Machine.execLxcvt h d a x w r md s
  | .lxcmp h c a b m md => Sys2Proof.Machine.execLxcmp h c a b m md s
  | .lxsum h d a m md => Sys2Proof.Machine.execLxsum h d a m md s
  | .lxln h d a m md => Sys2Proof.Machine.execLxln h d a m md s
  | .xwld h a b m => Sys2Proof.Machine.execXwld h a b m s
  | .xmac h a ds => Sys2Proof.Machine.execXmac h a ds s
  | .xmacz h a ds => Sys2Proof.Machine.execXmacz h a ds s
  | .xbegin h => Sys2Proof.Machine.execXbegin h s
  | .xend h => Sys2Proof.Machine.execXend h s
  | .xepi h a b ds => Sys2Proof.Machine.execXepi h a b ds s
  | .xaccld h a b ds => Sys2Proof.Machine.execXaccld h a b ds s
  | .xaccst h a b ds => Sys2Proof.Machine.execXaccst h a b ds s
  | .xchk h d ds => Sys2Proof.Machine.execXchk h d ds s
  | .xfix h d a => Sys2Proof.Machine.execXfix h d a s
  | .xclr h ds => Sys2Proof.Machine.execXclr h ds s
  | .xcfg h a => Sys2Proof.Machine.execXcfg h a s
  | .cpyHandle h d a b => Sys2Proof.Machine.execCpyHandle h d a b s
  | .cpyAddress h d a b => Sys2Proof.Machine.execCpyAddress h d a b s
  | .cpypHandle h d a b => Sys2Proof.Machine.execCpypHandle h d a b s
  | .cpypAddress h d a b => Sys2Proof.Machine.execCpypAddress h d a b s
  | .cpyw h a b => Sys2Proof.Machine.execCpyw h a b s
  | .subsLoad h d a b => Sys2Proof.Machine.execSubsLoad h d a b s
  | .subsStore h d a b => Sys2Proof.Machine.execSubsStore h d a b s
  | .sube h d => Sys2Proof.Machine.execSube h d s
  | .hset h d a => Sys2Proof.Machine.execHset h d a s
  | .hwait h d a j => Sys2Proof.Machine.execHwait h d a j s
  | .hadv h a j => Sys2Proof.Machine.execHadv h a j s
  | .tspawn h d a b => Sys2Proof.Machine.execTspawn h d a b s
  | .klaunch h a => Sys2Proof.Machine.execKlaunch h a s
  | .coll h d a b => Sys2Proof.Machine.execColl h d a b s
  | .fput h d a b => Sys2Proof.Machine.execFput h d a b s
  | .qstat h d a j => Sys2Proof.Machine.execQstat h d a j s
  | .ckpt h => Sys2Proof.Machine.execCkpt h s
  | .cmpt h a b m => Sys2Proof.Machine.execCmpt h a b m s
  | .sigrd h d m => Sys2Proof.Machine.execSigrd h d m s
  | .phint h j k1 k2 => Sys2Proof.Machine.execPhint h j k1 k2 s
  | .csrr h d j => Sys2Proof.Machine.execCsrr h d j s
  | .csrw h d j => Sys2Proof.Machine.execCsrw h d j s
  | .csrs h d j => Sys2Proof.Machine.execCsrs h d j s
  | .csrc h d j => Sys2Proof.Machine.execCsrc h d j s
  | .eretRestore h => Sys2Proof.Machine.execEretRestore h s
  | .eretContinue h a => Sys2Proof.Machine.execEretContinue h a s
  | .sysc h j => Sys2Proof.Machine.execSysc h j s
  | .step h a => Sys2Proof.Machine.execStep h a s
  | .abort h a => Sys2Proof.Machine.execAbort h a s
  | .ttinvTile h a b => Sys2Proof.Machine.execTtinvTile h a b s
  | .ttinvTensor h a => Sys2Proof.Machine.execTtinvTensor h a s
  | .ttinvAsid h => Sys2Proof.Machine.execTtinvAsid h s
  | .ttinvAll h => Sys2Proof.Machine.execTtinvAll h s
  | .icinvCore h a b => Sys2Proof.Machine.execIcinvCore h a b s
  | .icinvPkg h a b => Sys2Proof.Machine.execIcinvPkg h a b s
  | .attq h d a b => Sys2Proof.Machine.execAttq h d a b s
  | .clockRestart core => Sys2Proof.Machine.execClockRestart core s
  | .runLimitDue g => Sys2Proof.Machine.execRunLimitDue g s
  | .runLimitExpiry g => Sys2Proof.Machine.execRunLimitExpiry g s
  | .exposedResultLand g => Sys2Proof.Machine.execExposedResultLand g s
  | .interlockedResultLand g k => Sys2Proof.Machine.execInterlockedResultLand g k s
  | .waitWake g => Sys2Proof.Machine.execWaitWake g s
  | .returningOpComplete g => Sys2Proof.Machine.execReturningOpComplete g s
  | .drainComplete g => Sys2Proof.Machine.execDrainComplete g s
  | .ttinvAcknowledge g => Sys2Proof.Machine.execTtinvAcknowledge g s
  | .icinvAcknowledge g => Sys2Proof.Machine.execIcinvAcknowledge g s
  | .lockAnswer g => Sys2Proof.Machine.execLockAnswer g s
  | .grantCacheRefill g => Sys2Proof.Machine.execGrantCacheRefill g s
  | .migrationWalkRetry g => Sys2Proof.Machine.execMigrationWalkRetry g s
  | .weightBufferCurrent core k => Sys2Proof.Machine.execWeightBufferCurrent core k s
  | .matrixRowsLand core k => Sys2Proof.Machine.execMatrixRowsLand core k s
  | .xaccldRowsArrive core k => Sys2Proof.Machine.execXaccldRowsArrive core k s
  | .xchkComplete core k => Sys2Proof.Machine.execXchkComplete core k s
  | .xfixComplete core k => Sys2Proof.Machine.execXfixComplete core k s
  | .xepiCheck core k => Sys2Proof.Machine.execXepiCheck core k s
  | .outputStageComplete c => Sys2Proof.Machine.execOutputStageComplete c s
  | .scbRelease g => Sys2Proof.Machine.execScbRelease g s
  | .intervalAgreement g => Sys2Proof.Machine.execIntervalAgreement g s
  | .signatureArrival g => Sys2Proof.Machine.execSignatureArrival g s
  | .twinSkewExpiry g => Sys2Proof.Machine.execTwinSkewExpiry g s
  | .reExecutionStart g => Sys2Proof.Machine.execReExecutionStart g s
  | .vote g => Sys2Proof.Machine.execVote g s
  | .scoreHalving => Sys2Proof.Machine.execScoreHalving s
  | .leaseExpiry lkm k => Sys2Proof.Machine.execLeaseExpiry lkm k s
  | .bwaitBoundExpiry g => Sys2Proof.Machine.execBwaitBoundExpiry g s
  | .absentTileRewalk c => Sys2Proof.Machine.execAbsentTileRewalk c s
  | .copyComplete c => Sys2Proof.Machine.execCopyComplete c s
  | .cpywComplete c => Sys2Proof.Machine.execCpywComplete c s
  | .loaderSlotStep c => Sys2Proof.Machine.execLoaderSlotStep c s
  | .storerSlotStep c => Sys2Proof.Machine.execStorerSlotStep c s
  | .klaunchPacketRead c => Sys2Proof.Machine.execKlaunchPacketRead c s
  | .collComplete c => Sys2Proof.Machine.execCollComplete c s
  | .collFlitReceive grp rank seq gsize check op data => Sys2Proof.Machine.execCollFlitReceive grp rank seq gsize check op data s
  | .fputComplete c => Sys2Proof.Machine.execFputComplete c s
  | .quoteComplete => Sys2Proof.Machine.execQuoteComplete s
  | .doorbellWrite u wc => Sys2Proof.Machine.execDoorbellWrite u wc s
  | .slotIdleTimeout n => Sys2Proof.Machine.execSlotIdleTimeout n s
  | .qschTurnEnd ioc => Sys2Proof.Machine.execQschTurnEnd ioc s
  | .packetLaunch n => Sys2Proof.Machine.execPacketLaunch n s
  | .packetWait n => Sys2Proof.Machine.execPacketWait n s
  | .packetSignal n => Sys2Proof.Machine.execPacketSignal n s
  | .packetMarker n => Sys2Proof.Machine.execPacketMarker n s
  | .qschWaitSatisfied n => Sys2Proof.Machine.execQschWaitSatisfied n s
  | .markerEffect n => Sys2Proof.Machine.execMarkerEffect n s
  | .kernelPlacement n => Sys2Proof.Machine.execKernelPlacement n s
  | .kernelComplete k => Sys2Proof.Machine.execKernelComplete k s
  | .queueReset n => Sys2Proof.Machine.execQueueReset n s
  | .queueResetUnmap n => Sys2Proof.Machine.execQueueResetUnmap n s
  | .taskDispatch cl => Sys2Proof.Machine.execTaskDispatch cl s
  | .dependenceRelease cl k => Sys2Proof.Machine.execDependenceRelease cl k s
  | .spillBufferDrain k => Sys2Proof.Machine.execSpillBufferDrain k s
  | .gangInstant ioc j => Sys2Proof.Machine.execGangInstant ioc j s
  | .prqGo ioc g => Sys2Proof.Machine.execPrqGo ioc g s
  | .preemptDeadlineFirst g => Sys2Proof.Machine.execPreemptDeadlineFirst g s
  | .preemptDeadlineSecond g => Sys2Proof.Machine.execPreemptDeadlineSecond g s
  | .parkedSave g => Sys2Proof.Machine.execParkedSave g s
  | .saveComplete g => Sys2Proof.Machine.execSaveComplete g s
  | .restore k => Sys2Proof.Machine.execRestore k s
  | .abortTokenReceive grp st => Sys2Proof.Machine.execAbortTokenReceive grp st s
  | .abortAnswer grp st => Sys2Proof.Machine.execAbortAnswer grp st s
  | .abortAnswerWindowExpiry grp => Sys2Proof.Machine.execAbortAnswerWindowExpiry grp s
  | .linkFlitReceive link good => Sys2Proof.Machine.execLinkFlitReceive link good s
  | .linkDead link => Sys2Proof.Machine.execLinkDead link s
  | .ptpMessage ns => Sys2Proof.Machine.execPtpMessage ns s
  | .apertureRead o n => Sys2Proof.Machine.execApertureRead o n s
  | .apertureWrite o n x => Sys2Proof.Machine.execApertureWrite o n x s
  | .hircWrite ioc x => Sys2Proof.Machine.execHircWrite ioc x s
  | .idropRead ioc => Sys2Proof.Machine.execIdropRead ioc s
  | .hndropRead u => Sys2Proof.Machine.execHndropRead u s
  | .atctlGo x => Sys2Proof.Machine.execAtctlGo x s
  | .atstRead => Sys2Proof.Machine.execAtstRead s
  | .sftbWrite spc x => Sys2Proof.Machine.execSftbWrite spc x s
  | .registerWrite r j x => Sys2Proof.Machine.execRegisterWrite r j x s
  | .freezePin ns => Sys2Proof.Machine.execFreezePin ns s
  | .frzWrite x => Sys2Proof.Machine.execFrzWrite x s
  | .moduleReset => Sys2Proof.Machine.execModuleReset s
  | .retirementClear spc n => Sys2Proof.Machine.execRetirementClear spc n s
  | .powerDownEntry u j => Sys2Proof.Machine.execPowerDownEntry u j s
  | .selfRefreshEntry u j => Sys2Proof.Machine.execSelfRefreshEntry u j s
  | .powerStateExit u j => Sys2Proof.Machine.execPowerStateExit u j s
  | .refreshDue u bank busy => Sys2Proof.Machine.execRefreshDue u bank busy s
  | .refreshComplete u bank => Sys2Proof.Machine.execRefreshComplete u bank s
  | .activationAlert u bank => Sys2Proof.Machine.execActivationAlert u bank s
  | .alertBackoffComplete u bank => Sys2Proof.Machine.execAlertBackoffComplete u bank s
  | .criticalTempAssert u => Sys2Proof.Machine.execCriticalTempAssert u s
  | .criticalTempClear u => Sys2Proof.Machine.execCriticalTempClear u s
  | .thermalHoldTimeout u => Sys2Proof.Machine.execThermalHoldTimeout u s
  | .scrubStep u err => Sys2Proof.Machine.execScrubStep u err s
  | .hotnessDecay u => Sys2Proof.Machine.execHotnessDecay u s
  | .uvEvaluate => Sys2Proof.Machine.execUvEvaluate s
  | .uvCrossingRaise dom arr => Sys2Proof.Machine.execUvCrossingRaise dom arr s
  | .uvWindowExpiry dom => Sys2Proof.Machine.execUvWindowExpiry dom s
  | .uvHoldExpiry dom => Sys2Proof.Machine.execUvHoldExpiry dom s
  | .illegalBundle sl => Sys2Proof.Machine.execIllegalBundle sl s
  | .matrixPartFree core part => Sys2Proof.Machine.execMatrixPartFree core part s
  | .iterativeUnitFree core unit => Sys2Proof.Machine.execIterativeUnitFree core unit s
  | .tileWalkComplete core asid tid tile => Sys2Proof.Machine.execTileWalkComplete core asid tid tile s
  | .shadowFrameCopyComplete g => Sys2Proof.Machine.execShadowFrameCopyComplete g s
  | .fenceMarkerRelease g => Sys2Proof.Machine.execFenceMarkerRelease g s
  | .powerCeilingThrottle on => Sys2Proof.Machine.execPowerCeilingThrottle on s

end Sys2Proof.Machine
end

