-- ==== Sys2Proof/Machine/Issue.lean ====
section
/-! DEFINITION. The issue of the next bundle of a context: fetch, decode, and the slots executed in order (02 R22,
R36, R40; 01 R18), and the laying out of a bundle where a context fetches. -/

namespace Sys2Proof.Machine

/-- The slots of the bundle in issue executed in slot order, at most `n` of them. -/
def State.runSlots : Nat → State → Host.Outcome State Fault Refusal
  | 0, s => .next s
  | n + 1, s =>
    match s.iss.rest with
    | [] => .next s
    | e :: r =>
      match exec e.2.2 (s.nextSlot e r) with
      | .next s1 => if r.isEmpty then .next s1 else s1.runSlots n
      | o => o

/-- Whether the power throttle gates a bundle: it holds a V- or X-class slot, and the duty cycle is off (01 R18; when
it is off the manual leaves open, log 5). -/
def State.throttled (s : State) (ps : List Placed) : Bool :=
  s.msc.throttle && ps.any (fun p => p.unit == some .va || p.unit == some .vb || p.unit == some .mx) && Config.freeBool s.ticks

/-- The next bundle of a context issued. -/
def State.issue (s : State) (g : Nat) : Host.Outcome State Fault Refusal :=
  let s0 := { s with cur := g }
  match s0.fetch g with
  | .trap t => .next (s0.trapped t)
  | .moving => .next (s0.stalled .moving)
  | .frame sl => execIllegalBundle sl s0
  | .words ws lines =>
    let s1 := s0.fillLines g lines
    match decodeBundle (s1.ctx g).al.vregs ws with
    | .error sl => execIllegalBundle sl s1
    | .ok ps => if s1.throttled ps then .next (s1.stalled .busy) else (s1.beginBundle g ws.length ps).runSlots ps.length

/-- Whether a context may issue: it has the core, nothing is left of its last bundle, and no stall holds it. -/
def State.issuable (s : State) (g : Nat) : Bool :=
  let c := s.ctx g
  c.st == .issuing && c.todo.isEmpty && (match c.stall with | none => true | some .busy => true | some .twin => true | some (.mem _) => true | _ => false)

/-- Whether work at the end of a context's bundle can go on. -/
def State.settles (s : State) (g : Nat) : Bool :=
  ((s.ctx g).st == .issuing || (s.ctx g).st == .ending) && (s.settleOne g).isSome

/-! ### A bundle laid out where a context fetches -/

/-- Where `placeBundle` puts the code. -/
def codeAt : Nat := 2 ^ 32

/-- Words written to HBM4 at 8-byte places. -/
def State.pokeWords (s : State) : List (Nat × Nat) → State
  | [] => s
  | (a, w) :: r => (s.poke (pkHbm a) (leBytes w 8)).pokeWords r

/-- The tables that map tile 2^16 of tensor 0, flat address 2^32, to the HBM4 frame 1 with R, W and X: the tensor table
at 0, the tables of the five levels from 0x1000 on (06 R105, R107). -/
def codeTables : List (Nat × Nat) :=
  [(24, 0x1000 + 5 * 2 ^ 42), (0x1000, 2 ^ 63 + 0x2000), (0x2000, 2 ^ 63 + 0x3000), (0x3000, 2 ^ 63 + 0x4000),
    (0x4000 + 8 * 128, 2 ^ 63 + 0x5000), (0x5000, 2 ^ 63 + 7 * 2 ^ 60 + 2 ^ 58 + 2 ^ 16)]

/-- A context that issues its next bundle at the code. -/
def Ctx.atCode (c : Ctx) : Ctx :=
  { c with
    st := .issuing, todo := [], stall := none, ttb := 0, r := { c.r with pc := BitVec.ofNat 64 codeAt }
    al := { c.al with vregs := 32 } }

/-- A state whose context `cur` fetches the bytes next: its code page mapped in tables of its own, the caches that could
answer instead emptied, the package running unthrottled. -/
def State.placeBundle (s : State) (bs : List Byte) : State :=
  let s1 := ((s.pokeWords codeTables).poke (pkHbm (2 ^ 16)) bs).setMe s.me.atCode
  let k := coreOf s.cur
  let s2 := s1.setCore k { s1.core k with tlb := [], dcache := [], icache := [], gated := false }
  let s3 := s2.setSpc (k / 16) { s2.spc (k / 16) with tlb := [] }
  { s3 with
    poison := s3.poison.filter fun a => !(decide (pkHbm 0 ≤ a) && decide (a < pkHbm (2 ^ 17)))
    msc := { s3.msc with frz := false, throttle := false }, turn := some s.cur }

end Sys2Proof.Machine
end

