-- ==== Sys2Proof/Machine/Window.lean ====
section
/-! DEFINITION. The windows through which the host reaches the package: which register or doorbell an offset names, what a read
returns, and which event an access is (18 R378; log 21). -/

namespace Sys2Proof.Machine

/-- A block of window 1 (R378). -/
inductive Block where
  /-- Control block of a core. -/
  | core (n : Nat)
  /-- A lock manager. -/
  | lkm (h : Nat)
  /-- A CUP. -/
  | cup (c : Nat)
  /-- A DSC. -/
  | dsc (d : Nat)
  /-- An IOC. -/
  | ioc (i : Nat)
  /-- The CMPE of an SPC. -/
  | cmpe (k : Nat)
  /-- An LP6 controller. -/
  | lp6 (j : Nat)
  /-- The MSC. -/
  | msc
  deriving DecidableEq, Repr

/-- A register by name: one that a plain write changes, or another. -/
inductive Reg where
  /-- A register that a write takes. -/
  | rw (r : RegName) (i : Nat)
  /-- Any other. -/
  | ro (r : RoReg) (i : Nat)
  deriving DecidableEq, Repr

/-- The block and the place in it at an offset of window 1 (R378). -/
def blockAt (o : Nat) : Option (Block × Nat) :=
  let blocks (base size n : Nat) (f : Nat → Block) : Option (Block × Nat) :=
    if base ≤ o && o < base + size * n then some (f ((o - base) / size), (o - base) % size) else none
  [blocks 0x1000000 0x10000 512 .core, blocks 0x4000000 0x10000 8 .lkm, blocks 0x5000000 0x10000 12 .cup,
    blocks 0x6000000 0x10000 8 .dsc, blocks 0x7000000 0x100000 2 .ioc, blocks 0x8000000 0x10000 32 .cmpe,
    blocks 0x9000000 0x10000 8 .lp6, blocks 0xA000000 0x6000000 1 fun _ => .msc].findSome? id

/-- The register at an offset of a block that the manual gives: AINJ, HAPB, HAPR, the host's quote registers and SYSRT (R379, R386,
R421; 20 R401). -/
def Block.given (b : Block) (o : Nat) : Option Reg :=
  match b, o with
  | .core n, 0xF000 => some (.rw .ainj n)
  | .ioc 0, 0x100 => some (.rw .hapb 0)
  | .ioc 0, 0x108 => some (.rw .hapr 0)
  | .msc, 0x100 => some (.rw .atnc 0)
  | .msc, 0x108 => some (.rw .atnc 1)
  | .msc, 0x110 => some (.rw .atnc 2)
  | .msc, 0x118 => some (.rw .atnc 3)
  | .msc, 0x120 => some (.rw .atbuf 0)
  | .msc, 0x128 => some (.ro .atctl 0)
  | .msc, 0x130 => some (.ro .atst 0)
  | .msc, 0x140 => some (.rw .sysrt 0)
  | _, _ => none

/-- The words of a ring of 64 entries of unit `u`. -/
def ringRegs (r : RoReg) (u : Nat) : List Reg := (List.range 256).map fun i => .ro r (256 * u + i)

/-- The registers of a memory unit. -/
def unitRegs (u : Nat) : List Reg := [.rw .scrbUnit u, .ro .elwc u] ++ ringRegs .elog u

/-- The power and hotness registers of a CUP or an LP6 controller. -/
def hotRegs (u : Nat) : List Reg :=
  [.rw .hpmcfg u, .rw .hotcfg u, .rw .hnrb u, .rw .hnrs u, .rw .hnrc u, .ro .hnwc u, .ro .hndrop u, .ro .pcst (2 * u)]

/-- The kind of a block, as a number. -/
def Block.kind : Block → Nat
  | .core _ => 0
  | .lkm _ => 1
  | .cup _ => 2
  | .dsc _ => 3
  | .ioc _ => 4
  | .cmpe _ => 5
  | .lp6 _ => 6
  | .msc => 7

/-- The registers of a block whose offsets the manual does not give (log 21). -/
def Block.others : Block → List Reg
  | .core n => (List.range 12).map (fun j => .rw .lspswz (12 * n + j)) ++ (List.range 64).map (fun j => .rw .ringt (64 * n + j)) ++
      [.rw .scrbLsp n, .rw .scrbAcc n, .ro .elwcLsp n, .ro .elwcAcc n] ++ ringRegs .elogLsp n ++ ringRegs .elogAcc n
  | .lkm h => (List.range 4).map (fun j => .rw .lkcm (4 * h + j)) ++ [.rw .mxlease h, .ro .lkuse h]
  | .cup c => unitRegs c ++ hotRegs c ++ [.rw .hrefcfg c, .ro .pcst (2 * c + 1)]
  | .dsc d => unitRegs (12 + d)
  | .ioc i => [.rw .qtb i, .rw .qslice i, .rw .gsper i, .rw .predl i, .rw .svpb i, .rw .svps i, .rw .hirb i, .rw .hirs i, .rw .grtb i,
      .ro .hirc i, .ro .hiwc i, .ro .idrop i, .ro .prq i] ++
      (List.range 16).flatMap (fun j => [Reg.rw .gslt (16 * i + j), .rw .gsln (16 * i + j)]) ++
      (List.range 64).flatMap (fun j => [Reg.rw .qswc (64 * i + j), .ro .qsrc (64 * i + j), .ro .qsst (64 * i + j), .ro .qsrst (64 * i + j)]) ++
      ((List.range 27).filter fun l => linkIoc l == i).flatMap fun l => (List.range (lanesOf l)).map fun j => Reg.rw .linj (64 * l + j)
  | .cmpe k => [.ro .sftb k, .ro .sfuse k] ++ ringRegs .event k
  | .lp6 j => unitRegs (20 + j) ++ hotRegs (20 + j)
  | .msc => [.ro .ready 0, .ro .frz 0, .ro .dbgen 0, .rw .uvcfg 0, .ro .uvst 0, .rw .susth 0] ++
      (List.range 512).map (.ro .susc) ++ (List.range 32).map (.ro .suss) ++ (List.range 512).map (.ro .cert)

/-- The register at an offset of window 1; none where the offset is not listed (R378). -/
def regAt (o : Nat) : Option Reg :=
  match blockAt o with
  | none => none
  | some (b, p) =>
    match b.given p with
    | some r => some r
    | none => b.others[Config.regSlot b.kind p]?

/-- Only aligned accesses of 8 bytes act on windows 0 and 1 (R378). -/
def plainAccess (o n : Nat) : Bool := n == 8 && o % 8 == 0

/-- What a read of window 1 returns: zero for any other access, and for an offset that is not listed (R378). -/
def State.windowRead (s : State) (o n : Nat) : Word :=
  if plainAccess o n then
    match regAt o with
    | some (.rw r i) => s.readReg r i
    | some (.ro r i) => s.readStatus r i
    | none => 0
  else 0

/-- What a write of a register is; a write of a read-only register is ignored (00 R6). -/
def Reg.written (r : Reg) (x : Word) : Option Event :=
  match r with
  | .rw r i => some (.registerWrite r i x)
  | .ro .hirc i => some (.hircWrite i x)
  | .ro .sftb i => some (.sftbWrite i x)
  | .ro .atctl _ => some (.atctlGo x)
  | .ro .frz _ => some (.frzWrite x)
  | .ro .qsrst n => if x.getLsbD 0 then some (if x.getLsbD 1 then .queueResetUnmap n else .queueReset n) else none
  | .ro .prq i => if x.getLsbD 12 then some (.prqGo i (bits x.toNat 0 12)) else none
  | .ro _ _ => none

/-- What a read of a register is, beside the value that it returns: IDROP, HNDROP and REJ are cleared by reading. -/
def Reg.read (r : Reg) : Option Event :=
  match r with
  | .ro .idrop i => some (.idropRead i)
  | .ro .hndrop u => some (.hndropRead u)
  | .ro .atst _ => some .atstRead
  | _ => none

/-- An access of the host through a window of its link: window, offset, bytes, and the value written. -/
inductive HostAccess where
  /-- A write. -/
  | write (win o n x : Nat)
  /-- A read. -/
  | read (win o n : Nat)
  deriving DecidableEq, Repr

/-- The event that an access of the host is, where it is one: window 0 holds the doorbell of user queue u at 8u, window 1 the
registers, window 2 the aperture (R378). -/
def HostAccess.event : HostAccess → Option Event
  | .write 0 o n x => if plainAccess o n && decide (o < 2 ^ 19) then some (.doorbellWrite (o / 8) (BitVec.ofNat 64 x)) else none
  | .write 1 o n x => if plainAccess o n then (regAt o).bind fun r => r.written (BitVec.ofNat 64 x) else none
  | .write 2 o n x => some (.apertureWrite o n x)
  | .read 1 o n => if plainAccess o n then (regAt o).bind Reg.read else none
  | .read 2 o n => some (.apertureRead o n)
  | _ => none

end Sys2Proof.Machine
end

