-- ==== Sys2Proof/Machine/Enabled.lean ====
section
/-! DEFINITION. The events run by their meanings, those that the package makes of itself, and the choice among what can
happen next (log 5). -/

/-- What the environment does at a time: inputs that arrive (log 5). -/
opaque Sys2Proof.Config.arrivals : Nat → List Sys2Proof.Machine.Event

/-- The accesses of the host through the link's windows at a time, in the order in which it issues them (log 5; 18 R378). -/
opaque Sys2Proof.Config.hostAccesses : Nat → List Sys2Proof.Machine.HostAccess

namespace Sys2Proof.Machine

/-- The meaning of an event. -/
def runEvent (e : Event) (s : State) : Host.Outcome State Fault Refusal :=
  match e with
  | .clockRestart core => Sys2Proof.Machine.execClockRestart core s
  | .runLimitDue g => Sys2Proof.Machine.execRunLimitDue g s
  | .runLimitExpiry g => Sys2Proof.Machine.execRunLimitExpiry g s
  | .exposedResultLand g => Sys2Proof.Machine.execExposedResultLand g s
  | .interlockedResultLand g k => Sys2Proof.Machine.execInterlockedResultLand g k s
  | .waitWake g => Sys2Proof.Machine.execWaitWake g s
  | .returningOpComplete g => Sys2Proof.Machine.execReturningOpComplete g s
  | .drainComplete g => Sys2Proof.Machine.execDrainComplete g s
  | .ttinvAcknowledge g => Sys2Proof.Machine.execTtinvAcknowledge g s
  | .icinvAcknowledge g => Sys2Proof.Machine.execIcinvAcknowledge g s
  | .lockAnswer g => Sys2Proof.Machine.execLockAnswer g s
  | .grantCacheRefill g => Sys2Proof.Machine.execGrantCacheRefill g s
  | .migrationWalkRetry g => Sys2Proof.Machine.execMigrationWalkRetry g s
  | .weightBufferCurrent core k => Sys2Proof.Machine.execWeightBufferCurrent core k s
  | .matrixRowsLand core k => Sys2Proof.Machine.execMatrixRowsLand core k s
  | .xaccldRowsArrive core k => Sys2Proof.Machine.execXaccldRowsArrive core k s
  | .xchkComplete core k => Sys2Proof.Machine.execXchkComplete core k s
  | .xfixComplete core k => Sys2Proof.Machine.execXfixComplete core k s
  | .xepiCheck core k => Sys2Proof.Machine.execXepiCheck core k s
  | .outputStageComplete c => Sys2Proof.Machine.execOutputStageComplete c s
  | .scbRelease g => Sys2Proof.Machine.execScbRelease g s
  | .intervalAgreement g => Sys2Proof.Machine.execIntervalAgreement g s
  | .signatureArrival g => Sys2Proof.Machine.execSignatureArrival g s
  | .twinSkewExpiry g => Sys2Proof.Machine.execTwinSkewExpiry g s
  | .reExecutionStart g => Sys2Proof.Machine.execReExecutionStart g s
  | .vote g => Sys2Proof.Machine.execVote g s
  | .scoreHalving => Sys2Proof.Machine.execScoreHalving s
  | .leaseExpiry lkm k => Sys2Proof.Machine.execLeaseExpiry lkm k s
  | .bwaitBoundExpiry g => Sys2Proof.Machine.execBwaitBoundExpiry g s
  | .absentTileRewalk c => Sys2Proof.Machine.execAbsentTileRewalk c s
  | .copyComplete c => Sys2Proof.Machine.execCopyComplete c s
  | .cpywComplete c => Sys2Proof.Machine.execCpywComplete c s
  | .loaderSlotStep c => Sys2Proof.Machine.execLoaderSlotStep c s
  | .storerSlotStep c => Sys2Proof.Machine.execStorerSlotStep c s
  | .klaunchPacketRead c => Sys2Proof.Machine.execKlaunchPacketRead c s
  | .collComplete c => Sys2Proof.Machine.execCollComplete c s
  | .collFlitReceive grp rank seq gsize check op data => Sys2Proof.Machine.execCollFlitReceive grp rank seq gsize check op data s
  | .fputComplete c => Sys2Proof.Machine.execFputComplete c s
  | .quoteComplete => Sys2Proof.Machine.execQuoteComplete s
  | .doorbellWrite u wc => Sys2Proof.Machine.execDoorbellWrite u wc s
  | .slotIdleTimeout n => Sys2Proof.Machine.execSlotIdleTimeout n s
  | .qschTurnEnd ioc => Sys2Proof.Machine.execQschTurnEnd ioc s
  | .packetLaunch n => Sys2Proof.Machine.execPacketLaunch n s
  | .packetWait n => Sys2Proof.Machine.execPacketWait n s
  | .packetSignal n => Sys2Proof.Machine.execPacketSignal n s
  | .packetMarker n => Sys2Proof.Machine.execPacketMarker n s
  | .qschWaitSatisfied n => Sys2Proof.Machine.execQschWaitSatisfied n s
  | .markerEffect n => Sys2Proof.Machine.execMarkerEffect n s
  | .kernelPlacement n => Sys2Proof.Machine.execKernelPlacement n s
  | .kernelComplete k => Sys2Proof.Machine.execKernelComplete k s
  | .queueReset n => Sys2Proof.Machine.execQueueReset n s
  | .queueResetUnmap n => Sys2Proof.Machine.execQueueResetUnmap n s
  | .taskDispatch cl => Sys2Proof.Machine.execTaskDispatch cl s
  | .dependenceRelease cl k => Sys2Proof.Machine.execDependenceRelease cl k s
  | .spillBufferDrain k => Sys2Proof.Machine.execSpillBufferDrain k s
  | .gangInstant ioc i => Sys2Proof.Machine.execGangInstant ioc i s
  | .prqGo ioc g => Sys2Proof.Machine.execPrqGo ioc g s
  | .preemptDeadlineFirst g => Sys2Proof.Machine.execPreemptDeadlineFirst g s
  | .preemptDeadlineSecond g => Sys2Proof.Machine.execPreemptDeadlineSecond g s
  | .parkedSave g => Sys2Proof.Machine.execParkedSave g s
  | .saveComplete g => Sys2Proof.Machine.execSaveComplete g s
  | .restore k => Sys2Proof.Machine.execRestore k s
  | .abortTokenReceive grp st => Sys2Proof.Machine.execAbortTokenReceive grp st s
  | .abortAnswer grp st => Sys2Proof.Machine.execAbortAnswer grp st s
  | .abortAnswerWindowExpiry grp => Sys2Proof.Machine.execAbortAnswerWindowExpiry grp s
  | .linkFlitReceive link good => Sys2Proof.Machine.execLinkFlitReceive link good s
  | .linkDead link => Sys2Proof.Machine.execLinkDead link s
  | .ptpMessage ns => Sys2Proof.Machine.execPtpMessage ns s
  | .apertureRead o n => Sys2Proof.Machine.execApertureRead o n s
  | .apertureWrite o n x => Sys2Proof.Machine.execApertureWrite o n x s
  | .hircWrite ioc x => Sys2Proof.Machine.execHircWrite ioc x s
  | .idropRead ioc => Sys2Proof.Machine.execIdropRead ioc s
  | .hndropRead u => Sys2Proof.Machine.execHndropRead u s
  | .atctlGo x => Sys2Proof.Machine.execAtctlGo x s
  | .atstRead => Sys2Proof.Machine.execAtstRead s
  | .sftbWrite spc x => Sys2Proof.Machine.execSftbWrite spc x s
  | .registerWrite r i x => Sys2Proof.Machine.execRegisterWrite r i x s
  | .freezePin ns => Sys2Proof.Machine.execFreezePin ns s
  | .frzWrite x => Sys2Proof.Machine.execFrzWrite x s
  | .moduleReset => Sys2Proof.Machine.execModuleReset s
  | .retirementClear spc n => Sys2Proof.Machine.execRetirementClear spc n s
  | .powerDownEntry u j => Sys2Proof.Machine.execPowerDownEntry u j s
  | .selfRefreshEntry u j => Sys2Proof.Machine.execSelfRefreshEntry u j s
  | .powerStateExit u j => Sys2Proof.Machine.execPowerStateExit u j s
  | .refreshDue u bank busy => Sys2Proof.Machine.execRefreshDue u bank busy s
  | .refreshComplete u bank => Sys2Proof.Machine.execRefreshComplete u bank s
  | .activationAlert u bank => Sys2Proof.Machine.execActivationAlert u bank s
  | .alertBackoffComplete u bank => Sys2Proof.Machine.execAlertBackoffComplete u bank s
  | .criticalTempAssert u => Sys2Proof.Machine.execCriticalTempAssert u s
  | .criticalTempClear u => Sys2Proof.Machine.execCriticalTempClear u s
  | .thermalHoldTimeout u => Sys2Proof.Machine.execThermalHoldTimeout u s
  | .scrubStep u err => Sys2Proof.Machine.execScrubStep u err s
  | .hotnessDecay u => Sys2Proof.Machine.execHotnessDecay u s
  | .uvEvaluate => Sys2Proof.Machine.execUvEvaluate s
  | .uvCrossingRaise dom arr => Sys2Proof.Machine.execUvCrossingRaise dom arr s
  | .uvWindowExpiry dom => Sys2Proof.Machine.execUvWindowExpiry dom s
  | .uvHoldExpiry dom => Sys2Proof.Machine.execUvHoldExpiry dom s
  | .illegalBundle sl => Sys2Proof.Machine.execIllegalBundle sl s
  | .matrixPartFree core part => Sys2Proof.Machine.execMatrixPartFree core part s
  | .iterativeUnitFree core unit => Sys2Proof.Machine.execIterativeUnitFree core unit s
  | .tileWalkComplete core asid tid tile => Sys2Proof.Machine.execTileWalkComplete core asid tid tile s
  | .shadowFrameCopyComplete g => Sys2Proof.Machine.execShadowFrameCopyComplete g s
  | .fenceMarkerRelease g => Sys2Proof.Machine.execFenceMarkerRelease g s
  | .powerCeilingThrottle on => Sys2Proof.Machine.execPowerCeilingThrottle on s
  | .debugEnable x => .next { s with msc := { s.msc with dbgen := x &&& 1 } }
  | .bringUp => .next { s with msc := s.msc.bringUp }

/-- Whether an event happens while the package is frozen: those of the MSC alone, its debug port and a module reset (18
R388). No voltage step begins, and no array is spared or retired, once the clocks have stopped (18 R392). -/
def Event.whenFrozen : Event → Bool
  | .moduleReset | .retirementClear .. | .debugEnable _ | .bringUp | .registerWrite .. | .atctlGo _ | .scoreHalving
  | .uvHoldExpiry _ => true
  | _ => false

/-- The events that a context may be due. -/
def ctxEvents (s : State) (g : Nat) : List Event :=
  [.runLimitDue g, .runLimitExpiry g, .exposedResultLand g, .waitWake g, .returningOpComplete g, .drainComplete g,
    .ttinvAcknowledge g, .icinvAcknowledge g, .lockAnswer g, .grantCacheRefill g, .migrationWalkRetry g, .scbRelease g,
    .intervalAgreement g, .signatureArrival g, .twinSkewExpiry g, .reExecutionStart g, .vote g, .bwaitBoundExpiry g,
    .preemptDeadlineFirst g, .preemptDeadlineSecond g, .parkedSave g, .saveComplete g, .shadowFrameCopyComplete g,
    .fenceMarkerRelease g] ++
    (List.range (s.ctx g).fl.length).map (.interlockedResultLand g)

/-- The events that a core may be due: its clock, its engine, its units and its walks. -/
def coreEvents (s : State) (k : Nat) : List Event :=
  let mx := match s.issuer k with
    | some g => (List.range (s.ctx g).mx.length).flatMap fun i =>
        [.weightBufferCurrent k i, .matrixRowsLand k i, .xaccldRowsArrive k i, .xchkComplete k i, .xfixComplete k i, .xepiCheck k i]
    | none => []
  let free := Config.freeTile (s.ticks + k)
  let walk (a t n : Nat) : Event := .tileWalkComplete k (BitVec.ofNat 16 a) (BitVec.ofNat 20 t) n
  [Event.clockRestart k] ++ mx ++ (List.range 3).map (.matrixPartFree k) ++ (s.core k).iter.map (.iterativeUnitFree k) ++
    ((s.core k).walks.map fun w => walk w.1 w.2.1 w.2.2) ++
    (match s.issuer k with
      | some g => [walk (s.ctx g).space.asid free.1 free.2]
      | none => [])

/-- The events that a command, or a subscription, at an engine may be due. -/
def cmdEvents (c : Nat) : List Event :=
  [.outputStageComplete c, .absentTileRewalk c, .copyComplete c, .cpywComplete c, .loaderSlotStep c, .storerSlotStep c,
    .klaunchPacketRead c, .collComplete c, .fputComplete c]

/-- The events that a hardware queue slot may be due. -/
def slotEvents (n : Nat) : List Event :=
  [.slotIdleTimeout n, .packetLaunch n, .packetWait n, .packetSignal n, .packetMarker n, .qschWaitSatisfied n,
    .markerEffect n, .kernelPlacement n]

/-- The events that an IOC may be due. -/
def iocEvents (s : State) (i : Nat) : List Event :=
  [.qschTurnEnd i] ++ (List.range 16).map (.gangInstant i) ++
    (s.ioc i).tokens.map fun t => .abortAnswerWindowExpiry (BitVec.ofNat 16 t.grp)

/-- The events that a cluster may be due. -/
def clusterEvents (s : State) (cl : Nat) : List Event :=
  .taskDispatch cl :: (List.range (s.cluster cl).pool.length).map (.dependenceRelease cl)

/-- The events that the MSC and the memory units may be due by the clock. -/
def clockEvents (s : State) : List Event :=
  [.scoreHalving, .uvEvaluate, .quoteComplete, .bringUp] ++
    (List.range 4).flatMap (fun d =>
      [Event.uvWindowExpiry d, .uvHoldExpiry d] ++ (vget s.msc.volts d Volt.reset).arrays.map (.uvCrossingRaise d)) ++
    s.units.flatMap fun (u : Nat × MemUnit) =>
      [.thermalHoldTimeout u.1, .hotnessDecay u.1] ++ u.2.exits.map (.powerStateExit u.1) ++
        u.2.refr.map (.refreshComplete u.1) ++ u.2.blocked.map (.alertBackoffComplete u.1)

/-- Keys of a map. -/
def SMap.keys {α : Type} (m : SMap α) : List Nat := m.map (·.1)

/-- The walks of the device's walkers: of the aperture, of the system space and of the slots (18 R421). -/
def deviceWalks (s : State) : List Event :=
  let free := Config.freeTile s.ticks
  let walk (k : Nat) : Event := .tileWalkComplete k s.apertureSpace.asid 0 free.2
  ([512, 513] ++ s.slots.keys.map (514 + ·)).map walk

/-- The contexts that a state lists, saved ones left out. -/
def State.listed (s : State) : List Nat := s.ctxs.keys.filter fun g => decide (g < 4096)

/-- The events that the package may be due. -/
def State.due (s : State) : List Event :=
  s.listed.flatMap (ctxEvents s) ++ (List.range 512).flatMap (fun k => if (s.cores.find? k).isSome then coreEvents s k else []) ++
    (s.cmds.keys ++ s.subs.keys).flatMap cmdEvents ++ s.slots.keys.flatMap slotEvents ++ [0, 1].flatMap (iocEvents s) ++
    s.clusters.keys.flatMap (clusterEvents s) ++ (List.range s.spill.length).map .spillBufferDrain ++
    s.kernels.keys.map .kernelComplete ++ s.saved.keys.map .restore ++ deviceWalks s ++
    (s.lkms.flatMap fun (k : Nat × Lkm) => (List.range k.2.ents.length).map (.leaseExpiry k.1)) ++
    (s.links.filter fun (l : Nat × Link) => l.2.failed && !l.2.dead).map (fun l => .linkDead l.1) ++ clockEvents s

/-- An event as a step makes it: one whose device accesses wait at a unit begins their exits, and happens later (17 R364, R366 to
R369). -/
def State.runAt (s : State) (e : Event) : Host.Outcome State Fault Refusal :=
  match s.heldBy e with
  | [] => runEvent e s
  | ks => .next (ks.foldl State.wake s)

/-- Whether an event would change something. -/
def State.enabled (s : State) (e : Event) : Bool :=
  (!s.msc.frz || e.whenFrozen) &&
    (match s.runAt e with
      | .next s1 => decide (s1 ≠ s)
      | _ => true)

/-- What a step may be. -/
inductive Choice where
  /-- Time passes and inputs arrive. -/
  | time
  /-- An input that has arrived acts. -/
  | input (e : Event)
  /-- A context issues a bundle. -/
  | issue (g : Nat)
  /-- A context goes on with the end of its bundle. -/
  | settle (g : Nat)
  /-- An event of the package. -/
  | event (e : Event)
  deriving DecidableEq, Repr

/-- Whether an event is an access through window 2. -/
def Event.byAperture : Event → Bool
  | .apertureRead .. | .apertureWrite .. => true
  | _ => false

/-- The inputs that may act next: the oldest of those through window 2, and of the others, since accesses through one
window keep their order and one that waits holds back no others (18 R378, R379). -/
def State.inputs (s : State) : List Event :=
  (s.inbox.find? fun e => !e.byAperture).toList ++ (s.inbox.find? Event.byAperture).toList

/-- The choices of a state. -/
def State.choices (s : State) : List Choice :=
  [.time] ++ s.inputs.map .input ++
    (if s.msc.frz then [] else (s.listed.filter s.issuable).map .issue ++ (s.listed.filter s.settles).map .settle) ++
    (s.due.filter s.enabled).map .event

/-- The physical fault that is about to strike at a tick (log 5). -/
def upsetOf (n : Nat) : List Upset :=
  match Config.upset n with
  | 1 => [.reg]
  | 2 => [.dup]
  | 3 => [.residue]
  | 4 => [.transport]
  | 5 => [.weight]
  | _ => []

/-- Whether a context stalls: its next bundle waits at issue, or the end of its last one has work left (04 R63, R64). -/
def Ctx.stalling (c : Ctx) : Bool :=
  (decide (c.st = .issuing) || decide (c.st = .ending)) && (c.stall.isSome || !c.todo.isEmpty)

/-- Whether an input comes over a tower link or a scale-out port (18 R381). -/
def Event.byFabric : Event → Bool
  | .abortTokenReceive .. | .abortAnswer .. | .collFlitReceive .. => true
  | _ => false

/-- Time passes: global time and uptime by the same amount, the core cycles freely; contexts for which the twin-skew
bound does not run note it (15 R328); a context that stalls counts the cycles (05 R95); inputs arrive, and a fault may strike an
array. While frozen no cycle passes (18 R388). -/
def State.passTime (s : State) : State :=
  let ns := Config.freeNs s.ticks
  let cyc := if s.msc.frz then 0 else Config.freeCycles s.ticks
  let s := if s.msc.frz then s else s.strike (Config.upset s.ticks) (Config.strikeAt s.ticks)
  { s with
    now := s.now + ns
    cycles := s.cycles + cyc
    msc := { s.msc with up := s.msc.up + ns }.cool
    ctxs := s.ctxs.map fun (e : Nat × Ctx) =>
      (e.1, { e.2 with
        mstep := e.2.mstep + e.2.engineRuns cyc
        fl := if e.2.landing then e.2.fl.map fun f => if f.ilk then f else { f with land := f.land - e.2.engineRuns cyc } else e.2.fl
        exempt := if s.skewExempt e.1 then e.2.exempt + ns else e.2.exempt
        cntS := if e.2.stalling then e.2.cntS + BitVec.ofNat 64 cyc else e.2.cntS })
    upsets := if s.upsets.isEmpty then upsetOf s.ticks else s.upsets
    inbox := s.inbox ++ ((Config.arrivals s.ticks).filter fun e => !e.byFabric || !s.unreachable) ++
      (Config.hostAccesses s.ticks).filterMap HostAccess.event }

/-- A choice carried out. An issued bundle takes a cycle. -/
def State.carry (s : State) (c : Choice) : Host.Outcome State Fault Refusal :=
  match c with
  | .time => .next s.passTime
  | .input e =>
    let s1 := { s with inbox := s.inbox.erase e }
    if s.msc.frz && !e.whenFrozen then .next s1
    else if (s.heldBy e).isEmpty then runEvent e s1
    else s.runAt e
  | .issue g => ({ s with cycles := s.cycles + 1 }).issue g
  | .settle g => .next (s.settle g)
  | .event e => s.runAt e

/-- The choice that a step makes: the forced context where one is forced and may issue, else one of all (log 5). -/
def State.choose (s : State) : Choice :=
  match s.turn with
  | some g => if s.issuable g && !s.msc.frz then .issue g else (s.choices)[Config.pick s.ticks % s.choices.length]?.getD .time
  | none => (s.choices)[Config.pick s.ticks % s.choices.length]?.getD .time

end Sys2Proof.Machine
end

