-- ==== Sys2Proof/Machine/Step.lean ====
section
/-! DEFINITION. One step of the package: one thing happens, that `choose` names (log 5). -/

namespace Sys2Proof.Machine

/-- A step: the counter of free values rises, and the choice made in the state before is carried out. -/
def step (s : State) : Host.Outcome State Fault Refusal :=
  ({ s with turn := none, ticks := s.ticks + 1 }).carry s.choose

/-- A state whose very next step fetches and runs the bundle in which the slot word of a table row stands (02 R22). -/
def State.withFetchWord (s : State) (nbits w : Nat) : State :=
  s.placeBundle (if nbits = 32 then (tableBundle w).flatMap wordBytes else [])

end Sys2Proof.Machine
end

