-- ==== Sys2Proof/Safety.lean ====
section
/-! DEFINITION. The words in which claims are stated: a run that never stops, a slot that executes normally, a bundle
of one slot with nothing else under way, and the states that they lead to. -/

namespace Sys2Proof.Machine

/-- A state from which no number of steps meets a fault or a refusal. -/
def State.neverStops (s : State) : Prop := ∀ n, ∃ t, Sys2Proof.core.run n s = .next t

/-- The memory is in its canonical form. -/
def State.memOk (s : State) : Prop := Memory.wf s.mem = true

/-- A slot executes normally: its guard is settled and true, it is no duplicate, nothing it touches is pending, and no
physical fault is about to strike (02 R29, R34; 04 R63). -/
def State.ready (s : State) (h : Head) (touch : List RegId) : Prop :=
  s.me.pending (RegId.p (s.me.r.physPred h.g.toNat)) = false ∧ s.me.r.readPred h.g.toNat = true ∧
    s.me.anyPending touch = false ∧ h.d = false ∧ s.upsets = []

/-- A slot whose guard is settled and false (02 R29). -/
def State.guardFalse (s : State) (h : Head) : Prop :=
  s.me.pending (RegId.p (s.me.r.physPred h.g.toNat)) = false ∧ s.me.r.readPred h.g.toNat = false

/-- The bundle in issue has one slot, and of its context nothing is in flight, due or about to run out. -/
structure State.alone (s : State) : Prop where
  /-- No slot follows. -/
  rest : s.iss.rest = []
  /-- No slot precedes. -/
  acts : s.iss.acts = []
  /-- No result is in flight. -/
  fl : s.me.fl = []
  /-- No matrix operation is under way. -/
  mx : s.me.mx = []
  /-- Every chain that has ended has been folded. -/
  chains : ∀ ch ∈ s.me.chains, ch.closed = false
  /-- No trap waits for the end of the bundle. -/
  due' : s.me.due' = []
  /-- The run limit is not due, nor does it fall due here. -/
  due : s.me.due = false
  /-- The run-limit counter stands above an eighth of the limit (04 R66). -/
  run : s.me.runLimit / 8 + 1 < s.me.run
  /-- No physical fault is about to strike. -/
  upsets : s.upsets = []
  /-- The context holds its core. -/
  st : s.me.st = .issuing

/-- A context after a bundle at `pc` of which only the counts and the PC remain: the PC at the fall-through bundle. -/
def Ctx.passed (c : Ctx) (pc next : Word) : Ctx :=
  { c with
    r := { c.r with pc := next }
    stall := none, cntB := c.cntB + 1, bseq := c.bseq + 1, mstep := c.mstep + 1, run := c.run - 1, todo := [], lastPc := pc }

/-- A context whose slot transfers: the word of the transfer folded, and the target, if there is one, in the PC. -/
def Ctx.jumped (c : Ctx) (target : Option Word) (fold : Word) : Ctx :=
  { c with r := { c.r with pc := target.getD c.r.pc }, sighi := if 1 ≤ c.pcls then sigFold c.sighi fold else c.sighi }

/-- The state after a bundle of one slot whose context becomes `c`. -/
def State.after (s : State) (c : Ctx) : State := { s with iss := Issue.idle, ctxs := s.ctxs.set s.cur c }

/-- No save of the context, nor of its twin, is due at a checkpoint (16 R347, R348). -/
def State.noSave (s : State) : Prop :=
  s.me.pendWhole = false ∧ s.me.twin ≠ some s.cur ∧ s.twinSaving s.cur = false

/-- The state after a bundle of one slot that leaves work for its end: the work is done, in order, as far as it goes. -/
def State.endsWith (s : State) (work : List Tail) : State :=
  (s.after { s.me.passed s.iss.pc s.fallThrough with todo := work }).settle s.cur

/-- The state with iterative units of the own core busy. -/
def State.busyUnits (s : State) (us : List Nat) : State :=
  us.foldl (fun s u => let k := s.core (coreOf s.cur); s.setCore (coreOf s.cur) { k with iter := insertNat u k.iter }) s

/-- The state after a bundle of one slot that leaves results in flight, and makes iterative units busy. -/
def State.launched (s : State) (us : List Nat) (fs : List Flight) : State :=
  (({ s with iss := Issue.idle } : State).busyUnits us).setCtx s.cur { s.me.passed s.iss.pc s.fallThrough with fl := fs }

/-- A plain result of the slot in issue, in flight with its latency, or interlocked (04 R62, R63). -/
def State.flight (s : State) (lat : Nat) (ilk : Bool) (r : Res) : Flight :=
  ⟨r, s.me.bseq + lat, ilk, s.me.bseq, s.iss.slot, none, [], none, 0, none, 0, []⟩

/-- The state after a bundle of one slot that writes one register at once (latency 1), and nothing else. -/
def State.wrote (s : State) (r : Res) : State := s.after ((s.me.passed s.iss.pc s.fallThrough).put r)

/-- The state after a bundle of one slot that writes several registers at once, in order. -/
def State.wroteAll (s : State) (rs : List Res) : State := s.after (rs.foldl Ctx.put (s.me.passed s.iss.pc s.fallThrough))

/-- The state after a bundle of one slot that transfers, or is a transfer that does not, and writes registers at once;
`w` is the word that classes 1 and 2 fold (04 R75). -/
def State.went (s : State) (rs : List Res) (target : Option Word) (w : Word) : State :=
  s.after (rs.foldl Ctx.put ((s.me.passed s.iss.pc s.fallThrough).jumped target w))

/-- The state after a bundle of one slot that does nothing. -/
def State.skipped (s : State) : State := s.after (s.me.passed s.iss.pc s.fallThrough)

/-- The entry that a slot makes, its granules 0 where it merges with the entry before it (15 R321). -/
def State.entry (s : State) (op : EntOp) (gran : Nat) (block : Option Nat) (path : Nat) (folds : List Word) : Entry :=
  let e : Entry := ⟨op, s.me.openId, gran, s.me.bseq, s.iss.pc, s.iss.slot, block, path, folds.headD 0⟩
  { e with gran := s.me.granOf e }

/-- The context after a bundle of one slot that puts one entry into the store containment buffer: in classes 1 and 2 its
words are folded into SIGLO (15 R321, R325). -/
def State.entering (s : State) (op : EntOp) (gran : Nat) (block : Option Nat) (path : Nat) (folds : List Word) : Ctx :=
  let c := s.me.passed s.iss.pc s.fallThrough
  { c with
    scb := c.scb ++ [s.entry op gran block path folds]
    siglo := if 1 ≤ c.pcls then sigFolds c.siglo folds else c.siglo }

/-- The state after a bundle of one slot that puts one entry into the buffer, and nothing else. -/
def State.entered (s : State) (op : EntOp) (gran : Nat) (block : Option Nat) (path : Nat) (folds : List Word) : State :=
  s.after (s.entering op gran block path folds)

/-- The state after a bundle of one slot that puts one entry into the buffer and leaves work for its end. -/
def State.enteredEnds (s : State) (op : EntOp) (gran : Nat) (block : Option Nat) (path : Nat) (folds : List Word)
    (work : List Tail) : State :=
  (s.after { s.entering op gran block path folds with todo := work }).settle s.cur

/-- The buffer has room for the entry of a slot (15 R322). -/
def State.roomFor (s : State) (op : EntOp) (gran : Nat) (block : Option Nat) (path : Nat) (folds : List Word) : Prop :=
  s.scbRoom s.cur (s.entry op gran block path folds).gran = true

/-- A load overlaps no synchronisation operation that its context holds and meets no poison, and no memory unit holds it back
(06 R101; 12 R251; 17 R368). -/
def State.loadClean (s : State) (ld : Load) : Prop :=
  s.me.overlapsSync ld = false ∧
    ∀ m ∈ ld.marks, s.meetsPoison s.cur m.1 m.2.1 = none ∧ s.holdsBack (.read s.cur s.me.bseq) m.1 = false

/-- A load that leaves the own LSP reaches the homes of its bytes: each access is counted there (17 R375). -/
def State.touched (s : State) (ld : Load) : State := s.countReads s.cur (ld.marks.map (·.1))

/-- The state after a bundle of one load: its result, as the context sees memory, in flight; an interlocked load reaches the
homes of its bytes. -/
def State.loaded (s : State) (lat : Nat) (ilk : Bool) (ld : Load) : State :=
  (if ilk then s.touched ld else s).launched [] [s.flight lat ilk (ld.res (s.gatherOwn s.cur ld.parts))]

/-- The work at the end of a checkpoint bundle of a returning operation (04 R64; 15 R319, R337): what is in flight lands,
the interval closes, agrees and is released, then `mid`, and the copy of the registers opens the next. -/
def returnWork (pc : Word) (mid : List Tail) : List Tail :=
  [.land, .wound pc, .close, .agree] ++ mid ++ [.copy, .due pc]

/-- A result of a V slot in flight: it carries the flags and the exception counts of its elements, and what classes 1 and
2 fold when it lands; an interlocked one holds the iterative unit of its pipe until then (08 R152, R158, R159, R175). -/
def State.vFlight (s : State) (lat : Nat) (ilk : Bool) (op : Nat) (r : Res) (els : List El) : Flight :=
  ⟨r, s.me.bseq + lat, ilk, s.me.bseq, s.iss.slot, none, [], some op, s.iss.unit, if ilk then some s.iss.unit else none, orFlags (els.map (·.flags)),
    excCounts s.me.excTid (els.flatMap (·.exc))⟩

/-- The state after a V slot whose result is not computed by active elements (08 R152). -/
def State.vWhole (s : State) (lat op : Nat) (r : Res) (els : List El) : State := s.launched [] [s.vFlight lat false op r els]

/-- The iterative units that an interlocked V slot takes: that of its pipe, in class 1 of both (08 R152, R174). -/
def State.vUnits (s : State) : List Nat := if s.me.pcls = 1 then [s.iss.unit, otherPipe s.iss.unit] else [s.iss.unit]

/-- The iterative units of an interlocked V slot are free. -/
def State.unitsFree (s : State) : Prop := ∀ u ∈ s.vUnits, (s.core (coreOf s.cur)).iter.contains u = false

/-- The result of a V slot computed element by element: the active elements as `f` gives them, the others zero under ZI,
else kept (08 R151). -/
def State.vResult (s : State) (d : BitVec 5) (md : Option (BitVec 28)) (w : Nat) (f : Nat → El) : Res × List El :=
  let m := Mod.of md
  let els := elsOf w (s.me.lanes m) f
  let r := elemRes w (s.me.lanes m) m.zi els
  (.v d.toNat r.1 r.2, els)

/-- The state after a V slot whose result, computed element by element, is exposed (08 R152). -/
def State.vDone (s : State) (d : BitVec 5) (md : Option (BitVec 28)) (op w lat : Nat) (f : Nat → El) : State :=
  s.vWhole lat op (s.vResult d md w f).1 (s.vResult d md w f).2

/-- The state after a V slot whose result, computed element by element, is interlocked, with the cycles of its operation (08 R152). -/
def State.vIlkDone (s : State) (d : BitVec 5) (md : Option (BitVec 28)) (op w : Nat) (f : Nat → El) : State :=
  s.launched s.vUnits [s.vFlight (iterCycles op w) true op (s.vResult d md w f).1 (s.vResult d md w f).2]

/-- An X operation of the slot in issue waits for nothing, its reads of memory follow nothing that is still to be performed, and no
memory unit holds them back (07 R129, R139; 10 R196, R212, R214; 17 R364 to R368). -/
def State.engineFree (s : State) (r : XReq) : Prop :=
  s.mxWaits s.cur r.op r.ds r.rows = none ∧
    ((mxReadPath r.op).isSome = true → s.mxBehind s.cur r = false ∧ s.mxHeld s.cur r = none)

/-- The operation that an X slot starts: when its part is free again and when it lands, in engine steps (10 R221). -/
def State.mxOp (s : State) (r : XReq) (land : Option Nat) (eff : MxEff) (landed : Bool) : MxOp :=
  ⟨r, mxPart r.op, s.me.mstep + mxBusy r.op r.rows.length r.cfg, land.map (s.me.mstep + ·), eff, landed, []⟩

/-- The state after a bundle of one X slot whose operation starts: the operation is in flight, the chain that is open records it,
and the accesses of its reads are counted at their homes (10 R207, R221; 17 R375). -/
def State.engaged (s : State) (r : XReq) (land : Option Nat) (eff : MxEff) : State :=
  let c := s.me.chainStep r
  (s.countReads s.cur (r.reads.map (·.1))).after
    (({ c with mx := [s.mxOp r land eff false] } : Ctx).passed s.iss.pc s.fallThrough)

/-- The state in which an XACCST or XEPI has taken its rows: the operation holds its part, the exceptions of its results
are counted, and the output stage holds one payload more (10 R214, R215). -/
def State.staged (s : State) (r : XReq) (excs : List Nat) : State :=
  let counted := excs.foldl (fun s e => s.countExc s.cur (4 * s.me.excTid + e, 1))
    (s.setMe { s.me with mx := [s.mxOp r none (.chk false) true] })
  let k := counted.core (coreOf s.cur)
  counted.setCore (coreOf s.cur) { k with outst := k.outst + 1 }

/-- What a value that class 2 shares becomes: the primary hands its own to the secondary, which takes what it has been
handed under the next number, or waits for it; in the other classes nothing is shared (15 R317). -/
def State.given (s : State) (x : Word) : Option (State × Word) :=
  if s.me.pcls ≠ 2 then some (s, x)
  else if s.me.second then
    match s.me.delivered 0 with
    | none => none
    | some y => some (s.setMe { s.me with shared := s.me.shared + 1 }, y.truncate 64)
  else some (s.shareTwin s.cur (x.zeroExtend 128), x)

/-- A class 0 task with nothing held: its buffer is empty, its one interval is open and has counted nothing, it has no
twin, no wound, no shadow frame and no recovery under way. Its checkpoints wait for nothing (15 R318, R319, R326). -/
structure State.plain (s : State) : Prop where
  /-- Class 0. -/
  cls : s.me.pcls = 0
  /-- No twin. -/
  twin : s.me.twin = none
  /-- No wound is pending. -/
  wound : s.me.wndp = false
  /-- Nothing is held. -/
  scb : s.me.scb = []
  /-- Nothing is on its way to its home. -/
  flying : s.me.flying = []
  /-- No value of a twin waits to be taken. -/
  deliver : s.me.deliver = []
  /-- No recovery. -/
  recov : s.me.recov = .none
  /-- No shadow frame. -/
  frames : s.shadowsOf s.cur (fun _ => true) = []
  /-- One open interval. -/
  iv : ∃ iv, s.me.ivs = [iv] ∧ iv.agreed = false ∧ iv.excs = [] ∧ iv.removed = 0

/-- A plain context after a checkpoint: its interval has closed and agreed, and the copy of its registers opens the next
(15 R318, R319). -/
def Ctx.checkpointed (c : Ctx) : Ctx :=
  { c with
    ivs := [{ Interval.fresh c.nextIv c.r with shared := c.shared }], nextIv := c.nextIv + 1, opened := c.bseq
    siglo := 0, sighi := 0, cap := (0, 0), replay := 0, wndAt := c.wndAt - 1 }

/-- The work at the end of a checkpoint bundle that goes on at once (15 R319, R337), then what `more` says. -/
def ckptWork (pc : Word) (more : List Tail) : List Tail := [.land, .wound pc, .close, .copy] ++ more ++ [.due pc]

/-- The word of the handler table for a cause (16 R343). -/
def State.handler (s : State) (cause : Nat) : Except Nat Nat := s.devWord s.me.space (s.me.htb.toNat + 8 * cause)

/-- What stays as it was in a context whose only change is the register `r`: every other register, the control and trap
registers that an instruction does not write, and the class, mode and allocation of its task. -/
def Ctx.sameBut (c d : Ctx) (r : RegId) : Prop :=
  (∀ i, r ≠ .s i → d.r.rs i = c.r.rs i) ∧ (∀ i, r ≠ .p i → d.r.p.getLsbD i = c.r.p.getLsbD i) ∧
    (∀ i, r ≠ .v i → d.r.rv i = c.r.rv i) ∧ (∀ i, r ≠ .l i → d.r.rl i = c.r.rl i) ∧
    (∀ i, r ≠ .q i → d.r.rq i = c.r.rq i) ∧ (∀ i, r ≠ .n i → d.r.rn i = c.r.rn i) ∧
    (∀ i, r ≠ .h i → d.r.rh i = c.r.rh i) ∧ (r ≠ .f → d.r.f = c.r.f) ∧
    d.r.stgb = c.r.stgb ∧ d.r.vrnd = c.r.vrnd ∧ d.r.vflg = c.r.vflg ∧ d.r.mxcfg = c.r.mxcfg ∧ d.r.extid = c.r.extid ∧
    d.r.ovfp = c.r.ovfp ∧ d.hnd = c.hnd ∧ d.pcls = c.pcls ∧ d.trapc = c.trapc ∧ d.trappc = c.trappc ∧
    d.trapsl = c.trapsl ∧ d.faultva = c.faultva ∧ d.faultn = c.faultn ∧ d.faultn1 = c.faultn1 ∧ d.faultn2 = c.faultn2 ∧
    d.stepno = c.stepno ∧ d.siglo = c.siglo ∧ d.sighi = c.sighi ∧ d.runlim = c.runlim ∧ d.prio = c.prio ∧
    d.scb = c.scb ∧ d.ivs = c.ivs ∧ d.tcopy = c.tcopy

/-- What a slot leaves as it was when it writes at most the register `r` of its context: every other context, every core
but the iterative units of its own, all of memory byte by byte, and every other unit of the package. -/
def State.frame (s t : State) (r : RegId) : Prop :=
  s.me.sameBut (t.ctx s.cur) r ∧ (∀ g, g ≠ s.cur → t.ctx g = s.ctx g) ∧
    (∀ k, { t.core k with iter := [] } = { s.core k with iter := [] }) ∧
    (∀ a, memGet t.mem a = memGet s.mem a) ∧ t.poison = s.poison ∧ t.clusters = s.clusters ∧ t.spcs = s.spcs ∧
    t.lkms = s.lkms ∧ t.iocs = s.iocs ∧ t.slots = s.slots ∧ t.kernels = s.kernels ∧ t.cmds = s.cmds ∧ t.subs = s.subs ∧
    t.spill = s.spill ∧ t.units = s.units ∧ t.msc = s.msc ∧ t.links = s.links ∧ t.saved = s.saved

end Sys2Proof.Machine
end

