-- ==== Sys2Proof/Certificates/Slice0/Obligations.lean ====
section
/-! DEFINITION. The statements about the model, for the provers. Each names the rule of the manual that it states. A
bundle of one slot with nothing else of its context under way is what `State.alone` says; `State.ready` says that the
slot executes normally. -/

open Sys2Proof Sys2Proof.Machine

/-! ### Scalar instructions -/

/-- R87: the scalar results of three operands, with an immediate (KImm as R45 gives it) and of the bit counts, each by
what it counts, and SEL: written with latency 1 (R83), and nothing else changed. -/
def Obligations.ScalarArithmetic : Prop :=
  (∀ (s : State) (h : Head) (d a b : BitVec 5), s.alone → s.ready h [rS d, rS a, rS b] →
      let x := s.me.s a
      let y := s.me.s b
      exec (.add h d a b) s = .next (s.wrote (.s d.toNat (x + y))) ∧
      exec (.sub h d a b) s = .next (s.wrote (.s d.toNat (x - y))) ∧
      exec (.and h d a b) s = .next (s.wrote (.s d.toNat (x &&& y))) ∧
      exec (.or h d a b) s = .next (s.wrote (.s d.toNat (x ||| y))) ∧
      exec (.xor h d a b) s = .next (s.wrote (.s d.toNat (x ^^^ y))) ∧
      exec (.andn h d a b) s = .next (s.wrote (.s d.toNat (x &&& ~~~y))) ∧
      exec (.shl h d a b) s = .next (s.wrote (.s d.toNat (x <<< (y.toNat % 64)))) ∧
      exec (.shr h d a b) s = .next (s.wrote (.s d.toNat (x >>> (y.toNat % 64)))) ∧
      exec (.sra h d a b) s = .next (s.wrote (.s d.toNat (x.sshiftRight (y.toNat % 64)))) ∧
      exec (.rotl h d a b) s =
        .next (s.wrote (.s d.toNat ((x <<< (y.toNat % 64)) ||| (x >>> (64 - y.toNat % 64))))) ∧
      exec (.min h d a b) s = .next (s.wrote (.s d.toNat (BitVec.ofInt 64 (min x.toInt y.toInt)))) ∧
      exec (.max h d a b) s = .next (s.wrote (.s d.toNat (BitVec.ofInt 64 (max x.toInt y.toInt)))) ∧
      exec (.minn h d a b) s = .next (s.wrote (.s d.toNat (BitVec.ofNat 64 (min x.toNat y.toNat)))) ∧
      exec (.maxn h d a b) s = .next (s.wrote (.s d.toNat (BitVec.ofNat 64 (max x.toNat y.toNat))))) ∧
  (∀ (s : State) (h : Head) (d a : BitVec 5) (i : BitVec 7) (ks : List (BitVec 28)), s.alone →
      s.ready h [rS d, rS a] →
      let x := s.me.s a
      exec (.addi h d a i ks) s = .next (s.wrote (.s d.toNat (x + kImm i.toNat 7 ks))) ∧
      exec (.andi h d a i ks) s = .next (s.wrote (.s d.toNat (x &&& kImm i.toNat 7 ks))) ∧
      exec (.ori h d a i ks) s = .next (s.wrote (.s d.toNat (x ||| kImm i.toNat 7 ks))) ∧
      exec (.xori h d a i ks) s = .next (s.wrote (.s d.toNat (x ^^^ kImm i.toNat 7 ks))) ∧
      exec (.shli h d a i) s = .next (s.wrote (.s d.toNat (x <<< i.toNat))) ∧
      exec (.shri h d a i) s = .next (s.wrote (.s d.toNat (x >>> i.toNat))) ∧
      exec (.srai h d a i) s = .next (s.wrote (.s d.toNat (x.sshiftRight i.toNat))) ∧
      (1 ≤ i.toNat → i.toNat ≤ 64 →
        exec (.sext h d a i) s = .next (s.wrote (.s d.toNat (BitVec.ofInt 64 (Int.bmod x.toNat (2 ^ i.toNat)))))) ∧
      exec (.zext h d a i) s = .next (s.wrote (.s d.toNat (BitVec.ofNat 64 (x.toNat % 2 ^ i.toNat))))) ∧
  (∀ (s : State) (h : Head) (d a : BitVec 5), s.alone →
      (s.ready h [rS d, rS a] →
        let x := s.me.s a
        (∃ n, exec (.clz h d a) s = .next (s.wrote (.s d.toNat (BitVec.ofNat 64 n))) ∧ n ≤ 64 ∧ x.toNat < 2 ^ (64 - n) ∧
          (n < 64 → 2 ^ (63 - n) ≤ x.toNat)) ∧
        (∃ n, exec (.ctz h d a) s = .next (s.wrote (.s d.toNat (BitVec.ofNat 64 n))) ∧ n ≤ 64 ∧
          (∀ i, i < n → x.getLsbD i = false) ∧ (n < 64 → x.getLsbD n = true)) ∧
        exec (.popc h d a) s =
          .next (s.wrote (.s d.toNat (BitVec.ofNat 64 ((List.range 64).filter fun i => x.getLsbD i).length)))) ∧
      ∀ (b : BitVec 5) (m : BitVec 2), s.ready h [rS d, rS a, rS b, .p (4 + m.toNat)] →
        exec (.sel h d a b m) s =
          .next (s.wrote (.s d.toNat (if s.me.r.readPred (4 + m.toNat) then s.me.s a else s.me.s b))))

/-- R90 and R93: bit fields and immediate moves. -/
def Obligations.ScalarFields : Prop :=
  ∀ (s : State) (h : Head) (d : BitVec 5), s.alone →
    (∀ (a b : BitVec 5), s.ready h [rS d, rS a, rS b] →
      let x := s.me.s a
      let pos := (s.me.s b).toNat % 64
      let len := min ((s.me.s b).toNat / 256 % 128) (64 - pos)
      let v : Word := BitVec.ofNat 64 (x.toNat / 2 ^ pos % 2 ^ len)
      let mask : Word := BitVec.ofNat 64 ((2 ^ len - 1) * 2 ^ pos)
      exec (.bfx h d a b 0) s = .next (s.wrote (.s d.toNat v)) ∧
      (len = 0 → exec (.bfx h d a b 1) s = .next (s.wrote (.s d.toNat 0))) ∧
      (0 < len → exec (.bfx h d a b 1) s = .next (s.wrote (.s d.toNat (BitVec.ofInt 64 (Int.bmod v.toNat (2 ^ len)))))) ∧
      exec (.bfi h d a b) s = .next (s.wrote (.s d.toNat ((s.me.s d &&& ~~~mask) ||| ((x <<< pos) &&& mask))))) ∧
    ∀ (i : BitVec 12) (ks : List (BitVec 28)), s.ready h [rS d] →
      exec (.movi h d i ks) s = .next (s.wrote (.s d.toNat (kImm i.toNat 12 ks))) ∧
      exec (.movhi h d i ks) s =
        .next (s.wrote (.s d.toNat
          (BitVec.ofNat 64 ((s.me.s d).toNat % 2 ^ 32 + (kImm i.toNat 12 ks).toNat % 2 ^ 32 * 2 ^ 32))))

/-- R91 and R92: compares and predicate operations write the physical predicate that the field names at issue (R84). -/
def Obligations.ScalarPredicates : Prop :=
  ∀ (s : State) (h : Head) (d a b : BitVec 5), s.alone →
    let p := s.me.r.physPred d.toNat
    let x := s.me.s a
    let y := s.me.s b
    let comb := fun (m : BitVec 2) (t : Bool) => if m = 0 then t else if m = 1 then t && s.me.pr d else t || s.me.pr d
    (s.ready h [s.me.rP d, rS a, rS b] → ∀ m : BitVec 2,
      exec (.cmpeq h d a b m) s = .next (s.wrote (.p p (comb m (x == y)))) ∧
      exec (.cmpne h d a b m) s = .next (s.wrote (.p p (comb m (x != y)))) ∧
      exec (.cmplt h d a b m) s = .next (s.wrote (.p p (comb m (decide (x.toInt < y.toInt))))) ∧
      exec (.cmpltn h d a b m) s = .next (s.wrote (.p p (comb m (decide (x.toNat < y.toNat))))) ∧
      exec (.cmpge h d a b m) s = .next (s.wrote (.p p (comb m (decide (y.toInt ≤ x.toInt))))) ∧
      exec (.cmpgen h d a b m) s = .next (s.wrote (.p p (comb m (decide (y.toNat ≤ x.toNat)))))) ∧
    (s.ready h [s.me.rP d, rS a] → ∀ (i : BitVec 7) (ks : List (BitVec 28)),
      exec (.cmpeqi h d a i ks) s = .next (s.wrote (.p p (x == kImm i.toNat 7 ks))) ∧
      exec (.cmplti h d a i ks) s = .next (s.wrote (.p p (decide (x.toInt < (kImm i.toNat 7 ks).toInt))))) ∧
    (s.ready h [s.me.rP d, s.me.rP a, s.me.rP b] →
      exec (.pand h d a b) s = .next (s.wrote (.p p (s.me.pr a && s.me.pr b))) ∧
      exec (.por h d a b) s = .next (s.wrote (.p p (s.me.pr a || s.me.pr b))) ∧
      exec (.pxor h d a b) s = .next (s.wrote (.p p (xor (s.me.pr a) (s.me.pr b)))) ∧
      exec (.pandn h d a b) s = .next (s.wrote (.p p (s.me.pr a && !s.me.pr b)))) ∧
    (s.ready h [s.me.rP d, s.me.rP a] → ∀ m : BitVec 2,
      exec (.pmov h d a m) s = .next (s.wrote (.p p (if m = 1 then !s.me.pr a else s.me.pr a))))

/-- R88: products, which land three bundles after issue (R83). -/
def Obligations.ScalarProducts : Prop :=
  ∀ (s : State) (h : Head) (d a b : BitVec 5), s.alone → s.ready h [rS d, rS a, rS b] →
    let x := s.me.s a
    let y := s.me.s b
    let wide := x.signExtend 128 * y.signExtend 128
    let wideN := x.zeroExtend 128 * y.zeroExtend 128
    exec (.mul h d a b) s = .next (s.launched [] [s.flight 3 false (.s d.toNat (wide.extractLsb' 0 64))]) ∧
    exec (.mulh h d a b) s = .next (s.launched [] [s.flight 3 false (.s d.toNat (wide.extractLsb' 64 64))]) ∧
    exec (.mulhn h d a b) s = .next (s.launched [] [s.flight 3 false (.s d.toNat (wideN.extractLsb' 64 64))]) ∧
    exec (.madd h d a b) s =
      .next (s.launched [] [s.flight 3 false (.s d.toNat (s.me.s d + wide.extractLsb' 0 64))]) ∧
    wide.extractLsb' 0 64 = x * y ∧ wideN.extractLsb' 0 64 = x * y

/-- R89: divisions never trap: a zero divisor gives all ones and the dividend, the signed forms truncate toward zero,
the most negative number by −1 wraps. The result is interlocked and takes the divider of its unit (R83). -/
def Obligations.ScalarDivision : Prop :=
  ∀ (s : State) (h : Head) (d a b : BitVec 5), s.alone → s.ready h [rS d, rS a, rS b] →
    (s.core (coreOf s.cur)).iter.contains s.iss.unit = false →
    let x := s.me.s a
    let y := s.me.s b
    let res := fun v : Word => s.launched [s.iss.unit] [s.flight 0 true (.s d.toNat v)]
    (y = 0 →
      exec (.div h d a b) s = .next (res (BitVec.ofNat 64 (2 ^ 64 - 1))) ∧
      exec (.divn h d a b) s = .next (res (BitVec.ofNat 64 (2 ^ 64 - 1))) ∧
      exec (.rem h d a b) s = .next (res x) ∧ exec (.remn h d a b) s = .next (res x)) ∧
    (y ≠ 0 →
      exec (.divn h d a b) s = .next (res (BitVec.ofNat 64 (x.toNat / y.toNat))) ∧
      exec (.remn h d a b) s = .next (res (BitVec.ofNat 64 (x.toNat % y.toNat))) ∧
      (x.toInt = -2 ^ 63 ∧ y.toInt = -1 →
        exec (.div h d a b) s = .next (res (BitVec.ofNat 64 (2 ^ 63))) ∧ exec (.rem h d a b) s = .next (res 0)) ∧
      (¬(x.toInt = -2 ^ 63 ∧ y.toInt = -1) → ∃ q r : Int, x.toInt = q * y.toInt + r ∧ |r| < |y.toInt| ∧
        0 ≤ r * x.toInt ∧ exec (.div h d a b) s = .next (res (BitVec.ofInt 64 q)) ∧
        exec (.rem h d a b) s = .next (res (BitVec.ofInt 64 r))))

/-- R94: the fields of a handle that NSET writes, NGET returns and NADV advances, on the layout of R39; the result of
NADV keeps everything but the coordinates. None of them checks anything. -/
def Obligations.HandleFields : Prop :=
  ∀ (s : State) (h : Head) (d a : BitVec 5), s.alone →
    (s.ready h [.n d.toNat, rS a] →
      let x := (s.me.s a).toNat
      let put := fun m v : Nat => s.wrote (.n d.toNat (BitVec.ofNat 256 m) (BitVec.ofNat 256 v))
      exec (.nset h d a 0) s = .next (put (2 ^ 20 - 1 + 7 * 2 ^ 23) (x % 2 ^ 20 + x / 2 ^ 20 % 8 * 2 ^ 23)) ∧
      exec (.nset h d a 1) s = .next (put ((2 ^ 64 - 1) * 2 ^ 96) (x * 2 ^ 96)) ∧
      exec (.nset h d a 2) s = .next (put ((2 ^ 64 - 1) * 2 ^ 160) (x * 2 ^ 160)) ∧
      exec (.nset h d a 3) s = .next (put ((2 ^ 32 - 1) * 2 ^ 224) (x % 2 ^ 32 * 2 ^ 224)) ∧
      let n := (s.me.r.rn d.toNat).toNat
      let coord := fun v j : Nat => v / 2 ^ (96 + 32 * j) % 2 ^ 32
      ∀ i : BitVec 7, i.toNat < 4 → ∃ v : BitVec 256,
        exec (.nadv h d a i) s = .next (s.wrote (.n d.toNat (BitVec.allOnes 256) v)) ∧
        v.toNat % 2 ^ 96 = n % 2 ^ 96 ∧ v.toNat / 2 ^ 224 = n / 2 ^ 224 ∧
        ∀ j, j < 4 → coord v.toNat j =
          (coord n j + (if j = 0 then n / 2 ^ 224 else 0) + (if j = i.toNat then x % 2 ^ 32 else 0)) % 2 ^ 32) ∧
    (s.ready h [rS d, .n a.toNat] →
      let n := (s.me.r.rn a.toNat).toNat
      let res := fun v : Nat => s.wrote (.s d.toNat (BitVec.ofNat 64 v))
      exec (.nget h d a 0) s = .next (res (n % 2 ^ 20 + n / 2 ^ 23 % 8 * 2 ^ 20)) ∧
      exec (.nget h d a 1) s = .next (res (n / 2 ^ 96 % 2 ^ 64)) ∧
      exec (.nget h d a 2) s = .next (res (n / 2 ^ 160 % 2 ^ 64)) ∧
      exec (.nget h d a 3) s = .next (res (n / 2 ^ 224 % 2 ^ 32)))

/-- R95: CNTRD outside class 2, and in class 2 where the primary samples: the value is the primary's, its twin receives
it, and the result is interlocked. That the primary, which R316 puts in domain A or B, is the sampler is read from R95 and
R316 together (log 33). That selector 1 does not count the bundle of its CNTRD is the model's choice (log 61). -/
def Obligations.CounterReads : Prop :=
  (∀ (s : State) (h : Head) (d : BitVec 5), s.alone → s.ready h [rS d] →
      let count := fun i : Nat =>
        if i = 0 then BitVec.ofNat 64 s.cycles else if i = 1 then s.me.cntB else if i = 2 then BitVec.ofNat 64 s.now
        else if i = 3 then BitVec.ofNat 64 s.me.run else s.me.cntS
      ∀ i : BitVec 7, i.toNat < 5 →
        (s.me.pcls ≠ 2 → exec (.cntrd h d i) s = .next (s.wrote (.s d.toNat (count i.toNat)))) ∧
        ∀ w, s.me.pcls = 2 → s.me.second = false → s.me.twin = some w → w ≠ s.cur →
          ∃ t, exec (.cntrd h d i) s = .next t ∧
            (t.ctx w).deliver = (s.ctx w).deliver.set s.me.shareKey ((count i.toNat).zeroExtend 128) ∧
            t.ctx s.cur = { s.me.passed s.iss.pc s.fallThrough with
              fl := [s.flight 0 true (.s d.toNat (count i.toNat))], shared := s.me.shared + 1 })

/-- R96: the special moves, each field of its width; the predicates go through the rotation of R84, s0, p0 and l0 as R37
says. A word whose unused register field is not zero is no instruction. -/
def Obligations.SpecialMoves : Prop :=
  (∀ (s : State) (h : Head) (d a : BitVec 5), s.alone →
      let x := (s.me.s a).toNat
      (s.ready h [rS d, .f] → exec (.movsSFromF h d) s = .next (s.wrote (.s d.toNat (BitVec.ofNat 64 s.me.r.f.toNat)))) ∧
      (s.ready h [.f, rS a] →
        exec (.movsFFromS h a) s = .next (s.wrote (.f (BitVec.allOnes 17) (BitVec.ofNat 17 (x % 2 ^ 17))))) ∧
      (s.ready h (rS d :: (List.range 16).map .p) → ∃ v : Word, exec (.movsSFromP h d) s = .next (s.wrote (.s d.toNat v)) ∧
        ∀ i, v.getLsbD i = (decide (i < 16) && s.me.r.readPred i)) ∧
      (s.ready h (rS a :: (List.range 16).map .p) →
        exec (.movsPFromS h a) s =
          .next (s.wroteAll ((List.range 15).map fun i =>
            .p (s.me.r.physPred (i + 1)) ((s.me.s a).getLsbD (i + 1))))) ∧
      (s.ready h [rS d, .l a.toNat] →
        let l := (s.me.r.rl a.toNat).toNat
        exec (.movsSFromLLo h d a) s = .next (s.wrote (.s d.toNat (BitVec.ofNat 64 (l % 2 ^ 64)))) ∧
        exec (.movsSFromLHi h d a) s = .next (s.wrote (.s d.toNat (BitVec.ofNat 64 (l / 2 ^ 64))))) ∧
      (s.ready h [.l d.toNat, rS a] →
        exec (.movsLLoFromS h d a) s =
          .next (s.wrote (.l d.toNat (BitVec.ofNat 128 (2 ^ 64 - 1)) (BitVec.ofNat 128 x))) ∧
        exec (.movsLHiFromS h d a) s =
          .next (s.wrote (.l d.toNat (BitVec.ofNat 128 ((2 ^ 64 - 1) * 2 ^ 64)) (BitVec.ofNat 128 (x * 2 ^ 64)))))) ∧
  ∀ (w : Nat) (ks : List (BitVec 28)), bits w 28 3 = 1 → bits w 22 6 = 57 →
    (bits w 0 7 = 0 ∨ bits w 0 7 = 2 → bits w 7 5 ≠ 0 → decodeSlot w ks = none) ∧
    (bits w 0 7 = 1 ∨ bits w 0 7 = 3 → bits w 12 5 ≠ 0 → decodeSlot w ks = none) ∧
    (7 < bits w 0 7 → decodeSlot w ks = none)

/-! ### Sequencing -/

/-- R73, R75: branches and calls with a true guard: the target, the link, the word that classes 1 and 2 fold, and
MISALIGN with the target as FAULTVA where it is not a multiple of 4. -/
def Obligations.Branches : Prop :=
  ∀ (s : State) (h : Head) (a : BitVec 5) (j : BitVec 17) (i : BitVec 7) (ks : List (BitVec 28)), s.alone →
    let b := s.iss.pc
    let next := b + BitVec.ofNat 64 (4 * s.iss.n)
    let rel := b + 4 * kImm j.toNat 17 ks
    let ind := s.me.s a + 4 * signExt i.toNat 7
    let misalign := fun t : Word => s.trapped ⟨0x08, 0, b, s.iss.slot, t, 0, 0, 0, .handler⟩
    (s.ready h [] →
      exec (.br h j ks) s = .next (if rel.toNat % 4 = 0 then s.went [] (some rel) rel else misalign rel)) ∧
    (s.ready h [rS a] →
      exec (.bri h a i) s = .next (if ind.toNat % 4 = 0 then s.went [] (some ind) ind else misalign ind)) ∧
    (s.ready h [.s 31] →
      exec (.call h j ks) s = .next (if rel.toNat % 4 = 0 then s.went [.s 31 next] (some rel) rel else misalign rel) ∧
      let t := s.me.r.rs 31
      exec (.ret h) s = .next (if t.toNat % 4 = 0 then s.went [] (some t) t else misalign t)) ∧
    (s.ready h [rS a, .s 31] →
      exec (.calli h a i) s = .next (if ind.toNat % 4 = 0 then s.went [.s 31 next] (some ind) ind else misalign ind))

/-- R76, R77: the counter word, the stage base and the stage predicates of LOOPI and LOOPB, and whether LOOPB is
taken. -/
def Obligations.Loops : Prop :=
  ∀ (s : State) (h : Head) (d a : BitVec 5) (i : BitVec 7) (ks : List (BitVec 28)), s.alone →
    (s.ready h [rS d, rS a] →
      let t := if (s.me.s a).toInt < 0 then 0 else min (s.me.s a).toNat (2 ^ 48 - 1)
      exec (.loopi h d a i) s =
        .next (s.wroteAll ([.s d.toNat (BitVec.ofNat 64 (i.toNat * 2 ^ 48 + t)), .stgb 0, .p 8 (decide (0 < t))] ++
          [9, 10, 11, 12, 13, 14, 15].map fun k => .p k false))) ∧
    (s.ready h [rS d] →
      let c := (s.me.s d).toNat % 2 ^ 48
      let e := (s.me.s d).toNat / 2 ^ 48 % 8
      let base : BitVec 3 := s.me.r.stgb - 1
      let target := s.iss.pc + 4 * kImm i.toNat 7 ks
      let puts := fun (c e : Nat) (stage0 : Bool) =>
        [.s d.toNat (BitVec.ofNat 64 (e * 2 ^ 48 + c)), .stgb base, .p (8 + base.toNat) stage0]
      (target.toNat % 4 = 0 → 1 < c → exec (.loopb h d i ks) s = .next (s.went (puts (c - 1) e true) (some target) target)) ∧
      (target.toNat % 4 = 0 → c ≤ 1 → 0 < e →
        exec (.loopb h d i ks) s = .next (s.went (puts 0 (e - 1) false) (some target) target)) ∧
      (target.toNat % 4 ≠ 0 → 1 < c ∨ 0 < e →
        exec (.loopb h d i ks) s = .next (s.trapped ⟨0x08, 0, s.iss.pc, s.iss.slot, target, 0, 0, 0, .handler⟩)) ∧
      (c ≤ 1 → e = 0 → exec (.loopb h d i ks) s = .next (s.went (puts 0 0 false) none s.fallThrough)))

/-- R28: a NOP has no effect: the bundle is counted and the fall-through bundle follows. Its words are those of OP 0 with
every other field zero, with or without the bit that ends a bundle; OP 0 with another field set is no instruction. -/
def Obligations.NoOperations : Prop :=
  (∀ s : State, s.alone →
    exec .nopC s = .next s.skipped ∧ exec .nopS s = .next s.skipped ∧ exec .nopM s = .next s.skipped ∧
    exec .nopV s = .next s.skipped ∧ exec .nopX s = .next s.skipped ∧ exec .nopQ s = .next s.skipped ∧
    exec .nopG s = .next s.skipped) ∧
  ∀ (w : Nat) (ks : List (BitVec 28)),
    (∀ (x : Nat) (i : Instr), (x, i) ∈ [(0x00000000, .nopC), (0x10000000, .nopS), (0x20000000, .nopM), (0x30000000, .nopV),
        (0x40000000, .nopX), (0x50000000, .nopQ), (0x60000000, .nopG)] →
      w % 2 ^ 31 = x → (decodeSlot w ks).map (·.1) = some i) ∧
    (bits w 28 3 < 7 → bits w 22 6 = 0 → bits w 0 22 ≠ 0 → decodeSlot w ks = none)

/-! ### Every slot -/

/-- R29, R35, R75, R189: a slot whose guard is false has no effect, a duplicate among them; only a transfer folds the
fall-through address, and an LX slot takes the iterative unit of its pipe all the same. -/
def Obligations.FalseGuards : Prop :=
  ∀ (i : Instr) (s : State), s.alone → slotWord i ≠ 0 → s.guardFalse (headOfInstr i) →
    let transfers : Bool := match i with
      | .br _ _ _ | .bri _ _ _ | .call _ _ _ | .calli _ _ _ | .ret _ | .loopb _ _ _ _ => true
      | _ => false
    let lx : Bool := match i with
      | .lxadd _ _ _ _ _ _ | .lxsub _ _ _ _ _ _ | .lxmul _ _ _ _ _ _ | .lxdiv _ _ _ _ _ _ | .lxcvt _ _ _ _ _ _ _
      | .lxcmp _ _ _ _ _ _ | .lxsum _ _ _ _ _ | .lxln _ _ _ _ _ => true
      | _ => false
    ((headOfInstr i).d = true → exec i s = .next s.skipped) ∧
    ((headOfInstr i).d = false →
      (transfers → exec i s = .next (s.went [] none s.fallThrough)) ∧
      (lx → (s.core (coreOf s.cur)).iter.contains s.iss.unit = false →
        exec i s = .next (s.launched [s.iss.unit] [])) ∧
      (!transfers → !lx → exec i s = .next s.skipped))

/-- R35: a duplicate with a true guard, that no fault strikes, adds nothing to what its bundle does, whatever its form and
whatever the slots before and after it ask for: no register, no memory access and no trap. What it may ask for is that its bundle
stalls, its own iterative unit, and its compare, which writes nothing. R34: the original precedes a decoded duplicate: the
nearest slot of its class, with the same operation, guard and body, no duplicate itself, whose K payloads the duplicate uses. -/
def Obligations.Duplicates : Prop :=
  (∀ (i : Instr) (s : State), slotWord i ≠ 0 → (headOfInstr i).d = true → s.upsets = [] →
    s.me.r.readPred (headOfInstr i).g.toNat = true →
    ∃ as : List Act, exec i s = .next (s.retire as) ∧
      (s.iss.rest ≠ [] →
        exec i s = .next { s with iss := { s.iss with acts := s.iss.acts ++ as.map fun a => (s.iss.slot, a) } }) ∧
      ∀ a ∈ as, (∃ w, a = .stall w) ∨ a = .useIter s.iss.unit ∨
        ∃ lat ilk, a = .vec lat ilk ⟨.none, [], none, 0, 0, [], none⟩) ∧
  ∀ (v : Nat) (ws : List Nat) (ps : List Placed) (k : Nat) (p : Placed), decodeBundle v ws = .ok ps → ps[k]? = some p →
    bits p.word 21 1 = 1 →
    ∃ j q, j < k ∧ ps[j]? = some q ∧ bits q.word 21 1 = 0 ∧ bits q.word 22 9 = bits p.word 22 9 ∧
      bits q.word 0 21 = bits p.word 0 21 ∧ q.ks = p.ks ∧
      ∀ i r, j < i → i < k → ps[i]? = some r → bits r.word 28 3 ≠ bits p.word 28 3

/-- R36: the registers and the memory are read before any is written, and nothing takes effect before the last slot: a
slot with others to come leaves the state as it is but for what the bundle in issue has asked for, and the physical
faults that it meets. -/
def Obligations.NoEffectBeforeEnd : Prop :=
  ∀ (i : Instr) (s t : State), (slotWord i ≠ 0 ∨ i = .nopC) → s.iss.rest ≠ [] → exec i s = .next t →
    ∃ acts upsets, t = { s with iss := { s.iss with acts := s.iss.acts ++ acts }, upsets := upsets }

/-- R37, R38: s0, p0 and l0 read as fixed values, and a write to one of them is discarded: the instruction otherwise
ends as any. -/
def Obligations.FixedRegisters : Prop :=
  (∀ (c : Ctx) (x : Word) (y : Bool) (m v : BitVec 128),
    c.r.rs 0 = 0 ∧ c.r.readPred 0 = true ∧ c.r.rl 0 = BitVec.allOnes 128 ∧
    c.put (.s 0 x) = c ∧ c.put (.p 0 y) = c ∧ c.put (.l 0 m v) = c) ∧
  ∀ (s : State) (h : Head) (a b : BitVec 5) (m : BitVec 2), s.alone →
    (s.ready h [rS 0, rS a, rS b] → exec (.add h 0 a b) s = .next s.skipped) ∧
    (s.ready h [.p 0, rS a, rS b] → exec (.cmplt h 0 a b m) s = .next s.skipped) ∧
    (s.ready h [.l 0, rS a] → exec (.movsLHiFromS h 0 a) s = .next s.skipped)

/-- The frame of the instructions that write one scalar register or none (R36, R37): every other register, memory byte,
flag and unit is as before. -/
def Obligations.ScalarFrame : Prop :=
  ∀ (s t : State) (h : Head) (d a b : BitVec 5) (i : BitVec 7) (m : BitVec 2) (j : BitVec 12) (ks : List (BitVec 28)),
    s.alone →
    ∀ x ∈ [Instr.nopS, .add h d a b, .sub h d a b, .mul h d a b, .mulh h d a b, .mulhn h d a b, .div h d a b,
        .divn h d a b, .rem h d a b, .remn h d a b, .and h d a b, .or h d a b, .xor h d a b, .andn h d a b,
        .shl h d a b, .shr h d a b, .sra h d a b, .rotl h d a b, .clz h d a, .ctz h d a, .popc h d a, .min h d a b,
        .max h d a b, .minn h d a b, .maxn h d a b, .sel h d a b m, .addi h d a i ks, .andi h d a i ks,
        .ori h d a i ks, .xori h d a i ks, .shli h d a i, .shri h d a i, .srai h d a i, .sext h d a i, .zext h d a i,
        .movi h d j ks, .movhi h d j ks, .madd h d a b, .bfx h d a b m, .bfi h d a b, .nget h d a i,
        .movsSFromF h d, .movsSFromP h d, .movsSFromLLo h d a, .movsSFromLHi h d a],
      exec x s = .next t → s.frame t (.s d.toNat)

/-! ### Memory access -/

/-- R100, R101: alignment comes before the region, and the trap reports the address: MISALIGN, or DATAFAULT in a hole or
out of range, for every scalar load and store; LDV, STV and LDQ with their own limits (R115, R117). No part of the
bundle takes effect.
R100: where a local access lands: the own LSP directly, and the LSP of the cluster-relative core `k` by its window, the own
position's window being the own LSP. The numbers of LSP bytes are the model's (`pkLsp`).
R104: an access with base s30 in the 2^20 bytes below CVLO is made at OVFP − (CVLO − ea), with every check on that address.
R106 to R109: in the flat space the leaf decides: absent, malformed, poisoned, moving, its permissions, and the lock that an
enforced tile asks for; a load that meets poison traps when it lands. Which of a cached leaf and the present one is used is
free (log 6).
R118: the checks of TLD and TST in their order; the first lane that fails names the coordinates. A tensor-table entry beyond
HBM4 is malformed by the model's choice (log 13), and the registers of FAULTVA and FAULTN to FAULTN2 that do not apply are
written zero (log 70). -/
def Obligations.AccessFaults : Prop :=
  (∀ (s : State) (h : Head) (d a : BitVec 5) (i : BitVec 7) (ks : List (BitVec 28)) (md : Option (BitVec 28)), s.alone →
      let bad := fun (cause va : Nat) => s.trapped ⟨cause, 0, s.iss.pc, s.iss.slot, BitVec.ofNat 64 va, 0, 0, 0, .handler⟩
      let hole := fun ea : Nat => 0xC0000 ≤ ea ∧ ea < 0x1000000 ∨
        0x1000000 ≤ ea ∧ ea < 0x2000000 ∧ 0xC0000 ≤ (ea - 0x1000000) % 0x400000 ∨ 0x2000000 ≤ ea ∧ ea < 2 ^ 32 ∨ 2 ^ 57 ≤ ea
      (s.ready h [rS d, rS a] →
        let ea := (s.me.s a + kImm i.toNat 7 ks).toNat
        ∀ x ∈ [(Instr.ldb h d a i ks, 1), (.ldh h d a i ks, 2), (.ldw h d a i ks, 4), (.ldd h d a i ks, 8),
            (.stb h d a i ks, 1), (.sth h d a i ks, 2), (.stw h d a i ks, 4), (.std h d a i ks, 8)],
          s.me.redirected (a == 30) ea = false →
          (ea % x.2 ≠ 0 → exec x.1 s = .next (bad 0x08 ea)) ∧
          (ea % x.2 = 0 → hole ea → exec x.1 s = .next (bad 0x06 ea))) ∧
      (let ea := (s.me.s a + 16 * signExt i.toNat 7).toNat;
        (s.ready h [rV d, rS a, (Mod.of md).reg] → ea % 16 ≠ 0 →
          exec (.ldv h d a i md) s = .next (bad 0x08 ea) ∧ exec (.stv h d a i md) s = .next (bad 0x08 ea)) ∧
        (s.ready h [.q d.toNat, rS a] → s.me.redirected (a == 30) ea = false →
          (ea % 16 ≠ 0 → exec (.ldq h d a i) s = .next (bad 0x08 ea)) ∧
          (ea % 16 = 0 → ea < 0xC0000 → 0xC0000 < ea + 512 → exec (.ldq h d a i) s = .next (bad 0x07 ea)) ∧
          (ea % 16 = 0 → 0xC0000 ≤ ea ∧ ea + 512 ≤ 0x1000000 ∨ 0x2000000 ≤ ea ∧ ea + 512 ≤ 2 ^ 32 ∨ 2 ^ 57 ≤ ea →
            ea + 512 ≤ 2 ^ 64 → exec (.ldq h d a i) s = .next (bad 0x06 ea)) ∧
          (ea % 16 = 0 → 0x1000000 ≤ ea → ea < 0x2000000 → (ea - 0x1000000) % 0x400000 + 512 ≤ 0xC0000 →
            exec (.ldq h d a i) s = .next (bad 0x09 ea))))) ∧
  (∀ (s : State) (g n off : Nat) (core base30 : Bool) (acc : Acc), n ∈ [1, 2, 4, 8] → off % n = 0 → off < 0xC0000 →
      ((s.ctx g).redirected base30 off = false →
        s.checkAddr g core acc base30 off n n = .ok [(pkLsp (g / 8) off, n)]) ∧
      ∀ k, k < 4 → (s.ctx g).redirected base30 (0x1000000 + k * 0x400000 + off) = false →
        s.checkAddr g core acc base30 (0x1000000 + k * 0x400000 + off) n n =
          .ok [(pkLsp (if k = (s.ctx g).al.pos then g / 8 else 4 * (s.ctx g).al.home + k) off, n)]) ∧
  (∀ (s : State) (h : Head) (d a : BitVec 5) (i : BitVec 7) (ks : List (BitVec 28)), s.alone → s.ready h [rS d, rS a] →
      let bad := fun (cause va : Nat) => s.trapped ⟨cause, 0, s.iss.pc, s.iss.slot, BitVec.ofNat 64 va, 0, 0, 0, .handler⟩
      let ea := (s.me.s a + kImm i.toNat 7 ks).toNat
      let cvlo := s.me.al.cvhi - 1024 * s.me.al.spill
      let redirected := a = 30 ∧ cvlo - 2 ^ 20 ≤ ea ∧ ea < cvlo
      let flat := (s.me.r.ovfp.toNat + 2 ^ 64 - (cvlo - ea)) % 2 ^ 64
      let perm := fun (acc : Acc) (w : Nat) => if acc = .read then bits w 62 1 = 1 else bits w 61 1 = 1
      ∀ x ∈ [(Instr.ldb h d a i ks, 1, Acc.read), (.ldh h d a i ks, 2, .read), (.ldw h d a i ks, 4, .read),
          (.ldd h d a i ks, 8, .read), (.stb h d a i ks, 1, .write), (.sth h d a i ks, 2, .write), (.stw h d a i ks, 4, .write),
          (.std h d a i ks, 8, .write)],
        let meets := fun va : Nat => va % x.2.1 = 0 → 2 ^ 32 ≤ va → va < 2 ^ 57 →
          let tile := va / 2 ^ 16
          let off := va % 2 ^ 16
          let leaf := s.leafOf (coreOf s.cur) s.me.space 0 tile
          (leaf = .absent → exec x.1 s = .next (bad 0x06 va)) ∧
          (leaf = .malformed → exec x.1 s = .next (bad 0x09 va)) ∧
          (leaf = .poisoned → exec x.1 s = .next (s.trapped (s.accTrap 0x10 va))) ∧
          ∀ at' w, leaf = .leaf at' w →
            (bits w 56 1 = 1 → exec x.1 s = .next (s.stalled .moving)) ∧
            (bits w 56 1 = 0 → ¬perm x.2.2 w ∨ bits w 58 2 = 3 → exec x.1 s = .next (bad 0x09 va)) ∧
            (bits w 56 1 = 0 → perm x.2.2 w → bits w 58 2 ≠ 3 → bits w 57 1 = 1 →
              s.grantCached s.cur s.me.space.asid 0 tile off x.2.2 = false →
              (s.grantHeld s.cur s.me.space.asid 0 tile off x.2.2 = none → exec x.1 s = .next (bad 0x0A va)) ∧
              ∀ n, s.grantHeld s.cur s.me.space.asid 0 tile off x.2.2 = some n → exec x.1 s = .next (s.stalled (.grant n)))
        (¬redirected → meets ea) ∧
        (redirected →
          (flat % x.2.1 ≠ 0 → exec x.1 s = .next (bad 0x08 ea)) ∧
          (flat % x.2.1 = 0 → cvlo ≤ ea + x.2.1 - 1 → exec x.1 s = .next (bad 0x07 ea)) ∧
          (flat % x.2.1 = 0 → ea + x.2.1 - 1 < cvlo → flat < 2 ^ 32 → exec x.1 s = .next (bad 0x06 flat)) ∧
          (ea + x.2.1 - 1 < cvlo → meets flat)) ∧
        ∀ ps, x.2.2 = .read → s.checkAddr s.cur true .read (a == 30) ea x.2.1 x.2.1 = .ok ps →
          let va := s.me.foldEa (a == 30) ea
          let ld : Load := ⟨rS d, pieceParts 0 ps, 0, pieceMarks va ps⟩
          s.me.overlapsSync ld = false → (∀ m ∈ ld.marks, s.holdsBack (.read s.cur s.me.bseq) m.1 = false) →
          (∃ m ∈ ld.marks, s.meetsPoison s.cur m.1 m.2.1 ≠ none) →
          ∃ t f, exec x.1 s = .next t ∧ (t.ctx s.cur).fl = [f] ∧
            f.trap = some ⟨0x10, 0, s.iss.pc, s.iss.slot, va, 0, 0, 0, .poison⟩) ∧
  ∀ (s : State) (h : Head) (d a : BitVec 5) (md : Option (BitVec 28)), s.alone →
    s.ready h [rV d, .n a.toNat, (Mod.of md).reg] →
    let n := s.me.r.rn a.toNat
    let tid := bits n.toNat 0 20
    let rank := bits n.toNat 23 3
    let co := fun i : Nat => bits n.toNat (96 + 32 * i) 32
    let bad := fun (cause j : Nat) => s.trapped ⟨cause, 0, s.iss.pc, s.iss.slot, 0, BitVec.ofNat 64 (tid + 2 ^ 20 * rank),
      BitVec.ofNat 64 ((co 0 + j) % 2 ^ 32 + 2 ^ 32 * co 1), BitVec.ofNat 64 (co 2 + 2 ^ 32 * co 3),
      if cause = 0x10 then .poison else .handler⟩
    ∀ x ∈ [(Instr.tld h d a md, Acc.read), (.tst h d a md, .write)],
      let fails := fun (cause j : Nat) => exec x.1 s = .next (bad cause j);
      (4 ≤ rank → fails 0x01 0) ∧
      (rank < 4 → tid = 0 → fails 0x09 0) ∧
      (rank < 4 → tid ≠ 0 → s.descPoisoned (coreOf s.cur) s.me.space tid = true → fails 0x10 0) ∧
      (rank < 4 → tid ≠ 0 → s.descPoisoned (coreOf s.cur) s.me.space tid = false →
        (s.desc (coreOf s.cur) s.me.space tid = none → fails 0x09 0) ∧
        ∀ e, s.desc (coreOf s.cur) s.me.space tid = some e →
          (e.valid = false → fails 0x06 0) ∧
          (e.valid = true → e.malformed = true ∨ e.layout = 1 ∨ rank + 1 ≠ e.rank → fails 0x09 0) ∧
          (e.valid = true → e.malformed = false → e.layout ≠ 1 → rank + 1 = e.rank →
            (e.eb < 3 → co 0 % (8 / 2 ^ e.eb) ≠ 0 → fails 0x08 0) ∧
            ((e.eb < 3 → co 0 % (8 / 2 ^ e.eb) = 0) →
              let sound := fun (k : Nat) (el : Option TElem) => s.tensorElem n e x.2 k = .ok el ∧
                (x.2 = .read → ∀ y, el = some y →
                  s.meetsPoison s.cur (s.elemKey n y) ((y.bit + 2 ^ e.eb + 7) / 8) = none)
              let at' := fun (j i : Nat) => if i = 0 then co 0 + j else co i
              ∀ pre j post, activeOf (s.me.lanes (Mod.of md)) (2 ^ e.eb) = pre ++ j :: post →
                (∀ k ∈ pre, ∃ el, sound k el) → co 0 + j < e.ext 0 →
                ((∃ i, 1 ≤ i ∧ i < e.rank ∧ e.ext i ≤ co i) → fails 0x06 j) ∧
                ((∀ i, 1 ≤ i → i < e.rank → co i < e.ext i) →
                  let leaf := s.leafOf (coreOf s.cur) s.me.space tid (e.tile (at' j))
                  (leaf = .absent → fails 0x06 j) ∧ (leaf = .malformed → fails 0x09 j) ∧ (leaf = .poisoned → fails 0x10 j) ∧
                  ∀ a' w, leaf = .leaf a' w →
                    (bits w 56 1 = 1 → exec x.1 s = .next (s.stalled .moving)) ∧
                    (bits w 56 1 = 0 → (if x.2 = .read then bits w 62 1 else bits w 61 1) = 0 ∨ bits w 58 2 = 3 →
                      fails 0x09 j) ∧
                    (bits w 56 1 = 0 → (if x.2 = .read then bits w 62 1 else bits w 61 1) = 1 → bits w 58 2 ≠ 3 →
                      bits w 57 1 = 1 →
                      let off := e.bitOff (at' j) 0 / 8
                      s.grantCached s.cur s.me.space.asid tid (e.tile (at' j)) off x.2 = false →
                      (s.grantHeld s.cur s.me.space.asid tid (e.tile (at' j)) off x.2 = none → fails 0x0A j) ∧
                      ∀ nm, s.grantHeld s.cur s.me.space.asid tid (e.tile (at' j)) off x.2 = some nm →
                        exec x.1 s = .next (s.stalled (.grant nm)))))))

/-- R112: a scalar load whose checks pass completes: it reads its bytes, the lowest address in the low bits, zero-extended,
and is exposed with six bundles in the own LSP by the direct range (R62), else interlocked (R63). Where the context holds
a synchronisation operation on its bytes the bundle is a checkpoint bundle, and the load follows the release (12 R251);
inside a chain it then traps. That the bytes are read at issue is the model's choice (log 15). -/
def Obligations.ScalarLoads : Prop :=
  ∀ (s : State) (h : Head) (d a : BitVec 5) (i : BitVec 7) (ks : List (BitVec 28)) (ps : List (Nat × Nat)), s.alone →
    s.ready h [rS d, rS a] →
    let ea := (s.me.s a + kImm i.toNat 7 ks).toNat
    let ld : Load := ⟨rS d, pieceParts 0 ps, 0, pieceMarks (s.me.foldEa (a == 30) ea) ps⟩
    let own := s.me.ownDirect (a == 30) ea
    ∀ x ∈ [(Instr.ldb h d a i ks, 1), (.ldh h d a i ks, 2), (.ldw h d a i ks, 4), (.ldd h d a i ks, 8)],
      s.checkAddr s.cur true .read (a == 30) ea x.2 x.2 = .ok ps →
      (s.loadClean ld →
        exec x.1 s = .next ((if own then s else s.touched ld).launched [] [s.flight (if own then 6 else 0) (!own)
          (.s d.toNat (BitVec.ofNat 64 (leNat (ps.flatMap fun p => s.view s.cur p.1 p.2))))])) ∧
      (s.me.overlapsSync ld = true → s.me.inChain = false → s.noSave →
        exec x.1 s = .next (s.endsWith (returnWork s.iss.pc [.load s.iss.pc s.iss.slot ld]))) ∧
      (s.me.overlapsSync ld = true → s.me.inChain = true →
        exec x.1 s = .next (s.trapped ⟨0x03, 0, s.iss.pc, s.iss.slot, 0, 0, 0, 0, .handler⟩))

/-- R115 to R117: the vector loads whose checks pass complete: each active lane or element is written with its bytes, the
others are zero under ZI, else kept; exposed where every active element lies in the own LSP, else interlocked; LDQ reads
512 bytes of the own LSP, lands after eight bundles and is never interlocked. -/
def Obligations.VectorLoads : Prop :=
  ∀ (s : State) (h : Head) (d a b : BitVec 5) (i : BitVec 7) (m : BitVec 2) (md : Option (BitVec 28))
    (es : List (Nat × List (Nat × Nat))), s.alone →
    let mo := Mod.of md
    let l := s.me.lanes mo
    let load := fun (w : Nat) (va : Nat → Word) => (⟨rV d, es.flatMap fun e => pieceParts (w * e.1) e.2,
      zeroBits l w mo.zi, es.flatMap fun e => pieceMarks (va e.1) e.2⟩ : Load)
    let done := fun (own : Bool) (ld : Load) => s.loaded (if own then 6 else 0) (!own) ld;
    (s.ready h [rV d, rS a, mo.reg] →
      let ea := (s.me.s a + 16 * signExt i.toNat 7).toNat
      let ld := load 32 fun j => s.me.foldEa (a == 30) ea + BitVec.ofNat 64 (4 * j)
      s.checkLdv .read (a == 30) ea l = .ok es → s.loadClean ld →
      exec (.ldv h d a i md) s = .next (done (s.me.ownDirect (a == 30) ea) ld)) ∧
    (let w := if m.toNat = 0 then 32 else 64
      let each := fun (ea : Nat → Word) (x : Instr) =>
        let ld := load w fun j => s.me.foldEa (a == 30) (ea j).toNat
        s.checkEach .read (a == 30) w ea l = .ok es → s.loadClean ld →
        exec x s = .next (done ((activeOf l w).all fun j => s.me.ownDirect (a == 30) (ea j).toNat) ld)
      (s.ready h [rV d, rS a, rS b, mo.reg] →
        each (fun j => s.me.s a + BitVec.ofNat 64 j * s.me.s b) (.ldvs h d a b m md)) ∧
      (s.ready h [rV d, rS a, rV b, mo.reg] →
        each (fun j => s.me.s a + BitVec.ofNat 64 (w / 8) * signExt ((s.me.r.rv b.toNat).toNat / 2 ^ (32 * j) % 2 ^ 32) 32)
          (.ldvg h d a b m md))) ∧
    (s.ready h [.q d.toNat, rS a] →
      let ea := (s.me.s a + 16 * signExt i.toNat 7).toNat
      let ld : Load := ⟨.q d.toNat, [(0, 8 * pkLsp (s.cur / 8) ea, 4096)], 0,
        [(pkLsp (s.cur / 8) ea, 512, BitVec.ofNat 64 ea, 0, 0, 0)]⟩
      ea % 16 = 0 → ea + 512 ≤ 0xC0000 → s.me.redirected (a == 30) ea = false → s.loadClean ld →
      exec (.ldq h d a i) s = .next (s.loaded 8 false ld))

/-- R112, R115, R116; 15 R321, R325: a store whose checks pass enters the store containment buffer, and writes no
memory: its bytes, the lowest address first, and the address and data that classes 1 and 2 fold.
The frame of the instructions that only put an entry into the buffer, and what the context sees afterwards (R112; 07
R135; 15 R321): no register but the PC changes, no byte of memory, no other context; the bytes of a store are what its
context reads from then on, and every other byte reads as before. -/
def Obligations.Stores : Prop :=
  (∀ (s : State) (h : Head) (d a b : BitVec 5) (i : BitVec 7) (m : BitVec 2) (ks : List (BitVec 28))
      (md : Option (BitVec 28)), s.alone →
      let l := s.me.lanes (Mod.of md)
      let v := (s.me.r.rv d.toNat).toNat;
      (s.ready h [rS d, rS a] →
        let ea := (s.me.s a + kImm i.toNat 7 ks).toNat
        ∀ x ∈ [(Instr.stb h d a i ks, 1), (.sth h d a i ks, 2), (.stw h d a i ks, 4), (.std h d a i ks, 8)],
          ∀ ps, s.checkAddr s.cur true .write (a == 30) ea x.2 x.2 = .ok ps →
            let data := (s.me.s d).toNat % 2 ^ (8 * x.2)
            let op : EntOp := .store (pieceBytes ps (leBytes data x.2))
            let block := ps.head?.map fun p => p.1 / 32
            let folds := [s.me.foldEa (a == 30) ea, BitVec.ofNat 64 data]
            s.roomFor op 1 block 0 folds → exec x.1 s = .next (s.entered op 1 block 0 folds)) ∧
      let put := fun (w gran : Nat) (at' : Nat → Word) (es : List (Nat × List (Nat × Nat))) (x : Instr) =>
        let op : EntOp := .store (es.flatMap fun e => pieceBytes e.2 (leBytes (v / 2 ^ (w * e.1) % 2 ^ w) (w / 8)))
        let folds := es.flatMap fun e => [at' e.1, BitVec.ofNat 64 (v / 2 ^ (w * e.1) % 2 ^ w)]
        s.roomFor op gran none 0 folds → exec x s = .next (s.entered op gran none 0 folds)
      (s.ready h [rV d, rS a, (Mod.of md).reg] →
        let ea := (s.me.s a + 16 * signExt i.toNat 7).toNat
        ∀ es, s.checkLdv .write (a == 30) ea l = .ok es →
          put 32 ((ea + 511) / 32 - ea / 32 + 1) (fun j => s.me.foldEa (a == 30) ea + BitVec.ofNat 64 (4 * j)) es
            (.stv h d a i md)) ∧
      let w := if m.toNat = 0 then 32 else 64
      let each := fun (ea : Nat → Word) (x : Instr) => ∀ es, s.checkEach .write (a == 30) w ea l = .ok es →
        put w (blockCount ((activeOf l w).map fun j => (s.me.foldEa (a == 30) (ea j).toNat).toNat))
          (fun j => s.me.foldEa (a == 30) (ea j).toNat) es x
      (s.ready h [rV d, rS a, rS b, (Mod.of md).reg] →
        each (fun j => s.me.s a + BitVec.ofNat 64 j * s.me.s b) (.stvs h d a b m md)) ∧
      (s.ready h [rV d, rS a, rV b, (Mod.of md).reg] →
        each (fun j => s.me.s a + BitVec.ofNat 64 (w / 8) * signExt ((s.me.r.rv b.toNat).toNat / 2 ^ (32 * j) % 2 ^ 32) 32)
          (.stvg h d a b m md))) ∧
  (∀ (s : State) (op : EntOp) (gran : Nat) (block : Option Nat) (path : Nat) (folds : List Word),
      let t := s.entered op gran block path folds;
      (t.ctx s.cur).r = { s.me.r with pc := s.fallThrough } ∧ (∀ a, memGet t.mem a = memGet s.mem a) ∧
      (∀ g, g ≠ s.cur → t.ctx g = s.ctx g) ∧ (∀ k, t.core k = s.core k) ∧ t.poison = s.poison ∧
      (∀ k bs, op = .store ((List.range bs.length).map fun i => (k + i, bs.getD i 0)) → bs ≠ [] →
        t.view s.cur k bs.length = bs ∧
        ∀ k' n, k' + n ≤ k ∨ k + bs.length ≤ k' → t.view s.cur k' n = s.view s.cur k' n))

/-- R118; 15 R323: TLD and TST of a handle whose descriptor and elements pass their checks. A TLD is interlocked, its
clipped elements are zero. A TST outside shadow frames makes one entry of its whole bytes and one of each byte that it
writes in part. A TST into shadow frames writes them, one entry a frame; one whose frame is not yet made waits for the
copy, and traps CONTAINFULL where the pool has none. That a TLD reads its bytes at issue is the model's choice (log 15). The
failing checks are in AccessFaults. -/
def Obligations.TensorAccesses : Prop :=
  ∀ (s : State) (h : Head) (d a : BitVec 5) (md : Option (BitVec 28)) (ds : Desc) (es : List (Option TElem)), s.alone →
    s.ready h [rV d, .n a.toNat, (Mod.of md).reg] →
    let n := s.me.r.rn a.toNat
    let l := s.me.lanes (Mod.of md)
    let w := 2 ^ ds.eb
    let live := es.filterMap fun e => e
    s.tensorDesc n = .ok ds →
    (s.tensorElems n ds .read l = .ok es →
      let clipped := (activeOf l w).filter fun j => !(live.any fun e => e.j == j)
      let zero := BitVec.ofNat 4096 ((clipped.map fun j => (2 ^ w - 1) * 2 ^ (w * j)).sum)
      let mark := fun e : TElem =>
        let t := s.tenTrap n 0x10 e.j
        (s.elemKey n e, (e.bit + w + 7) / 8, t.va, t.n, t.n1, t.n2)
      let ld : Load := ⟨rV d, live.map fun e => (w * e.j, 8 * s.elemKey n e + e.bit, w), zero ||| zeroBits l w (Mod.of md).zi,
        live.map mark⟩
      s.loadClean ld → exec (.tld h d a md) s = .next (s.loaded 0 true ld)) ∧
    (s.tensorElems n ds .write l = .ok es →
      let x := s.me.r.rv d.toNat
      let folds := tstFolds n x w (activeOf l w)
      ((∀ e ∈ live, s.tstShadowed n e = false) →
        let gran := fun bytes : List (Nat × Byte) => if 1 ≤ s.me.pcls then 1 else blockCount (bytes.map fun b => b.1)
        (3 ≤ ds.eb →
          let bytes := live.flatMap fun e => (List.range (w / 8)).map fun i =>
            (e.pa + i, BitVec.ofNat 8 (x.toNat / 2 ^ (w * e.j) % 2 ^ w / 2 ^ (8 * i)))
          s.roomFor (.store bytes) (gran bytes) none 0 folds →
            exec (.tst h d a md) s = .next (s.entered (.store bytes) (gran bytes) none 0 folds)) ∧
        (ds.eb < 3 →
          let groups := byteGroups x w (live.map fun e => (e, e.pa))
          let whole := (groups.filter fun b => b.2.1 == 0xFF).map fun b => (b.1, b.2.2)
          let part := groups.filter fun b => b.2.1 != 0xFF
          let m := gran (groups.map fun b => (b.1, b.2.2))
          let c := s.entering (.store whole) m none 0 folds
          s.roomFor (.store whole) m none 0 folds →
            exec (.tst h d a md) s = .next (s.after { c with
              scb := c.scb ++ part.map fun b => s.entry (.bits b.1 b.2.1 b.2.2) 0 none 0 [] }))) ∧
      (live ≠ [] → (∀ e ∈ live, s.tstShadowed n e = true) →
        let keys := (live.map (s.tileKey n)).eraseDups;
        (∀ k, (keys.find? fun k => (s.shadowNow s.cur k).isNone) = some k →
          (s.poolTake (spcOf s.cur) = .empty → exec (.tst h d a md) s = .next (s.trapped (s.accTrap 0x17 0))) ∧
          (s.poolTake (spcOf s.cur) ≠ .empty → exec (.tst h d a md) s = .next (s.stalled (.frame k s.iss.slot)))) ∧
        ((∀ k ∈ keys, (s.shadowNow s.cur k).isSome = true) →
          let frames := keys.filterMap fun k => (s.shadowNow s.cur k).map fun f =>
            (f.frame, (byteGroups x w ((live.filter fun e => s.tileKey n e == k).map fun e =>
              (e, f.frame + e.pa % 2 ^ 16))).map fun b => (b.1, blend (s.me.overlay (memGet s.mem b.1) b.1) b.2.1 b.2.2))
          let first := (frames.headD (0, []))
          let c := s.entering (.shadow first.1 first.2) 1 none 0 folds
          s.roomFor (.shadow first.1 first.2) 1 none 0 folds →
            exec (.tst h d a md) s = .next (frames.foldl (fun u f => if s.grantFrame s.cur f.1 = true then u else u.shadowWrite s.cur f.1 f.2) (s.after { c with
              scb := c.scb ++ frames.tail.map fun f => s.entry (.shadow f.1 f.2) 0 none 0 [] })))))

/-- R119, R109: PREF changes no register and no memory and raises no trap: where its checks pass in the flat space the walk of
its tile goes on in the background and the home of the address begins to leave its power state; where its tile moves, or its
grant is on its way, the walk alone goes on; and elsewhere it does nothing. -/
def Obligations.Prefetch : Prop :=
  ∀ (s : State) (h : Head) (a : BitVec 5) (i : BitVec 7) (ks : List (BitVec 28)), s.alone →
    let walking := fun (key : Nat × Nat × Nat) (pas : List Nat) =>
      let k := s.core (coreOf s.cur)
      let t := if k.walks.contains key then s.skipped else s.skipped.setCore (coreOf s.cur) { k with walks := k.walks ++ [key] }
      pas.foldl State.wake t
    (s.ready h [rS a] →
      let ea := (s.me.s a + kImm i.toNat 7 ks).toNat
      let chk := s.checkAddr s.cur true .read false ea 1 1;
      (∀ ps, chk = .ok ps → 2 ^ 32 ≤ ea →
        exec (.prefAddress h a i ks) s = .next (walking (s.me.space.asid, 0, ea / 2 ^ 16) (ps.map fun p => p.1))) ∧
      (∀ w, chk = .wait w → exec (.prefAddress h a i ks) s = .next (walking (s.me.space.asid, 0, ea / 2 ^ 16) [])) ∧
      ((∃ cause va, chk = .bad cause va) ∨ ea < 2 ^ 32 → exec (.prefAddress h a i ks) s = .next s.skipped)) ∧
    (s.ready h [.n a.toNat] →
      let n := s.me.r.rn a.toNat;
      (∀ ds e, s.handleDesc false n = .ok ds → s.tensorElem n ds .read 0 = .ok (some e) →
        exec (.prefHandle h a) s = .next (walking (s.me.space.asid, hTid n, e.tile) [e.pa])) ∧
      (∀ ds w, s.handleDesc false n = .ok ds → s.tensorElem n ds .read 0 = .wait w →
        exec (.prefHandle h a) s =
          .next (walking (s.me.space.asid, hTid n, ds.tile fun k => bits n.toNat (96 + 32 * k) 32) [])) ∧
      (∀ cause, s.handleDesc false n = .error cause → exec (.prefHandle h a) s = .next s.skipped) ∧
      (∀ ds, s.handleDesc false n = .ok ds →
        s.tensorElem n ds .read 0 = .ok none ∨ (∃ cause j, s.tensorElem n ds .read 0 = .bad cause j) →
        exec (.prefHandle h a) s = .next s.skipped))

/-! ### Ordering, atomics, barriers and locks -/

/-- 07 R138, R141, R142: FENCE is a marker among the entries that writes nothing; DRAIN waits at the end of the bundle of
a CKPT with a true guard, after the new interval is open, and has no effect in a bundle without one. -/
def Obligations.FenceAndDrain : Prop :=
  ∀ (s : State) (h : Head) (b f : BitVec 6) (p : BitVec 6) (sc : BitVec 3), s.ready h [] →
    (s.alone → s.roomFor (.fence b f) 1 none 6 [] → exec (.fence h b f) s = .next (s.entered (.fence b f) 1 none 6 [])) ∧
    (s.me.inChain = true → s.alone →
      exec (.drain h p sc) s = .next (s.trapped ⟨0x03, 0, s.iss.pc, s.iss.slot, 0, 0, 0, 0, .handler⟩)) ∧
    (s.me.inChain = false → s.alone → exec (.drain h p sc) s = .next s.skipped) ∧
    ∀ j, s.me.inChain = false → ({ s with iss := { s.iss with acts := [] } } : State).alone → s.noSave →
      s.iss.acts = [(j, .ckpt false), (j, .drainOn)] →
      exec (.drain h p sc) s = .next (s.endsWith
        [.land, .wound s.iss.pc, .close, .copy, .drain p sc s.iss.pc, .due s.iss.pc])

/-- 12 R247, R248, R255: a scalar atomic whose checks pass enters the buffer with its operands, of 8 or of 4 bytes; one
that returns its old value makes its bundle a checkpoint bundle, which waits for agreement and release, and is refused
in a chain.
12 R255, R257: what an atomic makes of the old value: sums modulo the width, minima and maxima in the order of its
sign, and a compare that stores nothing where it fails. -/
def Obligations.ScalarAtomics : Prop :=
  (∀ (s : State) (h : Head) (d a b : BitVec 5) (m : BitVec 2), s.alone → s.ready h [rS d, rS a, rS b] →
      let n := if m.toNat = 0 then 8 else 4
      let x := (s.me.s b).toNat % 2 ^ (8 * n)
      ∀ i ∈ [(Instr.aadd h d a b m, AtomOp.add, Acc.add), (.aand h d a b m, .and, .write), (.aor h d a b m, .or, .write),
          (.axor h d a b m, .xor, .write), (.amin h d a b m, .min, .write), (.amax h d a b m, .max, .write),
          (.aminn h d a b m, .minn, .write), (.amaxn h d a b m, .maxn, .write), (.axchg h d a b m, .xchg, .write),
          (.acas h d a b m, .cas, .write)],
        ∀ pa r, s.checkAddr s.cur true i.2.2 false (s.me.s a).toNat n n = .ok ((pa, n) :: r) →
          let e := if i.2.1 = .cas then (s.me.s d).toNat % 2 ^ (8 * n) else 0
          let op : EntOp := .atomic i.2.1 pa n x e d.toNat
          let folds := s.me.s a :: if i.2.1 = .cas then [s.me.s d, s.me.s b] else [s.me.s b]
          (s.roomFor op 1 (some (pa / 32)) 0 folds → d = 0 →
            exec i.1 s = .next (s.entered op 1 (some (pa / 32)) 0 folds)) ∧
          (s.roomFor op 1 (some (pa / 32)) 0 folds → d ≠ 0 → s.me.inChain = false → s.noSave →
            exec i.1 s = .next (s.enteredEnds op 1 (some (pa / 32)) 0 folds (returnWork s.iss.pc []))) ∧
          (d ≠ 0 → s.me.inChain = true →
            exec i.1 s = .next (s.trapped ⟨0x03, 0, s.iss.pc, s.iss.slot, 0, 0, 0, 0, .handler⟩))) ∧
  (∀ (n old x e : Nat), n = 4 ∨ n = 8 → old < 2 ^ (8 * n) → x < 2 ^ (8 * n) →
      let sg := fun y : Nat => if 2 ^ (8 * n - 1) ≤ y then (y : Int) - 2 ^ (8 * n) else y
      atomNew .add n old x e = some ((old + x) % 2 ^ (8 * n)) ∧ atomNew .and n old x e = some (old &&& x) ∧
      atomNew .or n old x e = some (old ||| x) ∧ atomNew .xor n old x e = some (old ^^^ x) ∧
      (∀ y, atomNew .min n old x e = some y → (y = old ∨ y = x) ∧ sg y = min (sg old) (sg x)) ∧
      (∀ y, atomNew .max n old x e = some y → (y = old ∨ y = x) ∧ sg y = max (sg old) (sg x)) ∧
      atomNew .minn n old x e = some (min old x) ∧ atomNew .maxn n old x e = some (max old x) ∧
      atomNew .xchg n old x e = some x ∧ atomNew .cas n old x e = (if old = e then some x else none))

/-- 12 R257, R258, R261, R262, R264; 11 R237: vector atomics, CADD, BINIT, BARV and OBRK whose checks pass enter the
buffer; a barrier object out of its place, a BINIT count of 0 or of 2^16 and more, and an unbound ring trap with
PERMISSION. That an OBRK of an unbound ring leaves 0 in FAULTVA is the model's choice (log 50): no rule names an address. -/
def Obligations.SyncEntries : Prop :=
  ∀ (s : State) (h : Head) (d a b : BitVec 5) (m : BitVec 2) (i : BitVec 7) (md : Option (BitVec 28)), s.alone →
    let puts := fun (x : Instr) (op : EntOp) (gran : Nat) (block : Option Nat) (folds : List Word) =>
      s.roomFor op gran block 0 folds → exec x s = .next (s.entered op gran block 0 folds)
    let refuse := fun (x : Instr) (va : Word) =>
      exec x s = .next (s.trapped ⟨0x09, 0, s.iss.pc, s.iss.slot, va, 0, 0, 0, .handler⟩)
    let key := s.me.localKey s.cur (s.me.s a).toNat
    let placed := (s.me.s a).toNat % 16 = 0 ∧ (regionOf (s.me.s a).toNat = 0 ∨
      2 ≤ regionOf (s.me.s a).toNat ∧ regionOf (s.me.s a).toNat ≤ 5)
    (s.ready h [rV d, rS a, rV b, (Mod.of md).reg] →
      let l := s.me.lanes (Mod.of md)
      let lane := fun (v : BitVec 5) (j : Nat) => (s.me.r.rv v.toNat).toNat / 2 ^ (32 * j) % 2 ^ 32
      let ea := fun j : Nat => s.me.s a + 4 * signExt (lane b j) 32
      ∀ x ∈ [(Instr.vaadd h d a b m md, if m.toNat = 0 then AtomOp.add else .fadd, Acc.add),
          (.vaor h d a b m md, .or, .write),
          (.vamax h d a b m md, if m.toNat = 0 then .max else if m.toNat = 1 then .maxn else .fmax, .write)],
        ∀ es, s.checkEach x.2.2 false 32 ea l = .ok es →
          puts x.1 (.vatomic x.2.1 s.me.excTid (es.map fun e => (e.1, (e.2.headD (0, 0)).1, lane d e.1, ea e.1)))
            (max 1 ((es.map fun e => e.1 / 8).eraseDups).length) none
            (es.flatMap fun e => [ea e.1, BitVec.ofNat 64 (lane d e.1)])) ∧
    (s.ready h [rS a, rS b] →
      (∀ pa r, s.checkAddr s.cur true .add false (s.me.s a).toNat 8 8 = .ok ((pa, 8) :: r) →
        puts (.cadd h a b) (.cadd pa (s.me.s b)) 1 (some (pa / 32)) [s.me.s a, s.me.s b]) ∧
      (placed → 0 < (s.me.s b).toNat → (s.me.s b).toNat < 2 ^ 16 →
        puts (.binit h a b) (.binit key (s.me.s b).toNat) 1 (some (key / 32)) [s.me.s a, s.me.s b]) ∧
      (¬placed ∨ s.me.s b = 0 ∨ 2 ^ 16 ≤ (s.me.s b).toNat → refuse (.binit h a b) (s.me.s a))) ∧
    (s.ready h [rS d, rS a] →
      let op : EntOp := .barv key i.toNat d.toNat
      let folds := [s.me.s a, BitVec.ofNat 64 i.toNat]
      (placed → d = 0 → puts (.barv h d a i) op 1 (some (key / 32)) folds) ∧
      (placed → d ≠ 0 → s.me.inChain = false → s.noSave → s.roomFor op 1 (some (key / 32)) 0 folds →
        exec (.barv h d a i) s = .next (s.enteredEnds op 1 (some (key / 32)) 0 folds (returnWork s.iss.pc []))) ∧
      (¬placed → refuse (.barv h d a i) (s.me.s a))) ∧
    (s.ready h [rS a] →
      (placed → puts (.obrkBarrier h a) (.obrk key) 1 (some (key / 32)) [s.me.s a, 0]) ∧
      (¬placed → refuse (.obrkBarrier h a) (s.me.s a))) ∧
    (s.ready h [.h a.toNat] →
      let x := s.me.r.rh a.toNat
      let core := x.toNat / 2 ^ 36 % 4
      let rix := x.toNat / 2 ^ 38 % 32
      (x.getLsbD 33 = true → puts (.obrkRing h a) (.obrkRing (4 * s.me.al.home + core) rix) 1 none
        [0, BitVec.ofNat 64 (rix + 32 * core)]) ∧
      (x.getLsbD 33 = false → refuse (.obrkRing h a) 0))

/-- 04 R68, R80; 12 R251, R259, R263: WAITF, WAITGE and BWAIT wait at the end of their bundle; a wait that is satisfied there
writes what it reports and costs nothing: WAITF clears the flags that it consumes, WAITGE returns the counter as its home holds
it, where no FENCE orders it behind an access that is still to come and no memory unit holds its read back (07 R139; 17 R364 to
R368). That the home alone is read, and no store that the context holds, is read from R251 over R129 and R135 (log 66). -/
def Obligations.Waits : Prop :=
  ∀ (s : State) (h : Head) (d a b : BitVec 5) (all : BitVec 1) (mask : BitVec 16), s.alone →
    let waits := fun (w : Wait) => s.endsWith [.wait w s.iss.pc s.iss.slot false, .due s.iss.pc]
    (s.ready h [.f] →
      let hit := s.me.r.f.truncate 16 &&& mask
      exec (.waitf h all mask) s = .next (waits (.flag (all == 1) mask)) ∧
      ((if all = 1 then hit = mask else hit ≠ 0) →
        exec (.waitf h all mask) s = .next (s.wrote (.f (hit.zeroExtend 17) 0)))) ∧
    (s.ready h [rS d, rS a, rS b] →
      (∀ pa r, s.checkAddr s.cur true .read false (s.me.s a).toNat 8 8 = .ok ((pa, 8) :: r) →
        exec (.waitge h d a b) s = .next (waits (.ge d.toNat pa (s.me.s b) (s.me.s a))) ∧
        let at' := s.after { s.me.passed s.iss.pc s.fallThrough with
          todo := [.wait (.ge d.toNat pa (s.me.s b) (s.me.s a)) s.iss.pc s.iss.slot false, .due s.iss.pc] }
        let u := s.countReads s.cur [pa]
        let v := leNat (u.peek pa 8)
        (s.me.second = false → s.me.twin = none → at'.coreFenced s.cur = false →
          at'.holdsBack (.read s.cur (s.me.bseq + 1)) pa = false → u.poisonedRange pa 8 = false →
          (s.me.s b).toNat ≤ v → exec (.waitge h d a b) s = .next (u.wrote (.s d.toNat (BitVec.ofNat 64 v))))) ∧
      let w := (s.me.s b).toNat
      let ea := (s.me.s a).toNat
      ea % 16 = 0 → (regionOf ea = 0 ∨ 2 ≤ regionOf ea ∧ regionOf ea ≤ 5) → w / 2 ^ 4 % 2 ^ 12 = 0 → w / 2 ^ 48 = 0 →
        exec (.bwait h d a b) s = .next (waits (.bar d.toNat (s.me.localKey s.cur ea) (w % 16)
          (if w / 2 ^ 16 % 2 ^ 32 = 0 then none else some (s.cycles + 1 + w / 2 ^ 16 % 2 ^ 32)) (s.me.s a))))

/-- 13 R267, R283, R284: a lock instruction whose words pass the checks: LKREQ, LKTRY, LKESC and LKQRY wait at the end of
their bundle for the lock manager's answer, LKDWN and LKREL enter the buffer with their word and operands; words that
fail the checks trap with PERMISSION.
13 R267: which object a pair of lock words names. -/
def Obligations.Locks : Prop :=
  (∀ (s : State) (h : Head) (d a b : BitVec 5), s.alone →
      let x := s.me.s a
      let y := s.me.s b
      let refuse := fun (i : Instr) => exec i s = .next (s.trapped ⟨0x09, 0, s.iss.pc, s.iss.slot, x, 0, 0, 0, .handler⟩)
      let mode := y.toNat / 2 ^ 20 % 8
      let name := s.me.lockName x y
      let word := fun (w : Nat) => BitVec.ofNat 64 (w + if s.iss.slot + 1 = s.iss.n then 2 ^ 31 else 0)
      (s.ready h [rS d, rS a, rS b] →
        ∀ i ∈ [(Instr.lkreq h d a b, 0), (.lktry h d a b, 1), (.lkesc h d a b, 2), (.lkqry h d a b, 5)],
          (s.lockOk x y = true → exec i.1 s =
            .next (s.endsWith [.lock i.2 name mode d.toNat s.iss.pc s.iss.slot, .due s.iss.pc])) ∧
          (s.lockOk x y = false → refuse i.1)) ∧
      (s.ready h [rS a, rS b] →
        ∀ i ∈ [(Instr.lkdwn h a b, EntOp.lkdwn name mode), (.lkrel h a b, .lkrel name)],
          let folds := [word (slotWord i.1), x, y]
          (s.lockOk x y = true → s.roomFor i.2 1 none 0 folds → exec i.1 s = .next (s.entered i.2 1 none 0 folds)) ∧
          (s.lockOk x y = false → refuse i.1)) ∧
      (s.ready h [] →
        let folds := [word (slotWord (.lkrelAll h)), 0, 0]
        s.roomFor .lkrelAll 1 none 0 folds → exec (.lkrelAll h) s = .next (s.entered .lkrelAll 1 none 0 folds))) ∧
  (∀ (c : Ctx) (a b : Word),
      let tile := a.toNat % 2 ^ 41
      let line := a.toNat / 2 ^ 41 % 2 ^ 9
      let level := a.toNat / 2 ^ 50 % 4
      let tid := b.toNat % 2 ^ 20
      c.lockName a b = (if level = 0 then lockTensor c.space.asid tid else if level = 1 then lockTile c.space.asid tid tile
        else lockLine c.space.asid tid tile line))

/-! ### Vector instructions -/

/-- R163, R152: the floating-point operations, with the modifier's rounding mode or VRND's; VFMA, VFMS and VFNMA round
once and read the old destination.
R164: the special inputs of the unary functions, and VDIV of a finite nonzero value by zero, in every format of the
FP set and every rounding mode: patterns and flags.
02 R46: sums, products and the sum of VFMA are those of the exact numbers, rounded once, with the sign that an exact zero has; and
RoundFP of a nonzero magnitude in every format and mode: the neighbour that the mode chooses, ties to even, NX where it differs,
overflow where the number that the mode chooses lies above the largest finite one; BF16 flushes below its normals. -/
def Obligations.VectorFloat : Prop :=
  (∀ (s : State) (h : Head) (d a b : BitVec 5) (m : BitVec 2) (md : Option (BitVec 28)), s.alone →
      let f := fpType m
      let r := s.me.rmode (Mod.of md)
      let val := fun (v : BitVec 5) (j : Nat) => f.decode ((s.me.r.rv v.toNat).toNat / 2 ^ (f.width * j) % 2 ^ f.width)
      let bits' := fun (v : BitVec 5) (j : Nat) => (s.me.r.rv v.toNat).toNat / 2 ^ (f.width * j) % 2 ^ f.width
      (s.ready h [rV d, (Mod.of md).reg, rV a, rV b] →
        let done := fun (x : Instr) (op lat : Nat) (e : Nat → El) => exec x s = .next (s.vDone d md op f.width lat e)
        done (.vadd h d a b m md) 1 4 (fun j => elFp f (f.addV r (val a j) (val b j))) ∧
        done (.vsub h d a b m md) 2 4 (fun j => elFp f (f.addV r (val a j) (negV (val b j)))) ∧
        done (.vmul h d a b m md) 3 4
          (fun j => elFp f (withFlags (mulV (val a j) (val b j)).2 (f.ofV r (mulV (val a j) (val b j)).1))) ∧
        done (.vfma h d a b m md) 4 4 (fun j => elFp f (f.fmaV r (val a j) (val b j) (val d j))) ∧
        done (.vfms h d a b m md) 5 4 (fun j => elFp f (f.fmaV r (val a j) (val b j) (negV (val d j)))) ∧
        done (.vfnma h d a b m md) 6 4 (fun j => elFp f (f.fmaV r (negV (val a j)) (val b j) (val d j))) ∧
        done (.vmin h d a b m md) 7 2 (fun j => elFp f (fpMinMax f false (bits' a j) (bits' b j), 0)) ∧
        done (.vmax h d a b m md) 8 2 (fun j => elFp f (fpMinMax f true (bits' a j) (bits' b j), 0)) ∧
        (s.unitsFree → exec (.vdiv h d a b m md) s =
          .next (s.vIlkDone d md 11 f.width fun j => elFp f (f.divV r (val a j) (val b j))))) ∧
      (s.ready h [rV d, (Mod.of md).reg, rV a] →
        exec (.vabs h d a m md) s = .next (s.vDone d md 9 f.width 2 fun j => elFp f (f.ofV .rne (absV (val a j)))) ∧
        exec (.vneg h d a m md) s = .next (s.vDone d md 10 f.width 2 fun j => elFp f (f.ofV .rne (negV (val a j)))) ∧
        (s.unitsFree →
          let done := fun (x : Instr) (op : Nat) (e : Nat → El) => exec x s = .next (s.vIlkDone d md op f.width e)
          done (.vsqrt h d a m md) 12 (fun j => elFp f (f.sqrtV r (val a j))) ∧
          done (.vrcp h d a m md) 13 (fun j => elFp f (f.divV r oneV (val a j))) ∧
          done (.vrsq h d a m md) 14 (fun j => elFp f (f.rsqV r (val a j))) ∧
          done (.vexp h d a m md) 15 (fun j => elFp f (f.expV r (val a j))) ∧
          done (.vlog h d a m md) 16 (fun j => elFp f (f.logV r (val a j))) ∧
          done (.vtanh h d a m md) 17 (fun j => elFp f (f.tanhV r (val a j)))))) ∧
  (∀ (m : BitVec 2) (r : RMode) (a : Bool) (k : Nat) (e : Int), 0 < k →
      let f := fpType m
      let zero := fun neg : Bool => FVal.num neg 0 0
      (f.sqrtV r (zero a) = (f.zero a, 0) ∧ f.divV r oneV (zero a) = (f.infPat a, flagDZ) ∧
        f.rsqV r (zero a) = (f.infPat a, flagDZ) ∧ f.expV r (zero a) = f.ofV r oneV ∧
        f.logV r (zero a) = (f.infPat true, flagDZ) ∧ f.tanhV r (zero a) = (f.zero a, 0)) ∧
      (f.sqrtV r (.inf false) = (f.infPat false, 0) ∧ f.divV r oneV (.inf a) = (f.zero a, 0) ∧
        f.rsqV r (.inf false) = (f.zero false, 0) ∧ f.expV r (.inf false) = (f.infPat false, 0) ∧
        f.logV r (.inf false) = (f.infPat false, 0) ∧ f.tanhV r (.inf a) = f.ofV r (.num a 1 0)) ∧
      (f.sqrtV r (.inf true) = (f.nan, flagNV) ∧ f.rsqV r (.inf true) = (f.nan, flagNV) ∧
        f.expV r (.inf true) = (f.zero false, 0) ∧ f.logV r (.inf true) = (f.nan, flagNV)) ∧
      (f.sqrtV r (.num true k e) = (f.nan, flagNV) ∧ f.rsqV r (.num true k e) = (f.nan, flagNV) ∧
        f.logV r (.num true k e) = (f.nan, flagNV)) ∧
      f.logV r oneV = (f.zero false, 0) ∧
      ∀ b : Bool, f.divV r (.num a k e) (zero b) = (f.infPat (a != b), flagDZ)) ∧
  (∀ (f : Fmt) (r : RMode) (a b : Bool) (m n : Nat) (e g : Int),
      let x := FVal.num a m e
      let y := FVal.num b n g
      let num := fun (s : Bool) (k : Nat) (i : Int) => ((if s = true then -(k : ℚ) else k) * (2 : ℚ) ^ i : ℚ)
      let z := num a m e + num b n g
      (z = 0 → f.addV r x y = (f.zero (if m = 0 ∧ n = 0 ∧ a = b then a else decide (r = .rdn)), 0)) ∧
      (z ≠ 0 → ∃ (k : Nat) (i : Int), (k : ℚ) * (2 : ℚ) ^ i = |z| ∧ f.addV r x y = f.roundMag r (decide (z < 0)) k i false) ∧
      mulV x y = (.num (a != b) (m * n) (e + g), 0) ∧ f.ofV r x = f.roundMag r a m e false ∧
      (∀ w, w ≠ .nan → f.fmaV r x y w = f.addV r (.num (a != b) (m * n) (e + g)) w) ∧
      (∀ w, f.addV r .nan w = (f.nan, 0) ∧ f.addV r w .nan = (f.nan, 0) ∧ mulV .nan w = (.nan, 0) ∧ mulV w .nan = (.nan, 0) ∧
        f.fmaV r .nan x w = (f.nan, 0) ∧ f.fmaV r x .nan w = (f.nan, 0) ∧ f.fmaV r x y .nan = (f.nan, 0)) ∧
      f.addV r (.inf a) (.inf a) = (f.infPat a, 0) ∧ f.addV r (.inf a) (.inf !a) = (f.nan, flagNV) ∧
      f.addV r (.inf a) y = (f.infPat a, 0) ∧ (n = 0 → mulV (.inf a) y = (.nan, flagNV)) ∧
      (n ≠ 0 → mulV (.inf a) y = (.inf (a != b), 0)) ∧ mulV (.inf a) (.inf b) = (.inf (a != b), 0)) ∧
  ∀ (f : Fmt) (r : RMode) (neg : Bool) (m : Nat) (e : Int), 0 < m →
    let x : ℚ := m * (2 : ℚ) ^ e
    let out := f.roundMag r neg m e false
    let value := fun (p : Nat) (y : ℚ) => ∃ n i, f.decode p = .num false n i ∧ p < 2 ^ (f.width - 1) ∧ y = n * (2 : ℚ) ^ i
    let away := r = .rup ∧ neg = false ∨ r = .rdn ∧ neg = true
    let inward := r = .rtz ∨ r = .rup ∧ neg = true ∨ r = .rdn ∧ neg = false
    let ovf := out.2.testBit 2 = true
    let least : ℚ := (2 : ℚ) ^ (1 - (f.bias : ℤ))
    ∀ (top lim : ℚ), value f.maxBits top → lim = (if f = .e4m3 then 480 else (2 : ℚ) ^ (f.bias + 1)) →
      (f = .bf16 → x ≤ least * (255 / 256) → out = (f.zero neg, flagUF + flagNX)) ∧
      (f ≠ .bf16 ∨ least ≤ x →
        (away → (ovf ↔ top < x)) ∧ (inward → (ovf ↔ lim ≤ x)) ∧
        (r = .rne → (x < (top + lim) / 2 → ¬ovf) ∧ ((top + lim) / 2 < x → ovf)) ∧
        (ovf → out.2 = flagOF + flagNX ∧ out.1 = f.zero neg + f.maxBits + if f = .e4m3 ∨ inward then 0 else 1) ∧
        (¬ovf → ∃ p y, out.1 = f.zero neg + p ∧ value p y ∧ (out.2.testBit 4 = true ↔ y ≠ x) ∧
          (out.2.testBit 3 = true → y ≠ x ∧ x < least) ∧
          ∀ p' y', value p' y' →
            (r = .rne → |y - x| ≤ |y' - x| ∧ (|y - x| = |y' - x| → y' ≠ y → p % 2 = 0)) ∧
            (away → x ≤ y ∧ (x ≤ y' → y ≤ y')) ∧ (inward → y ≤ x ∧ (y' ≤ x → y' ≤ y))))

/-- R165, R152: the integer and logic operations, each element read by its type.
R165, R151: integer results wrap without SAT and clamp with it, a clamp is flagged and counted; the bits of a V
result are those of its active elements, and zeros for the others under ZI. -/
def Obligations.VectorInteger : Prop :=
  (∀ (s : State) (h : Head) (d a b : BitVec 5) (m : BitVec 2) (md : Option (BitVec 28)), s.alone →
      let w := if m.toNat < 2 then 32 else 64
      let sg := m.toNat % 2 == 0
      let sat := (Mod.of md).sat
      let lane := fun (v : BitVec 5) (w j : Nat) => (s.me.r.rv v.toNat).toNat / 2 ^ (w * j) % 2 ^ w
      let x := fun j => readInt sg w (lane a w j)
      let y := fun j => readInt sg w (lane b w j)
      (s.ready h [rV d, (Mod.of md).reg, rV a, rV b] →
        let done := fun (i : Instr) (op : Nat) (e : Nat → El) => exec i s = .next (s.vDone d md op w 2 e)
        done (.viadd h d a b m md) 21 (fun j => intEl sg sat w (x j + y j)) ∧
        done (.visub h d a b m md) 22 (fun j => intEl sg sat w (x j - y j)) ∧
        done (.vimul h d a b m md) 23 (fun j => intEl sg sat w (x j * y j)) ∧
        done (.vimulh h d a b m md) 24 (fun j => plainEl ((x j * y j / 2 ^ w % 2 ^ w).toNat)) ∧
        done (.vshl h d a b m md) 28 (fun j => plainEl (lane a w j * 2 ^ (lane b w j % w) % 2 ^ w)) ∧
        done (.vshr h d a b m md) 29 (fun j => plainEl (lane a w j / 2 ^ (lane b w j % w))) ∧
        done (.vsra h d a b m md) 30
          (fun j => plainEl ((readInt true w (lane a w j) / 2 ^ (lane b w j % w) % 2 ^ w).toNat)) ∧
        done (.vimin h d a b m md) 31 (fun j => plainEl (if y j < x j then lane b w j else lane a w j)) ∧
        done (.vimax h d a b m md) 32 (fun j => plainEl (if x j < y j then lane b w j else lane a w j)) ∧
        let bit := fun (i : Instr) (op : Nat) (k : Nat → Nat → Nat) =>
          exec i s = .next (s.vDone d md op 32 2 fun j => plainEl (k (lane a 32 j) (lane b 32 j)))
        bit (.vand h d a b md) 25 (fun x y => x &&& y) ∧ bit (.vor h d a b md) 26 (fun x y => x ||| y) ∧
        bit (.vxor h d a b md) 27 (fun x y => x ^^^ y)) ∧
      (s.ready h [rV d, (Mod.of md).reg, rV a] →
        exec (.vpopc h d a m md) s = .next (s.vDone d md 33 w 2 fun j =>
          plainEl ((List.range w).filter fun k => (lane a w j).testBit k).length) ∧
        exec (.vclz h d a m md) s = .next (s.vDone d md 34 w 2 fun j =>
          plainEl (if lane a w j = 0 then w else w - 1 - Nat.log2 (lane a w j))))) ∧
  ((∀ (sg : Bool) (w : Nat) (v : Int), w = 32 ∨ w = 64 →
      let lo : Int := if sg then -2 ^ (w - 1) else 0
      let hi : Int := if sg then 2 ^ (w - 1) - 1 else 2 ^ w - 1
      intEl sg false w v = ⟨(v % 2 ^ w).toNat, 0, []⟩ ∧
      (lo ≤ v ∧ v ≤ hi → intEl sg true w v = ⟨(v % 2 ^ w).toNat, 0, []⟩) ∧
      (v < lo → intEl sg true w v = ⟨(lo % 2 ^ w).toNat, flagSAT, [0]⟩) ∧
      (hi < v → intEl sg true w v = ⟨(hi % 2 ^ w).toNat, flagSAT, [0]⟩)) ∧
    ∀ (w : Nat) (l : BitVec 128) (zi : Bool) (els : List El), w ∈ [8, 16, 32, 64] → els.length = 4096 / w →
      let r := elemRes w l zi els
      ∀ k, k < 4096 →
        let on := l.getLsbD (k / w * w / 32)
        r.1.getLsbD k = (zi || on) ∧ r.2.getLsbD k = (on && ((els.getD (k / w) ⟨0, 0, []⟩).x).testBit (k % w)))

/-- R166, R167, R168, R169: conversions, compares into a lane mask, and the selection of lanes.
For 64-bit compares, both bits of an element and the mask bit of an inactive one are the model's reading (log 55). -/
def Obligations.ConvertCompareSelect : Prop :=
  ∀ (s : State) (h : Head) (d a b : BitVec 5) (m : BitVec 2) (md : Option (BitVec 28)), s.alone →
    let mo := Mod.of md
    let l := s.me.lanes mo
    let lane := fun (v : BitVec 5) (w j : Nat) => (s.me.r.rv v.toNat).toNat / 2 ^ (w * j) % 2 ^ w
    (s.ready h [rV d, rV a, mo.reg] → ∀ (x : BitVec 4) (p : BitVec 2) (dir : BitVec 1),
      let src := if dir = 0 then xFmt x.toNat else pFmt p.toNat
      let dst := if dir = 0 then pFmt p.toNat else xFmt x.toNat
      let wide := max src.width dst.width
      let els := elsOf wide l fun j => convert src dst (s.me.rmode mo) (lane a src.width j)
      let r := convRes l mo.zi wide dst.width els
      exec (.vcvt h d a x p dir md) s = .next (s.vWhole 4 18 (.v d.toNat r.1 r.2) els)) ∧
    (∀ k : BitVec 28, let mk := Mod.of (some k)
      s.ready h [.l mk.fm, rV a, rV b, mk.reg] → ∀ cond : BitVec 3,
        let f := fpType m
        let w := if m.toNat < 2 then 32 else 64
        let v := fun (r : BitVec 5) j => readInt (m.toNat % 2 == 0) w (lane r w j)
        let fp := cmpMask (s.me.lanes mk) mk.zi f.width fun j =>
          fpCond cond.toNat (f.decode (lane a f.width j)) (f.decode (lane b f.width j))
        let int := cmpMask (s.me.lanes mk) mk.zi w fun j => intCond cond.toNat (v a j) (v b j)
        exec (.vcmp h cond 1 a b m k) s = .next (s.vWhole 2 19 (.l mk.fm fp.1 fp.2) []) ∧
        exec (.vcmp h cond 0 a b m k) s = .next (s.vWhole 2 19 (.l mk.fm int.1 int.2) [])) ∧
    (s.ready h [rV d, rV a, rV b, mo.reg] → ∃ v : Vec,
      exec (.vsel h d a b md) s = .next (s.vWhole 2 20 (.v d.toNat (BitVec.allOnes 4096) v) []) ∧
      ∀ k, k < 4096 → v.getLsbD k =
        if l.getLsbD (k / 32) then (s.me.r.rv a.toNat).getLsbD k else (s.me.r.rv b.toNat).getLsbD k)

/-- R170: the movement instructions, index operands modulo the number of elements. -/
def Obligations.VectorMoves : Prop :=
  ∀ (s : State) (h : Head) (d a b : BitVec 5) (m : BitVec 2) (i : BitVec 7) (md : Option (BitVec 28)), s.alone →
    let mo := Mod.of md
    let w := if m.toNat = 0 then 32 else 64
    let n := 4096 / w
    let lane := fun (v : BitVec 5) (w j : Nat) => (s.me.r.rv v.toNat).toNat / 2 ^ (w * j) % 2 ^ w
    let moves := fun (x : Instr) (op w lat : Nat) (f : Nat → Nat) =>
      exec x s = .next (s.vDone d md op w lat fun j => plainEl (f j))
    (s.ready h [rV d, mo.reg, rV a, rV b] →
      moves (.vperm h d a b m md) 35 w 3 (fun j => lane a w (lane b w j % n))) ∧
    (s.ready h [rV d, mo.reg, rS a] → moves (.vbcast h d a m md) 36 w 2 (fun _ => (s.me.s a).toNat % 2 ^ w)) ∧
    (s.ready h [rV d, mo.reg, rS a, rS b] →
      moves (.viota h d a b m md) 39 w 2 (fun j => ((s.me.s a).toNat + j * (s.me.s b).toNat) % 2 ^ w)) ∧
    (s.ready h [rV d, mo.reg, rV a] →
      moves (.vslide h d a i md) 40 32 3
        (fun j => if j + i.toNat < 128 then lane a 32 (j + i.toNat) else lane d 32 (j + i.toNat - 128)) ∧
      moves (.vmov h d a 0 md) 43 32 2 (fun j => lane a 32 j)) ∧
    (s.ready h [rV d, mo.reg, .q a.toNat] →
      moves (.vmov h d a 1 md) 43 32 2 (fun j => (s.me.r.rq a.toNat).toNat / 2 ^ (32 * j) % 2 ^ 32)) ∧
    (s.ready h [.q d.toNat, rV a, mo.reg] →
      let els := elsOf 32 (s.me.lanes mo) fun j => plainEl (lane a 32 j)
      let r := elemRes 32 (s.me.lanes mo) mo.zi els
      exec (.vmov h d a 2 md) s = .next (s.vWhole 2 43 (.q d.toNat r.1 r.2) els)) ∧
    (s.ready h [rV d, rS a, rS b] →
      let j := (s.me.s b).toNat % n
      exec (.vins h d a b m) s = .next (s.vWhole 2 38 (.v d.toNat (BitVec.ofNat 4096 ((2 ^ w - 1) * 2 ^ (w * j)))
        (BitVec.ofNat 4096 ((s.me.s a).toNat % 2 ^ w * 2 ^ (w * j)))) [])) ∧
    (s.ready h [rV d, rV a, mo.reg] →
      exec (.vcomp h d a m md) s = .next (s.vWhole 3 44 (.v d.toNat (BitVec.allOnes 4096)
        (BitVec.ofNat 4096 (packElems w ((activeOf (s.me.lanes mo) w).map fun j => lane a w j)))) [])) ∧
    (s.ready h [rS d, rV a, rS b] →
      let out := fun v : Word => s.launched [] [⟨.s d.toNat v, s.me.bseq + 2, false, s.me.bseq, s.iss.slot, none, [], none,
        s.iss.unit, none, 0, []⟩]
      exec (.vext h d a b 0) s = .next (out (BitVec.ofNat 64 (lane a 32 ((s.me.s b).toNat % 128)))) ∧
      exec (.vext h d a b 1) s = .next (out (BitVec.ofNat 64 (lane a 64 ((s.me.s b).toNat % 64)))) ∧
      exec (.vext h d a b 2) s = .next (out (signExt (lane a 32 ((s.me.s b).toNat % 128)) 32)))

/-- R171, R172, R173: the reductions, the lane-mask operations, and VSIG, whose result is what classes 1 and 2 fold. -/
def Obligations.ReductionsAndMasks : Prop :=
  ∀ (s : State) (h : Head) (d a b : BitVec 5) (m : BitVec 2) (md : Option (BitVec 28)), s.alone →
    let mo := Mod.of md
    let l := s.me.lanes mo
    let la := s.me.r.rl a.toNat
    (s.ready h [rV d, rV a, mo.reg] →
      let st := redStep b m (s.me.rmode mo) mo.sat
      let ins := redInputs (s.me.r.rv a.toNat) l st.1 st.2.1
      let nan := fun x : Nat => if nanOf (redFp b m) x then [2] else []
      let t := treeRed st.2.2 (Nat.log2 (4096 / st.1)) ins 0 []
      exec (.vred h d a b m md) s = .next (s.vWhole 8 41 (.v d.toNat (BitVec.allOnes 4096) (BitVec.ofNat 4096 t.1))
        [⟨t.1, t.2.1, t.2.2 ++ nan t.1⟩]) ∧
      ∃ els count, exec (.vscan h d a b m md) s = .next (s.vWhole 8 42
        (.v d.toNat (elemRes st.1 l mo.zi els).1 (elemRes st.1 l mo.zi els).2) count) ∧
        els.length = ins.length ∧ (els.map fun e => e.x).head? = ins.head?.map (readFirst (redFp b m)) ∧
        ∀ j, j + 1 < ins.length →
          els.getD (j + 1) ⟨0, 0, []⟩ = st.2.2 (els.getD j ⟨0, 0, []⟩).x (ins.getD (j + 1) 0)) ∧
    (s.ready h [.l d.toNat, .l a.toNat, .l b.toNat] →
      exec (.lmand h d a b) s = .next (s.vWhole 2 45 (.l d.toNat (BitVec.allOnes 128) (la &&& s.me.r.rl b.toNat)) []) ∧
      exec (.lmor h d a b) s = .next (s.vWhole 2 46 (.l d.toNat (BitVec.allOnes 128) (la ||| s.me.r.rl b.toNat)) [])) ∧
    (s.ready h [.l d.toNat, .l a.toNat] →
      exec (.lmnot h d a) s = .next (s.vWhole 2 47 (.l d.toNat (BitVec.allOnes 128) (~~~la)) [])) ∧
    let out := fun (v : Word) (folds : List Word) => s.launched [] [⟨.s d.toNat v, s.me.bseq + 2, false, s.me.bseq,
      s.iss.slot, none, folds, none, s.iss.unit, none, 0, []⟩]
    (s.ready h [rS d, .l a.toNat] →
      exec (.lmpop h d a) s =
        .next (out (BitVec.ofNat 64 ((List.range 128).filter fun i => la.getLsbD i).length) [])) ∧
    (s.ready h [rS d, rV a] →
      let g := (List.range 64).foldl
        (fun g i => sigFold g (BitVec.ofNat 64 ((s.me.r.rv a.toNat).toNat / 2 ^ (64 * i) % 2 ^ 64))) 0
      exec (.vsig h d a) s = .next (out g [g]))

/-- 09 R186 to R193: the LX instructions, interlocked on the iterative unit of their pipe for the cycles of R189: sums,
differences, products and quotients with the crossing mask that FM names, conversions, compares, the sum of a vector and the
logarithm.
09 R178, R182 to R187: words are read and written as the manual says; LXADD and LXMUL are commutative bit for bit; a word less
itself is zero and by itself one; and the index sum of R184 is the recurrence of its steps, whatever its terms come to. That LX
arithmetic and conversion to LX set no NX is the model's choice (log 65). -/
def Obligations.LevelIndex : Prop :=
  (∀ (s : State) (h : Head) (d a b : BitVec 5) (m : BitVec 2) (md : Option (BitVec 28)), s.alone → s.unitsFree →
    let mo := Mod.of md
    let l := s.me.lanes mo
    let t := lxFmt m.toNat
    let lane := fun (v : BitVec 5) (w j : Nat) => (s.me.r.rv v.toNat).toNat / 2 ^ (w * j) % 2 ^ w
    let level := fun (t : LxFmt) (x : Nat) => x / 2 ^ t.f % 8
    let cycles := fun (w : Nat) (lev : Nat → Nat) (cross : Bool) =>
      if activeOf l w = [] then 6 else 6 + 3 * ((activeOf l w).map lev).foldl max 0 + if cross then 3 else 0
    (s.ready h ([rV d, rV a, rV b, mo.reg] ++ if mo.fm = 0 then [] else [.l mo.fm]) →
      let arith := fun (i : Instr) (op : Nat) (k : Nat → Nat → El × Bool) =>
        let e := fun j => if activeElem l t.width j then k (lane a t.width j) (lane b t.width j) else (⟨0, 0, []⟩, false)
        let els := (List.range (4096 / t.width)).map fun j => (e j).1
        let r := elemRes t.width l mo.zi els
        let x := crossMask l mo.zi t.width fun j => decide (j < 4096 / t.width) && (e j).2
        let n := cycles t.width (fun j => level t (lane a t.width j) + level t (lane b t.width j))
          ((List.range (4096 / t.width)).any fun j => (e j).2)
        exec i s = .next (s.launched s.vUnits
          (s.vFlight n true op (.v d.toNat r.1 r.2) els ::
            if mo.fm = 0 then [] else [s.vFlight n true op (.l mo.fm x.1 x.2) []]))
      arith (.lxadd h d a b m md) 0x38 (t.addX false) ∧ arith (.lxsub h d a b m md) 0x39 (t.addX true) ∧
      arith (.lxmul h d a b m md) 0x3A (t.mulX false) ∧ arith (.lxdiv h d a b m md) 0x3B (t.mulX true)) ∧
    (s.ready h [rV d, rV a, mo.reg] →
      (∀ (x : BitVec 4) (w : BitVec 1),
        let t := lxFmt w.toNat
        let f := lxIeeeFmt x.toNat
        let wide := max t.width f.width
        let cvt := fun (dir : BitVec 1) (wd : Nat) (lx : Nat → Nat) (e : Nat → El) =>
          let r := convRes l mo.zi wide wd (elsOf wide l e)
          exec (.lxcvt h d a x w dir md) s = .next (s.launched s.vUnits
            [s.vFlight (cycles wide (fun j => level t (lx j)) false) true 0x3C (.v d.toNat r.1 r.2) (elsOf wide l e)])
        cvt 0 t.width (fun j => (t.ofIeee f (lane a f.width j)).x) (fun j => t.ofIeee f (lane a f.width j)) ∧
        cvt 1 f.width (fun j => lane a t.width j) (fun j => t.toIeee f (s.me.rmode mo) (lane a t.width j))) ∧
      (let xs := redInputs (s.me.r.rv a.toNat) l t.width 0
        let e := t.tree (Nat.log2 (4096 / t.width)) xs ⟨0, 0, []⟩
        let n := if activeOf l t.width = [] then 6 else t.treeCycles (Nat.log2 (4096 / t.width)) xs
        exec (.lxsum h d a m md) s = .next (s.launched s.vUnits
          [s.vFlight n true 0x3E (.v d.toNat (BitVec.allOnes 4096) (BitVec.ofNat 4096 e.x)) [e]])) ∧
      let r := s.vResult d md 32 fun j => t.ln (s.me.rmode mo) (lane a t.width j)
      exec (.lxln h d a m md) s = .next (s.launched s.vUnits
        [s.vFlight (cycles 32 (fun j => level t (lane a t.width j)) false) true 0x3F r.1 r.2])) ∧
    ∀ (cond : BitVec 3) (k : BitVec 28), s.ready h [.l (Mod.of (some k)).fm, rV a, rV b, (Mod.of (some k)).reg] →
      let r := cmpMask (s.me.lanes (Mod.of (some k))) (Mod.of (some k)).zi t.width fun j =>
        t.cond cond.toNat (lane a t.width j) (lane b t.width j)
      exec (.lxcmp h cond a b m k) s = .next (s.launched s.vUnits
        [s.vFlight (if activeOf (s.me.lanes (Mod.of (some k))) t.width = [] then 6 else 4) true 0x3D
          (.l (Mod.of (some k)).fm r.1 r.2) []])) ∧
  (∀ m : Nat, let t := lxFmt m
    let scale : Int := 2 ^ (48 - t.f)
    t.f = (if m = 0 then 27 else 11) ∧
    (∀ x : Nat, x < 2 ^ t.width →
      (x = 0 → t.decode x = .zero) ∧ (x ≠ 0 → x / 2 ^ t.f % 8 = 0 → t.decode x = .nar) ∧
      (x / 2 ^ t.f % 8 ≠ 0 → t.decode x = .val (x.testBit (t.f + 4))
        (x.testBit (t.f + 3) && !decide (x / 2 ^ t.f % 8 = 1 ∧ x % 2 ^ t.f = 0)) (x / 2 ^ t.f % 8) ((x % 2 ^ t.f : Nat) * scale))) ∧
    (∀ (s rc : Bool) (l : Nat) (f : Int), 0 ≤ f → f < 2 ^ 48 → ∃ q : Nat,
      (2 * |q * scale - f| ≤ scale ∧ (2 * |q * scale - f| = scale → q % 2 = 0)) ∧
      let lz := if q = 2 ^ t.f then l + 1 else l
      let fr := if q = 2 ^ t.f then 0 else q
      let word := fun (rc : Bool) (l q : Nat) => q + l * 2 ^ t.f + rc.toNat * 2 ^ (t.f + 3) + s.toNat * 2 ^ (t.f + 4)
      (7 < lz → (t.write s rc l f).el = ⟨word rc 7 (2 ^ t.f - 1), flagCEIL, [3]⟩) ∧
      (lz ≤ 7 → (t.write s rc l f).el = ⟨word (rc && !decide (lz = 1 ∧ fr = 0)) lz fr, 0, []⟩)) ∧
    ∀ x y : Nat, t.addX false x y = t.addX false y x ∧ t.mulX false x y = t.mulX false y x ∧
      (t.decode x = .nar ∨ t.decode y = .nar → ∀ b, t.addX b x y = (⟨t.nar, 0, [2]⟩, false) ∧
        t.mulX b x y = (⟨t.nar, 0, [2]⟩, false)) ∧
      (t.decode x ≠ .nar → t.addX true x x = (⟨0, 0, []⟩, false)) ∧
      (∀ s rc l f, t.decode x = .val s rc l f → (t.mulX true x x).1.x = 2 ^ t.f) ∧
      (t.decode y = .zero → (∀ s rc l f, t.decode x = .val s rc l f →
        t.mulX true x y = (⟨t.nar, flagDZ, [2]⟩, false)) ∧ (t.decode x = .zero → t.mulX true x y = (⟨t.nar, flagNV, [2]⟩, false)))) ∧
  ∀ (lx ly : Nat) (fx fy : Int) (kx ky plus outer : Bool),
    let sg := fun v : Int => if plus = true then v else -v
    let one : Int := 2 ^ 48
    let sum := indexSum lx fx kx ly fy ky plus outer
    let down := fun (lz : Nat) (v : Int) (k : Bool) => some ((levelsDown 8 lz v).1, (levelsDown 8 lz v).2, k)
    let terms := fun (n : Nat) (f : Int) (a : Nat → Int) =>
      a (n - 1) = texp (-f) ∧ ∀ j, 1 ≤ j → j < n → a (j - 1) = texp (-(fixDiv one (a j)))
    texp 0 = one ∧ tln one = 0 ∧ (∀ x, x ≤ 0 → tln x = -(2 ^ 63 - 1)) ∧
    (lx = 0 → (fx + sg fy = 0 → sum = none) ∧ (fx + sg fy ≠ 0 → sum = down 0 (fx + sg fy) false)) ∧
    ∀ (a ay b : Nat → Int) (b0 : Int), 1 ≤ lx → terms lx fx a → (ky = true → 1 ≤ ly → terms ly fy ay) →
      (ly = 0 → b0 = fixMul fy (a 0)) →
      (1 ≤ ly → kx = false → ky = false → ly ≤ lx → b0 = b 0 ∧ b (ly - 1) = fixMul (a (ly - 1)) (texp fy) ∧
        ∀ j, 1 ≤ j → j < ly → b (j - 1) = texp (fixDiv (b j - one) (a j))) →
      (1 ≤ ly → kx = false → ky = true → b0 = fixMul (a 0) (ay 0)) →
      (1 ≤ ly → kx = true → ky = true ∧ lx ≤ ly ∧ b0 = b 0 ∧ b (lx - 1) = fixDiv (ay (lx - 1)) (a (lx - 1)) ∧
        ∀ j, 1 ≤ j → j < lx → b (j - 1) = texp (fixDiv (b j - one) (fixMul (a j) (b j)))) →
      (ly = 0 → kx = false ∧ ky = false) → (kx = false → ky = false → ly ≤ lx) →
      let d := one + sg b0
      let first := if kx = true then -(tln d) else tln d
      let lam := if 0 < a 0 then tln (a 0) else -(2 ^ 63 - 1)
      (d ≤ 0 → sum = none) ∧
      (0 < d → first < lam → (outer = false → sum = some (0, fixDiv d (a 0), false)) ∧
        (outer = true → sum = down 1 (lam - first) (!kx))) ∧
      (0 < d → lam ≤ first → ∀ L : Nat → Int, L 0 = first →
        ∀ k, 1 ≤ k → k ≤ lx → (∀ j, 1 ≤ j → j < k → a j ≤ one + fixMul (a j) (L (j - 1)) ∧
            L j = tln (one + fixMul (a j) (L (j - 1)))) →
          let c := one + fixMul (a k) (L (k - 1))
          (k = lx → sum = down lx (max 0 (fx + L (lx - 1))) kx) ∧
          (k < lx → c < a k → sum = some (k, if c ≤ 0 then 0 else fixDiv c (a k), kx)))

/-! ### Matrix instructions -/

/-- 10 R196, R201, R204 to R207, R210, R212, R213, R217 to R219, R221; 11 R235: the X operations that make no entry. One
that must wait for another stalls its bundle. Else the first check that fails traps, with its cause and FAULTVA; with
none the operation starts, and lands after its engine steps with the effect named: the weight buffer read from the LSP,
the t values of a k-step, the status, the corrected entry, or the zeros.
The model's choices here: waiting comes before the checks (log 16); the checks come in the order chain, format, rows, address, and
an XFIX with LOC = 0 checks the chain alone (log 17); a group that an operation under way is to write whole passes the group check
of an XMAC (log 23); all bytes are read, and the tests of XCHK and XFIX made, at the start (log 15). -/
def Obligations.MatrixOperations : Prop :=
  ∀ (s : State) (h : Head) (d a b : BitVec 5) (m : BitVec 2) (ds : BitVec 28), s.alone →
    let c := s.me
    let cfg := c.r.mxcfg.toNat
    let fmt := cfgFmt cfg
    let rows := c.dsRows ds
    let row := dsRow ds
    let k := s.core (coreOf s.cur)
    let chain := fun (free : Bool) (ok : Chain → Bool) =>
      ((match c.openChain with | none => !free | some ch => !ok ch, 0x03, 0) : Bool × Nat × Nat)
    let format := ((decide (4 < fmt), 0x02, 0) : Bool × Nat × Nat)
    let range := [(decide (c.accRows < row + dsCount ds), 0x09, max row c.accRows),
      (row / 128 != (row + dsCount ds - 1) / 128, 0x02, 0)]
    let group := fun but' rs : List Nat => (rs.any fun r => k.acc.ginv.getLsbD (r / 64) && !but'.contains (r / 64), 0x03, 0)
    let sound := fun rs : List Nat => rs.all fun r => !(k.acc.bad.any fun e => e / 128 == r)
    let lsp := fun va n : Nat => [(va % 16 != 0, 0x08, va), (decide (va < 0xC0000) && decide (0xC0000 < va + n), 0x07, va),
      (decide (0xC0000 ≤ va), 0x09, va)]
    let runs := fun (i : Instr) (touch : List RegId) (checks : List (Bool × Nat × Nat)) (clean : Bool) (r : XReq)
        (land : Option Nat) (eff : MxEff) =>
      s.ready h touch →
        (∀ w, s.mxWaits s.cur r.op r.ds r.rows = some w → exec i s = .next (s.stalled w)) ∧
        (s.mxWaits s.cur r.op r.ds r.rows = none → ∀ x, checks.find? (fun e => e.1) = some x →
          exec i s = .next (s.trapped (s.accTrap x.2.1 x.2.2))) ∧
        ((∀ x ∈ checks, x.1 = false) → clean = true → s.engineFree r → exec i s = .next (s.engaged r land eff))
    let va := (c.s a).toNat
    let pa := pkLsp (coreOf s.cur) va
    let image := imageSize fmt (cfgSp cfg)
    let block := dsCount ds * blockSize fmt
    let buf := k.wb (bits ds.toNat 16 1)
    let step := fun (z : Bool) (op : Nat) =>
      let r := s.xreq op 0 (c.s a) 0 ds.toNat rows [[(pa, block)]] (some buf)
      runs (if z then .xmacz h a ds else .xmac h a ds) [rS a]
        ([if z then chain true (fun ch => !ch.macSeen) else chain false (fun ch => ch.begun && rows.all ch.init.contains),
          format, (decide (fmtPlanes fmt < cfgPrec cfg) || (cfgPrec cfg != 0 && decide (2 ≤ fmt) &&
            decide (cfgPrec cfg < fmtPlanes fmt)), 0x02, 0), (!buf.loaded || buf.fmt != fmt, 0x02, 0),
          (!buf.valid, 0x03, 0), group (if z then wholeGroups rows else []) rows] ++ range ++ lsp va block)
        (!s.poisonedRange pa block && (z || sound rows)) r (some (14 + mxBusy op rows.length cfg))
        (.mac z (fmtFloat fmt) (s.mxProducts [] r buf))
    (let read := readImage (s.peek pa image) fmt (cfgSp cfg) ((c.s b).truncate 32);
      runs (.xwld h a b m) [rS a, rS b]
        ([chain true (fun ch => ch.begun), format, (cfgSp cfg && decide (3 ≤ fmt), 0x02, 0)] ++ lsp va image)
        (!s.poisonedRange pa image) (s.xreq 1 0 (c.s a) (c.s b) m.toNat [] [[(pa, image)]] none) (some 72)
        (.wld (bits m.toNat 0 1) read.1 (read.2.map fun o => c.s a + BitVec.ofNat 64 o))) ∧
    step false 2 ∧ step true 3 ∧
    runs (.xchk h d ds) [rS d] ([chain true (fun _ => false), format] ++ range ++ [group [] rows]) (sound rows)
      (s.xreq 9 d.toNat 0 0 ds.toNat rows [] none) (some 40)
      (.status d.toNat (k.acc.chkStatus (fmtFloat fmt) (cfgTol cfg) row rows) none) ∧
    runs (.xclr h ds) [] ([chain true (fun ch => !ch.macSeen), format] ++ range) true
      (s.xreq 11 0 0 0 ds.toNat rows [] none) (some (2 + (rows.length + 3) / 4)) (.clr (fmtFloat fmt)) ∧
    let fixRow := bits va 16 9
    let fix := fun (loc : Bool) (named : List Nat) (checks : List (Bool × Nat × Nat)) (x : Word)
        (entry : Option (Nat × Nat × BitVec 32)) =>
      bits va 32 1 = (if loc then 1 else 0) →
        runs (.xfix h d a) [rS d, rS a] ([chain true (fun _ => false)] ++ checks) (sound named)
          (s.xreq 10 d.toNat (c.s a) 0 0 named [] none) (some 40) (.status d.toNat x entry)
    fix false [] [] 1 none ∧
    let phys := c.al.physRow fixRow
    let done := k.acc.fix (fmtFloat fmt) (cfgTol cfg) phys (bits va 25 7)
    let named := if fixRow < c.accRows then [phys] else []
    fix true named [format, (decide (c.accRows ≤ fixRow), 0x09, fixRow), group [] named]
      (BitVec.ofNat 64 done.1) (done.2.map fun v => (phys, bits va 25 7, BitVec.ofNat 32 v))

/-- 10 R204, R214, R215, R216, R224: XACCLD, XACCST and XEPI. One that must wait for another stalls its bundle; then the first
check that fails traps: the chain, the format, PL = 1 with FP32 or INT32, the row range, an invalid group, the alignment of s[a]
and s[b], then each row in turn as any access of it is checked, where a lock-enforced tile is PERMISSION. XACCLD waits
for its data. XACCST and XEPI hand the payload of each row to the output stage as one entry, each row's address and
transport checksum folded, unless the automatic check of class 1 or 2, or of XC, fails: the entry then holds no payload, and
CHECKSUM lands. The order of the checks, and that XACCST in class 0 without XC checks no format, are the model's choice (log 17);
so is waiting before the checks (log 16). No rule redirects an X operand with a = 30 (06 R104 names loads and stores; log 17). -/
def Obligations.MatrixMemory : Prop :=
  ∀ (s : State) (h : Head) (a b : BitVec 5) (ds : BitVec 28) (es : List (Nat × List (Nat × Nat))), s.alone →
    s.ready h [rS a, rS b] →
    let c := s.me
    let cfg := c.r.mxcfg.toNat
    let fp := fmtFloat (cfgFmt cfg)
    let rows := c.dsRows ds
    let row := dsRow ds
    let k := s.core (coreOf s.cur)
    let fits := row + dsCount ds ≤ c.accRows ∧ row / 128 = (row + dsCount ds - 1) / 128
    let valid := ∀ r ∈ rows, k.acc.ginv.getLsbD (r / 64) = false ∧ ∀ e ∈ k.acc.bad, e / 128 ≠ r
    let req := fun op : Nat => s.xreq op 0 (c.s a) (c.s b) ds.toNat rows (es.map fun e => e.2) none
    let named := fun (acc : Acc) (n : Nat) =>
      (c.s a).toNat % 16 = 0 ∧ (c.s b).toNat % 16 = 0 ∧ es.length = dsCount ds ∧
        ∀ (i : Nat) (e : Nat × List (Nat × Nat)), es[i]? = some e →
          e.1 = (c.s a + BitVec.ofNat 64 i * c.s b).toNat ∧ s.checkAddr s.cur false acc false e.1 n 1 = .ok e.2
    let fails := (1 ≤ c.pcls ∨ cfgXC cfg = true) ∧ (k.acc.tests fp (cfgTol cfg) rows).1 ++
      (k.acc.tests fp (cfgTol cfg) rows).2.1 ≠ []
    (let chain := fun ok : Chain → Bool => ((match c.openChain with | none => false | some ch => !ok ch, 0x03, 0) : Bool × Nat × Nat)
      let format := ((decide (4 < cfgFmt cfg), 0x02, 0) : Bool × Nat × Nat)
      let range := [(decide (c.accRows < row + dsCount ds), 0x09, max row c.accRows),
        (row / 128 != (row + dsCount ds - 1) / 128, 0x02, 0)]
      let group := (rows.any fun r => k.acc.ginv.getLsbD (r / 64), 0x03, 0)
      let ofmt := bits ds.toNat 16 3
      ∀ (i : Instr) (op n : Nat) (acc : Acc) (checks : List (Bool × Nat × Nat)), (i, op, n, acc, checks) ∈
          [(Instr.xaccld h a b ds, 7, 512, Acc.read, [chain fun ch => !ch.macSeen, format] ++ range),
            (.xaccst h a b ds, 8, 512, .write, [chain fun _ => false] ++
              (if 1 ≤ c.pcls ∨ cfgXC cfg = true then [format] else []) ++ range ++ [group]),
            (.xepi h a b ds, 6, 16 * ofmtWidth ofmt, .write,
              [chain fun _ => false, format, (bits ds.toNat 19 1 == 1 && (ofmt == 0 || ofmt == 4), 0x02, 0)] ++ range ++ [group])] →
        let ea := fun j : Nat => (c.s a + BitVec.ofNat 64 j * c.s b).toNat
        let trap := fun (cause va : Nat) => exec i s = .next (s.trapped (s.accTrap cause va))
        (∀ w, s.mxWaits s.cur op ds.toNat rows = some w → exec i s = .next (s.stalled w)) ∧
        (s.mxWaits s.cur op ds.toNat rows = none →
          (∀ x, checks.find? (fun e => e.1) = some x → trap x.2.1 x.2.2) ∧
          ((∀ x ∈ checks, x.1 = false) →
            ((c.s a).toNat % 16 ≠ 0 → trap 0x08 (c.s a).toNat) ∧
            ((c.s a).toNat % 16 = 0 → (c.s b).toNat % 16 ≠ 0 → trap 0x08 (c.s a + c.s b).toNat) ∧
            ((c.s a).toNat % 16 = 0 → (c.s b).toNat % 16 = 0 → ∀ j, j < dsCount ds →
              (∀ j', j' < j → ∃ ps, s.checkAddr s.cur false acc false (ea j') n 1 = .ok ps) →
              (∀ cause va, s.checkAddr s.cur false acc false (ea j) n 1 = .bad cause va → trap cause va) ∧
              (∀ w, s.checkAddr s.cur false acc false (ea j) n 1 = .wait w → exec i s = .next (s.stalled w)) ∧
              (∀ at' w, 2 ^ 32 ≤ ea j → ea j + n ≤ 2 ^ 57 → ea j % 2 ^ 16 + n ≤ 2 ^ 16 →
                s.leafOf (coreOf s.cur) c.space 0 (ea j / 2 ^ 16) = .leaf at' w → bits w 56 1 = 0 → bits w 57 1 = 1 →
                trap 0x09 (ea j)))))) ∧
    (fits →
      ((∀ ch, c.openChain = some ch → ch.macSeen = false) → cfgFmt cfg ≤ 4 → named .read 512 →
        (∀ e ∈ es, ∀ p ∈ e.2, s.poisonedRange p.1 p.2 = false) → s.engineFree (req 7) →
        exec (.xaccld h a b ds) s = .next (s.engaged (req 7) none
          (.ld fp (rows.zip (es.map fun e => BitVec.ofNat 4096 (leNat (s.peekPieces [] e.2))))))) ∧
      ∀ (i : Instr) (op n : Nat), (i, op, n) ∈ [(Instr.xaccst h a b ds, 8, 512),
          (.xepi h a b ds, 6, 16 * ofmtWidth (bits ds.toNat 16 3))] →
        c.openChain = none → (op = 6 ∨ 1 ≤ c.pcls ∨ cfgXC cfg = true → cfgFmt cfg ≤ 4) →
        (op = 6 → bits ds.toNat 19 1 = 1 → bits ds.toNat 16 3 ≠ 0 ∧ bits ds.toNat 16 3 ≠ 4) → valid → named .write n →
        s.engineFree (req op) →
        (fails →
          let none' := EntOp.cmd { mxCmd s.cur c (req op) [] with rows := [] }
          s.roomFor none' 1 none 2 [] →
          exec i s = .next ((s.setMe { c with
            mx := [s.mxOp (req op) (some (mxBusy op rows.length cfg)) (.chk true) false] }).entered none' 1 none 2 [])) ∧
        let out := rows.map fun x => mxPayload (req op) (k.acc.row x)
        let cmd := EntOp.cmd (mxCmd s.cur c (req op) (out.map fun e => e.1))
        let folds := (out.zipIdx.map fun e => [c.s a + BitVec.ofNat 64 e.2 * c.s b, BitVec.ofNat 64 (transportSum e.1.1)]).flatten
        ¬fails → k.outst < 4 → s.roomFor cmd 1 none 2 folds →
          exec i s = .next ((s.staged (req op) (out.flatMap fun e => e.2)).entered cmd 1 none 2 folds))

/-- 10 R207, R208, R220, R222: XBEGIN opens a chain, XEND closes the one that is open, whose k-steps are then applied
and, with all of them landed, folded; XCFG writes MXCFG outside a chain. Out of place each raises CHAININVALID. That an XEND is out
of place in a chain with no step yet is the model's choice (log 17). -/
def Obligations.MatrixChains : Prop :=
  ∀ (s : State) (h : Head) (a : BitVec 5), s.alone →
    let c := s.me
    let bad := s.trapped ⟨0x03, 0, s.iss.pc, s.iss.slot, 0, 0, 0, 0, .handler⟩
    let p := c.passed s.iss.pc s.fallThrough
    (s.ready h [] →
      (c.openChain = none → exec (.xbegin h) s = .next (s.after { p with
        chains := c.chains ++ [⟨c.bseq, false, false, [], [], false, []⟩], r := { p.r with mxcfg := c.r.mxcfg ||| 2 ^ 63 } })) ∧
      (c.openChain ≠ none → exec (.xbegin h) s = .next bad) ∧
      (∀ ch, c.openChain = some ch → ch.begun = true →
        exec (.xend h) s = .next ((s.after (({ p with r := { p.r with mxcfg := c.r.mxcfg &&& ~~~(2 ^ 63) } } : Ctx).setChain
          { ch with closed := true })).chainFolds s.cur)) ∧
      ((∀ ch, c.openChain = some ch → ch.begun = false) → exec (.xend h) s = .next bad)) ∧
    (s.ready h [rS a] →
      (c.openChain = none → exec (.xcfg h a) s = .next (s.wrote (.csr 0x012 (BitVec.allOnes 64) (c.s a)))) ∧
      (c.openChain ≠ none → exec (.xcfg h a) s = .next bad))

/-- 10 R198, R201, R205, R206, R217: a plane block holds its 128 elements; a 4-bit group of a mask names two of four
elements or none; the entries of an integer k-step are the exact sums of products, which accumulate with saturation; and
a row that passes its row-sum test still passes it after a step that saturates nothing.
10 R205: the entries and the checksum column entry of a floating k-step: exact products of the A elements as read from their planes,
truncated to the window of 60 bits below the largest, summed exactly, rounded once, and for E4M3 multiplied by the scale; they
accumulate as FP32 sums. -/
def Obligations.MatrixArithmetic : Prop :=
  (∀ (fmt : Nat) (xs : List Nat), fmt ≤ 4 → xs.length = 128 → (∀ x ∈ xs, x < 2 ^ fmtWidth fmt) →
    (elemsBlock xs (fmtWidth fmt)).length = blockSize fmt ∧ blockElems (elemsBlock xs (fmtWidth fmt)) fmt = xs) ∧
  (∀ m x y : Nat, m < 16 → (maskPair m = some (x, y) ↔ x < y ∧ y < 4 ∧ m = 2 ^ x + 2 ^ y)) ∧
  (∀ (fmt p n : Nat) (av : List Nat) (buf : WBuf) (cBf : List FVal) (cBi : List Int) (scA : Nat), 2 ≤ fmt → n < 128 →
    av.length = 128 → buf.cols.length = 128 →
    let dot := ((List.range 128).map fun k => intElem fmt (av.getD k 0) * intElem fmt (colElem (buf.cols.getD n 0) k)).sum
    toSigned (rowEntry (stepRow fmt p av buf cBf cBi scA).1 n) 32 = Int.bmod dot (2 ^ 32)) ∧
  (∀ (acc : AccStore) (z : Bool) (r n : Nat) (t : Vec) (tc : Word), n < 128 →
    let new := (acc.stepInto false z r t tc none).1
    let sum := (if z then 0 else toSigned (rowEntry (acc.row r) n) 32) + toSigned (rowEntry t n) 32
    toSigned (rowEntry (new.row r) n) 32 = max (-2 ^ 31) (min (2 ^ 31 - 1) sum) ∧
    ∀ r', r' ≠ r → new.row r' = acc.row r' ∧ new.col r' = acc.col r') ∧
  (∀ (acc : AccStore) (z : Bool) (tolf r : Nat) (t : Vec) (tc : Word),
    acc.rowFails false tolf r = false →
    tc = BitVec.ofInt 64 (((List.range 128).map fun n => toSigned (rowEntry t n) 32).sum) →
    (acc.stepInto false z r t tc none).2 = 0 → (acc.stepInto false z r t tc none).1.rowFails false tolf r = false) ∧
  (∀ (fmt p : Nat) (av : List Nat) (buf : WBuf) (cBf : List FVal) (cBi : List Int) (scA : Nat), fmt ≤ 1 → 1 ≤ p →
    av.length = 128 → buf.cols.length = 128 → cBf.length = 128 →
    let f := if fmt = 0 then Fmt.e4m3 else Fmt.bf16
    let cut := 2 ^ ((if fmt = 0 then 4 else 8) - p)
    let scale := mul32 scA buf.scB.toNat
    let isT := fun (b : Nat → FVal) (t : Nat) =>
      let prod := fun k : Nat => (mulV (f.decode (av.getD k 0 / cut * cut)) (b k)).1
      let out := fun x : Nat => if fmt = 0 then mul32 x scale else x
      let inf := fun neg : Bool => ∃ k, k < 128 ∧ prod k = .inf neg
      ((∃ k, k < 128 ∧ prod k = .nan) ∨ inf true ∧ inf false → t = out 0x7FC00000) ∧
      ((∀ k, k < 128 → prod k ≠ .nan) → ∀ neg, inf neg → ¬inf (!neg) → t = out (if neg = true then 0xFF800000 else 0x7F800000)) ∧
      ∀ (sign : Nat → Bool) (m : Nat → Nat) (e : Nat → Int), (∀ k, k < 128 → prod k = .num (sign k) (m k) (e k)) →
        let mag := fun k : Nat => (m k * (2 : ℚ) ^ e k : ℚ)
        ((∀ k, k < 128 → m k = 0) → t = out 0) ∧
        ∀ top : Int, (∀ k, k < 128 → mag k < (2 : ℚ) ^ (top + 1)) → (∃ k, k < 128 ∧ (2 : ℚ) ^ top ≤ mag k) →
          let unit := (2 : ℚ) ^ (top - 60)
          let sum := (List.range 128).foldl (fun z k => z + (if sign k = true then -1 else 1) * (⌊mag k / unit⌋ * unit)) (0 : ℚ)
          (sum = 0 → t = out 0) ∧
          (sum ≠ 0 → ∃ (n : Nat) (g : Int), n * (2 : ℚ) ^ g = |sum| ∧ t = out (Fmt.f32.roundMag .rne (decide (sum < 0)) n g false).1)
    (∀ n, n < 128 → isT (fun k => f.decode (colElem (buf.cols.getD n 0) k)) (rowEntry (stepRow fmt p av buf cBf cBi scA).1 n)) ∧
    isT (fun k => cBf.getD k .nan) (stepRow fmt p av buf cBf cBi scA).2.toNat) ∧
  ∀ (acc : AccStore) (z : Bool) (r n : Nat) (t : Vec) (tc : Word), n < 128 →
    rowEntry ((acc.stepInto true z r t tc none).1.row r) n = if z = true then rowEntry t n else
      (Fmt.f32.addV .rne (Fmt.f32.decode (rowEntry (acc.row r) n)) (Fmt.f32.decode (rowEntry t n))).1

/-! ### Streams and tasks -/

/-- 02 R39; 11 R225, R228, R231, R232, R235: CPY, CPYP and CPYW. A handle of a rank above 4 is ILLEGAL; a control word with a
bit set that must be zero, or with a counter that is not aligned, an LSP side that does not lie wholly in one LSP, a row pitch
below the row, and boxes that are not whole plane blocks are PERMISSION. Else the instruction completes: the command enters the
buffer, and its operands are folded. A CPYW that passes its checks waits while a weight load of its core is not yet current. The
model's choices here: with no usable descriptor 16 bytes are checked (log 18); the rows of a CPYP with m = 1 are packed (log 25);
RESERVEDCOMBO comes after MISALIGN and before PERMISSION (log 17). -/
def Obligations.CopyCommands : Prop :=
  ∀ (s : State) (h : Head) (d a b : BitVec 5), s.alone →
    let c := s.me
    let w := (c.s b).toNat
    let va := (c.s d).toNat
    let sa := (c.s a).toNat
    let n := c.r.rn a.toNat
    let ce := w / 2 ^ 54 % 2 = 1
    let ctr := c.r.rs (b.toNat + 1)
    let bad := fun zeros : List Nat => zeros.any (fun i => w.testBit i) || (decide ce && (b == 31 || ctr.toNat % 8 != 0))
    let word := fun i : Instr => BitVec.ofNat 64 (slotWord i + if s.iss.slot + 1 = s.iss.n then 2 ^ 31 else 0)
    let parts := fun x : BitVec 256 => (List.range 4).map fun i => BitVec.ofNat 64 (x.toNat / 2 ^ (64 * i))
    let tail := c.s b :: if ce then [ctr] else []
    let runs := fun (i : Instr) (touch : List RegId) (checks : List (Bool × Nat × Nat)) (m : Cmd) (path : Nat)
        (folds : List Word) =>
      s.ready h touch → (ce → b ≠ 31 → c.pending (.s (b.toNat + 1)) = false) →
        (∀ x, checks.find? (fun e => e.1) = some x → exec i s = .next (s.trapped (s.accTrap x.2.1 x.2.2))) ∧
        ((∀ x ∈ checks, x.1 = false) → s.roomFor (.cmd m) 1 none path (word i :: folds) →
          exec i s = .next (s.entered (.cmd m) 1 none path (word i :: folds)))
    let cols := w % 2 ^ 16 + 1
    let rows := w / 2 ^ 16 % 2 ^ 16 + 1
    let row := fun bits : Nat => (cols * bits + 127) / 128 * 16
    let pitch := fun bits : Nat => if w / 2 ^ 32 % 2 ^ 16 = 0 then row bits else 16 * (w / 2 ^ 32 % 2 ^ 16)
    let image := fun bits : Nat => pitch bits < row bits || !lspWhole va ((rows - 1) * pitch bits + row bits)
    let plane := [1, 4, 8, 16].getD (w / 2 ^ 62) 0
    let planes := cols / 128 * rows * (16 * plane)
    let usable := s.cmdDesc n
    let rank := (decide (4 ≤ n.toNat / 2 ^ 23 % 2 ^ 3), 0x01, 0)
    let dst := (va % 16 != 0, 0x08, va)
    let src := (sa % 16 != 0, 0x08, sa)
    runs (.cpyHandle h d a b) [rS d, .n a.toNat, rS b]
      [rank, dst, (bad [62, 63] || (match usable with | some ds => image (2 ^ ds.eb) | none => !lspWhole va 16), 0x09, w)]
      (s.mkCmd .cpyH 1 b [c.s d, c.s b] n.toNat) 1 (c.s d :: parts n ++ tail) ∧
    runs (.cpyAddress h d a b) [rS d, rS a, rS b]
      [dst, src, (bad ([62, 63] ++ (List.range 16).map (16 + ·)) || !lspWhole va (16 * cols) || lspSplit sa (16 * cols), 0x09, w)]
      (s.mkCmd .cpyA 1 b [c.s d, c.s a, c.s b] 0) 1 (c.s d :: c.s a :: tail) ∧
    runs (.cpypHandle h d a b) [rS d, .n a.toNat, rS b]
      [rank, dst, (bad [] || cols % 128 != 0 || (match usable with
        | some ds => if ds.layout = 1 then image plane else !lspWhole va planes
        | none => !lspWhole va 16), 0x09, w)]
      (s.mkCmd .cpypH 2 b [c.s d, c.s b] n.toNat) 1 (c.s d :: parts n ++ tail) ∧
    runs (.cpypAddress h d a b) [rS d, rS a, rS b]
      [dst, src, (bad [] || cols % 128 != 0 || !lspWhole va planes || lspSplit sa (rows * row plane), 0x09, w)]
      (s.mkCmd .cpypA 2 b [c.s d, c.s a, c.s b] 0) 1 (c.s d :: c.s a :: tail) ∧
    let cfg := c.r.mxcfg.toNat
    let checks := [(sa % 128 != 0, 0x08, sa), (decide (4 < cfgFmt cfg), 0x02, 0), (cfgSp cfg && decide (3 ≤ cfgFmt cfg), 0x02, 0),
      (bad ([62, 63] ++ (List.range 48).map (1 + ·)), 0x09, w)]
    let m := s.mkCmd .cpyw 3 b [c.s a, c.s b] 0
    let folds := word (.cpyw h a b) :: c.s a :: tail
    s.ready h [rS a, rS b] → (ce → b ≠ 31 → c.pending (.s (b.toNat + 1)) = false) →
      (∀ x, checks.find? (fun e => e.1) = some x → exec (.cpyw h a b) s = .next (s.trapped (s.accTrap x.2.1 x.2.2))) ∧
      ((∀ x ∈ checks, x.1 = false) → (s.core (coreOf s.cur)).wload = [] → s.roomFor (.cmd m) 1 none 3 folds →
        let t := s.entered (.cmd m) 1 none 3 folds
        let k := s.core (coreOf s.cur)
        exec (.cpyw h a b) s = .next (t.setCore (coreOf s.cur) { k with wload := [(w % 2, s.cur)] })) ∧
      ((∀ x ∈ checks, x.1 = false) → (s.core (coreOf s.cur)).wload ≠ [] →
        exec (.cpyw h a b) s = .next (s.stalled (.part 0)))

/-- 11 R225, R228, R241 to R244; 14 R302, R307 to R309: the other commands: SUBS, SUBE, COLL, FPUT, TSPAWN and KLAUNCH.
A failed check traps; else the instruction completes: the command enters the buffer with its operands folded after its slot
word. The destination of a COLL is checked for the bytes that its operation writes: those of one participant, of all, or a
participant's share; for 16 where its group is not registered, whose command the engine ends (11 R228, R243). -/
def Obligations.OtherCommands : Prop :=
  ∀ (s : State) (h : Head) (d a b : BitVec 5), s.alone →
    let c := s.me
    let w := (c.s b).toNat
    let va := (c.s d).toNat
    let sa := (c.s a).toNat
    let n := c.r.rn a.toNat
    let x := c.r.rh d.toNat
    let ce := w / 2 ^ 54 % 2 = 1
    let ctr := c.r.rs (b.toNat + 1)
    let bad := fun zeros : List Nat => zeros.any (fun i => w.testBit i) || (decide ce && (b == 31 || ctr.toNat % 8 != 0))
    let word := fun i : Instr => BitVec.ofNat 64 (slotWord i + if s.iss.slot + 1 = s.iss.n then 2 ^ 31 else 0)
    let parts := fun x : BitVec 256 => (List.range 4).map fun i => BitVec.ofNat 64 (x.toNat / 2 ^ (64 * i))
    let view := BitVec.ofNat 64 ((s.handleView s.cur x).toNat)
    let tail := c.s b :: if ce then [ctr] else []
    let puts := fun (i : Instr) (m : Cmd) (path : Nat) (folds : List Word) =>
      s.roomFor (.cmd m) 1 none path (word i :: folds) →
        exec i s = .next (s.entered (.cmd m) 1 none path (word i :: folds))
    let runs := fun (i : Instr) (touch : List RegId) (checks : List (Bool × Nat × Nat)) (m : Cmd) (path : Nat)
        (folds : List Word) =>
      s.ready h touch → (ce → b ≠ 31 → c.pending (.s (b.toNat + 1)) = false) →
        (∀ x, checks.find? (fun e => e.1) = some x → exec i s = .next (s.trapped (s.accTrap x.2.1 x.2.2))) ∧
        ((∀ x ∈ checks, x.1 = false) → puts i m path folds)
    let subs := fun (i : Instr) (op : CmdOp) (load : Bool) =>
      runs i [.h d.toNat, .n a.toNat, rS b]
        [(decide (4 ≤ n.toNat / 2 ^ 23 % 2 ^ 3), 0x01, 0), (bad [48, 62, 63] || !x.getLsbD 33 || x.getLsbD 35 == load, 0x09, w)]
        (s.mkCmd op 4 b [c.s b] (n.toNat + 2 ^ 256 * x.toNat)) 4 (view :: parts n ++ tail)
    subs (.subsLoad h d a b) .subsLoad true ∧ subs (.subsStore h d a b) .subsStore false ∧
    (s.ready h [.h d.toNat] → puts (.sube h d) (s.mkCmd .sube 5 0 [] (2 ^ 256 * x.toNat)) 4 [view]) ∧
    (let bytes := (w % 2 ^ 24 + 1) * ([4, 2, 2, 8, 4, 8].getD (w / 2 ^ 24 % 8) 8);
      let dest := match s.group (s.iocOf s.cur) (w / 2 ^ 32 % 2 ^ 16) with
        | .error _ => 16
        | .ok e =>
          if e.testBit 0 = false then 16
          else [bytes, (e / 2 ^ 32 % 2 ^ 13 + 1) * bytes].getD (w / 2 ^ 27 % 4) (bytes / (e / 2 ^ 32 % 2 ^ 13 + 1))
      runs (.coll h d a b) [rS d, rS a, rS b]
        [(va % 16 != 0, 0x08, va), (sa % 16 != 0, 0x08, sa),
          (bad [31, 48, 62, 63] || 6 ≤ w / 2 ^ 24 % 8 || w / 2 ^ 27 % 4 = 3 || w / 2 ^ 29 % 4 = 3 || lspSplit sa bytes ||
            lspSplit va (max 1 dest), 0x09, w)]
        (s.mkCmd .coll 0x0B b [c.s d, c.s a, c.s b] 0) 5 (c.s d :: c.s a :: tail)) ∧
    runs (.fput h d a b) [rS d, rS a, rS b]
      [(va % 16 != 0, 0x08, va), (sa % 16 != 0, 0x08, sa),
        (bad ([62, 63] ++ (List.range 25).map (24 + ·)) || lspSplit sa (16 * (w % 2 ^ 24 + 1)), 0x09, w)]
      (s.mkCmd .fput 0x0C b [c.s d, c.s a, c.s b] 0) 5 (c.s d :: c.s a :: tail) ∧
    (s.ready h [rS d, rS a, rS b] →
      let kernel := s.kernels.find? c.al.kernel
      let refused := va / 2 ^ 11 ≠ 0 ∨ sa.testBit 48 = true ∨ (kernel.map fun k => k.types.length).getD 0 ≤ sa / 2 ^ 52 ∨
        (d ≠ 0 ∧ va.testBit 7 = false ∧ (kernel.map fun k => k.clus.length).getD 0 ≤ va % 2 ^ 7) ∨
        (va.testBit 10 = true ∧ c.hnd = false) ∨ (sa.testBit 49 = false ∧ w ≠ 0)
      (refused → exec (.tspawn h d a b) s = .next (s.trapped (s.accTrap 0x09 sa))) ∧
      (¬refused → puts (.tspawn h d a b)
        { s.mkCmd .tspawn 9 0 [c.s d, c.s a, c.s b] (if d = 0 then 1 else 0) with cfg := c.prio.toNat % 4 } noPath
        [c.s d, c.s a, c.s b])) ∧
    (s.ready h [rS a] →
      (∀ ps, s.checkAddr s.cur true .read false sa 8 8 = .ok ps →
        puts (.klaunch h a) (s.mkCmd .klaunch 0x0A 0 [c.s a] 0) 5 [c.s a]) ∧
      (∀ cause va, s.checkAddr s.cur true .read false sa 8 8 = .bad cause va →
        exec (.klaunch h a) s = .next (s.trapped (s.accTrap cause va))))

/-- 11 R237 to R240, R245: HSET binds a handle to the ring entry that its word names; HWAIT waits at the end of its
bundle for as many slots as it names; HADV enters the buffer; QSTAT answers with what its selector names, and selector 5
clears the overflow mark and selector 10 removes the head of the engine-fault queue. FAULTVA 0 where no rule names an address is
the model's choice (log 50). -/
def Obligations.RingsAndStatus : Prop :=
  ∀ (s : State) (h : Head) (d a : BitVec 5) (i : BitVec 7), s.alone →
    let c := s.me
    let w := (c.s a).toNat
    let x := c.r.rh a.toNat
    let bound := x.getLsbD 33 = true
    let slots := (x.toNat / 2 ^ 25 % 2 ^ 8 + 1)
    let core := 4 * c.al.home + x.toNat / 2 ^ 36 % 4
    let rix := x.toNat / 2 ^ 38 % 32
    let prod := x.getLsbD 35
    let refuse := fun (i : Instr) (va : Word) =>
      exec i s = .next (s.trapped ⟨0x09, 0, s.iss.pc, s.iss.slot, va, 0, 0, 0, .handler⟩)
    let word := fun i : Instr => BitVec.ofNat 64 (slotWord i + if s.iss.slot + 1 = s.iss.n then 2 ^ 31 else 0)
    (s.ready h [.h d.toNat, rS a] →
      let got := s.given (((s.core (4 * c.al.home + w % 4)).rings.at 0 (w / 2 ^ 2 % 32)).truncate 64)
      (2 ^ 8 ≤ w → refuse (.hset h d a) (c.s a)) ∧
      (w < 2 ^ 8 → got = none → exec (.hset h d a) s = .next (s.stalled .twin)) ∧
      ∀ t y, w < 2 ^ 8 → got = some (t, y) →
        let e := y.toNat
        let handle := BitVec.ofNat 128
          (e % 2 ^ 33 + 2 ^ 33 + w / 2 ^ 7 % 2 * 2 ^ 35 + w % 4 * 2 ^ 36 + w / 2 ^ 2 % 32 * 2 ^ 38)
        let usable := e.testBit 33 = true ∧ e % 2 ^ 20 + (e / 2 ^ 25 % 2 ^ 8 + 1) * 2 ^ (e / 2 ^ 20 % 2 ^ 5) ≤ 0xC0000
        let f := s.flight 0 true (.h d.toNat handle)
        (usable → exec (.hset h d a) s = .next (t.launched [] [f])) ∧
        (¬usable → exec (.hset h d a) s = .next (t.launched [] [{ f with trap := some (s.accTrap 0x09 w) }]))) ∧
    (s.ready h [rS d, .h a.toNat] →
      (bound → i.toNat ≤ slots → exec (.hwait h d a i) s = .next (s.endsWith
        [.wait (.ring d.toNat core rix prod a.toNat i.toNat) s.iss.pc s.iss.slot false, .due s.iss.pc])) ∧
      (¬bound ∨ slots < i.toNat → refuse (.hwait h d a i) 0)) ∧
    (s.ready h [.h a.toNat] →
      let op : EntOp := .hadv core rix prod i.toNat
      let folds := [word (.hadv h a i), BitVec.ofNat 64 ((s.handleView s.cur x).toNat)]
      (bound → i.toNat ≤ slots → s.roomFor op 1 none 0 folds → exec (.hadv h a i) s = .next (s.entered op 1 none 0 folds)) ∧
      (¬bound ∨ slots < i.toNat → refuse (.hadv h a i) 0)) ∧
    (s.ready h [rS d, .h a.toNat] →
      let v := (s.ringView s.cur core rix prod).toNat
      let q := c.efView
      let head := (q.head?.getD 0).toNat
      let answers := fun (change : Ctx → Ctx) (y : Nat) =>
        (s.given (BitVec.ofNat 64 y) = none → exec (.qstat h d a i) s = .next (s.stalled .twin)) ∧
        ∀ t z, s.given (BitVec.ofNat 64 y) = some (t, z) → exec (.qstat h d a i) s =
          .next ((t.setMe (change t.me)).launched [] [s.flight 0 true (.s d.toNat z)])
      let same := fun c : Ctx => c
      let filled := (v / 2 ^ 64 + 2 ^ 32 - v / 2 ^ 96) % 2 ^ 32
      (¬bound → i.toNat ≤ 4 → refuse (.qstat h d a i) 0) ∧
      (bound → (i = 0 → answers same filled) ∧ (i = 1 → filled ≤ slots → answers same (slots - filled)) ∧
        (i = 2 → answers same (v / 2 ^ 64 % 2 ^ 32)) ∧ (i = 3 → answers same (v / 2 ^ 96)) ∧
        (i = 4 → answers same (v / 2 ^ 34 % 8 + 8))) ∧
      (i = 5 → answers (fun c => { c with efOvf := false }) (q.length + if c.efOvf then 16 else 0)) ∧
      (6 ≤ i.toNat → i.toNat ≤ 9 → answers same (head / 2 ^ (64 * (i.toNat - 6)) % 2 ^ 64)) ∧
      (i = 10 → q = [] → answers same 0) ∧
      (i = 10 → q ≠ [] →
        answers (fun c => { c with ivs := mapLast (fun i => { i with removed := i.removed + 1 }) c.ivs }) (head % 2 ^ 64)))

/-! ### Control registers, checkpoints, traps and system instructions -/

/-- 16 R353, R354; 02 R41, R42: CSRR reads a control register. CSRW, CSRS and CSRC change the bits that the register has where
the mode may write it, and else nothing: the registers of the trap, of the allocation and of the task only the handler may
write. MXCFG is not written in a chain. The flags of VFLG and DSCD clear by a one. An index that is not listed does not decode.
02 R41: a write puts the bits of the mask that a register has in place, and leaves every other register. -/
def Obligations.ControlRegisters : Prop :=
  let listed := fun i : BitVec 12 =>
    i.toNat ≤ 0x009 ∨ 0x010 ≤ i.toNat ∧ i.toNat ≤ 0x016 ∨ 0x100 ≤ i.toNat ∧ i.toNat ≤ 0x106
  (∀ (h : Head) (d : BitVec 5) (i : BitVec 12), ¬listed i → ∀ k ∈ [Instr.csrr h d i, .csrw h d i, .csrs h d i, .csrc h d i],
    decodeBundle 32 (padBundle (encode k)) = .error 0) ∧
  (∀ (s : State) (h : Head) (d : BitVec 5) (i : BitVec 12), s.alone → s.ready h [rS d] → listed i →
      let c := s.me
      let x := c.s d
      (∀ (n : Nat) (v : Word), (n, v) ∈ [(0x000, c.ctxst s.cur), (0x001, c.trapc), (0x002, c.trappc), (0x003, c.trapsl),
          (0x004, c.oldest.pc), (0x005, c.faultva), (0x006, c.faultn), (0x007, c.faultn1), (0x008, c.faultn2),
          (0x009, c.stepno), (0x010, c.r.vrnd), (0x011, c.r.vflg), (0x012, c.r.mxcfg), (0x013, c.siglo), (0x014, c.sighi),
          (0x015, c.r.extid), (0x016, c.r.ovfp), (0x100, c.prio), (0x101, c.asid), (0x102, c.ttb), (0x103, c.lkage),
          (0x104, c.runlim), (0x105, c.liveb), (0x106, c.htb)] →
        i.toNat = n → exec (.csrr h d i) s = .next (s.wrote (.s d.toNat v))) ∧
      let clears := i = 0x000 ∨ i = 0x011
      let user := clears ∨ i = 0x010 ∨ i = 0x012 ∨ i = 0x015 ∨ i = 0x016
      let handlers := 0x001 ≤ i.toNat ∧ i.toNat ≤ 0x009 ∨ 0x100 ≤ i.toNat ∧ i.toNat ≤ 0x106
      let chain := i = 0x012 ∧ c.inChain = true
      let may := user ∨ c.hnd = true ∧ handlers
      let all := BitVec.allOnes 64
      let puts := fun (k : Instr) (mask y : Word) =>
        ((c.passed s.iss.pc s.fallThrough).put (.csr i.toNat mask y)).runLimit / 8 < c.run - 1 →
          exec k s = .next (s.wrote (.csr i.toNat mask y))
      (chain → ∀ k ∈ [Instr.csrw h d i, .csrs h d i, .csrc h d i],
        exec k s = .next (s.trapped ⟨0x03, 0, s.iss.pc, s.iss.slot, 0, 0, 0, 0, .handler⟩)) ∧
      (¬may → ∀ k ∈ [Instr.csrw h d i, .csrs h d i, .csrc h d i], exec k s = .next s.skipped) ∧
      (¬chain → may → ¬clears → puts (.csrw h d i) all x ∧ puts (.csrs h d i) x all ∧ puts (.csrc h d i) x 0) ∧
      (clears → puts (.csrw h d i) x 0 ∧ exec (.csrs h d i) s = .next s.skipped ∧ puts (.csrc h d i) x 0)) ∧
  (∀ (c : Ctx) (g i : Nat) (mask x : Word),
      i ∈ [0x001, 0x002, 0x003, 0x005, 0x006, 0x007, 0x008, 0x009, 0x010, 0x011, 0x012, 0x015, 0x016, 0x100, 0x101, 0x102,
        0x103, 0x104, 0x105, 0x106] →
      let t := c.putCsr i mask x
      let widths := [(0x001, 0, 20), (0x003, 0, 4), (0x006, 0, 23), (0x010, 0, 2), (0x012, 0, 19), (0x015, 0, 20),
        (0x016, 7, 64), (0x100, 0, 2), (0x101, 0, 16), (0x102, 6, 64), (0x104, 0, 32), (0x105, 6, 64), (0x106, 12, 64)]
      let has := fun k : Nat => (widths.filter fun w => w.1 == i).all fun w => decide (w.2.1 ≤ k) && decide (k < w.2.2)
      (∀ k, k < 64 → (t.csr g i).getLsbD k =
        if has k && mask.getLsbD k then x.getLsbD k else (c.csr g i).getLsbD k) ∧
      ∀ j, j ≠ i → t.csr g j = c.csr g j)

/-- 04 R79, R81; 15 R319, R337 to R339; 16 R348, R350: CKPT, YIELD, TEND, CMPT, SIGRD and PHINT. A plain task's checkpoint
completes with its bundle. PHINT saves only a context of which a save is asked for, where it can be saved; the save has the
liveness entry that the hint names as it stands at the hint, or is whole where there is none or it cannot be read (the model's
choice, log 39). YIELD ends the run and closes no interval. That a SIGRD waiting for folds lets results land is the model's
choice (log 27). -/
def Obligations.Checkpoints : Prop :=
  ∀ (s : State) (h : Head) (d a b : BitVec 5) (m : BitVec 2) (i : BitVec 12) (k1 k2 : BitVec 28), s.alone →
    let pc := s.iss.pc
    let bad := s.trapped ⟨0x03, 0, pc, s.iss.slot, 0, 0, 0, 0, .handler⟩
    let c := s.me
    let hint := match s.kernelOf s.cur with
      | none => none
      | some k =>
        if k.lvn ≤ i.toNat then none
        else
          match s.devRead c.space (c.liveb.toNat + 32 * i.toNat) 32 with
          | .ok bs => some (i.toNat, k1, k2, leNat bs)
          | .error _ => none
    (s.ready h [] →
      (c.inChain = true → ∀ x ∈ [Instr.ckpt h, .tend h, .phint h i k1 k2], exec x s = .next bad) ∧
      (c.inChain = false → s.noSave →
        exec (.ckpt h) s = .next (s.endsWith (ckptWork pc [])) ∧
        exec (.tend h) s = .next (s.endsWith [.due pc, .land, .wound pc, .close, .ending, .tend]) ∧
        (s.plain → exec (.ckpt h) s = .next (s.after (c.passed s.iss.pc s.fallThrough).checkpointed))) ∧
      exec (.yield h) s = .next (s.endsWith [.due pc, .land, .yield]) ∧
      (c.inChain = false → c.pend = none ∨ s.savePoint s.cur = false → exec (.phint h i k1 k2) s = .next s.skipped) ∧
      (c.inChain = false → c.pend ≠ none → s.savePoint s.cur = true → exec (.phint h i k1 k2) s =
        .next (s.endsWith [.land, .wound pc, .close, .agree, .copy, .save hint, .due pc]))) ∧
    (∀ (reg : BitVec 5 → RegId) (same : Prop), (reg, m.toNat, same) ∈
        [((fun x => RegId.s x.toNat : BitVec 5 → RegId), 0, c.s a = c.s b),
          ((fun x => RegId.v x.toNat : BitVec 5 → RegId), 1, c.r.rv a.toNat = c.r.rv b.toNat),
          ((fun x => RegId.l x.toNat : BitVec 5 → RegId), 2, c.r.rl a.toNat = c.r.rl b.toNat)] →
      s.ready h [reg a, reg b] →
        (same → exec (.cmpt h a b m) s = .next s.skipped) ∧
        (¬same → exec (.cmpt h a b m) s = .next (s.trapped ⟨0x12, 0, pc, s.iss.slot, 0, 0, 0, 0, .replay⟩))) ∧
    (s.ready h [rS d] → c.inChain = true → exec (.sigrd h d m) s = .next bad) ∧
    (s.ready h [rS d] → c.inChain = false → c.foldsDue = true → exec (.sigrd h d m) s = .next (s.stalled .folds)) ∧
    (s.ready h [rS d] → c.inChain = false → c.foldsDue = false →
      let w := if c.pcls = 0 then 0 else if m = 0 then c.siglo else if m = 1 then c.sighi else if m = 2 then c.cap.1 else c.cap.2
      exec (.sigrd h d m) s = .next (s.launched [] [s.flight 0 true (.s d.toNat w)]))

/-- 16 R355, R357 to R361: ERET returns from the handler at a checkpoint, to the state of TCOPY or to s[a] with the
registers as they are; STEP and ATTQ enter the buffer, ABORT checkpoints and sends its token, TTINV and ICINV wait at
the end of their bundle. ERET and TTINV outside handler mode trap ILLEGAL. FAULTVA of ICINV and ABORT is the model's choice (log
50), as are the path of ATTQ (log 67) and IOC 0 for the token (log 41). -/
def Obligations.SystemInstructions : Prop :=
  ∀ (s : State) (h : Head) (d a b : BitVec 5), s.alone →
    let pc := s.iss.pc
    let c := s.me
    let x := (c.s a).toNat
    let y := (c.s b).toNat
    let trap := fun (cause : Nat) (va : Word) => s.trapped ⟨cause, 0, pc, s.iss.slot, va, 0, 0, 0, .handler⟩
    let word := fun i : Instr => BitVec.ofNat 64 (slotWord i + if s.iss.slot + 1 = s.iss.n then 2 ^ 31 else 0)
    let p := c.passed s.iss.pc s.fallThrough
    (s.ready h [] →
      (c.hnd = false → exec (.eretRestore h) s = .next (trap 0x01 0)) ∧
      (c.hnd = true → c.inChain = true → exec (.eretRestore h) s = .next (trap 0x03 0)) ∧
      (c.hnd = true → c.inChain = false → s.noSave →
        exec (.eretRestore h) s = .next (s.endsWith (returnWork pc [.eret none])) ∧
        (s.plain → exec (.eretRestore h) s = .next (s.after
          (({ p with r := c.tcopy.getD p.r, hnd := false, tcopy := none } : Ctx).checkpointed))))) ∧
    (s.ready h [rS a] →
      (c.hnd = false → exec (.eretContinue h a) s = .next (trap 0x01 0)) ∧
      (c.hnd = true → x % 4 ≠ 0 → exec (.eretContinue h a) s = .next (trap 0x08 (c.s a))) ∧
      (c.hnd = true → x % 4 = 0 → c.inChain = true → exec (.eretContinue h a) s = .next (trap 0x03 0)) ∧
      (c.hnd = true → x % 4 = 0 → c.inChain = false → s.noSave →
        exec (.eretContinue h a) s = .next (s.endsWith (returnWork pc [.eret (some (c.s a))])) ∧
        (s.plain → exec (.eretContinue h a) s = .next (s.after
          (({ p with r := { p.r with pc := c.s a }, hnd := false, tcopy := none } : Ctx).checkpointed)))) ∧
      (let folds := [word (.step h a), c.s a];
        s.roomFor (.step (c.s a)) 1 none noPath folds →
          exec (.step h a) s = .next (s.entered (.step (c.s a)) 1 none noPath folds)) ∧
      (2 ^ 16 ≤ x ∨ s.groupHas (s.iocOf s.cur) x c.space.asid = false → exec (.abort h a) s = .next (trap 0x09 0)) ∧
      (x < 2 ^ 16 → s.groupHas (s.iocOf s.cur) x c.space.asid = true → c.inChain = true →
        exec (.abort h a) s = .next (trap 0x03 0)) ∧
      (x < 2 ^ 16 → s.groupHas (s.iocOf s.cur) x c.space.asid = true → c.inChain = false → s.noSave →
        exec (.abort h a) s = .next (s.endsWith
          [.land, .wound pc, .close, .agree, .copy, .abort (BitVec.ofNat 16 x), .due pc]))) ∧
    (let ttinv := fun (i : Instr) (touch : List RegId) (scope tid tile : Nat) => s.ready h touch →
        (c.hnd = false → exec i s = .next (trap 0x01 0)) ∧
        (c.hnd = true → exec i s = .next (s.endsWith [.ttinv scope tid tile, .due pc]));
      ttinv (.ttinvTile h a b) [rS a, rS b] 0 (x % 2 ^ 20) y ∧ ttinv (.ttinvTensor h a) [rS a] 1 (x % 2 ^ 20) 0 ∧
      ttinv (.ttinvAsid h) [] 2 0 0 ∧ ttinv (.ttinvAll h) [] 3 0 0) ∧
    (s.ready h [rS a, rS b] →
      (∀ i ∈ [(Instr.icinvCore h a b, false), (.icinvPkg h a b, true)],
        (y ≤ 2 ^ 32 → exec i.1 s = .next (s.endsWith [.icinv i.2 x y, .due pc])) ∧
        (2 ^ 32 < y → exec i.1 s = .next (trap 0x09 (c.s a)))) ∧
      let flat := fun va : Nat => 2 ^ 32 ≤ va ∧ va < 2 ^ 57
      let m := { s.mkCmd .attq 0x0F 0 [c.s a, c.s b] 0 with fe := true, flag := d.toNat }
      let folds := [word (.attq h d a b), BitVec.ofNat 64 d.toNat, c.s a, c.s b]
      (¬(flat x ∧ x % 4096 = 0) → exec (.attq h d a b) s = .next (trap 0x08 (c.s a))) ∧
      (flat x ∧ x % 4096 = 0 → ¬(flat y ∧ y % 64 = 0) → exec (.attq h d a b) s = .next (trap 0x08 (c.s b))) ∧
      (flat x ∧ x % 4096 = 0 → flat y ∧ y % 64 = 0 → s.roomFor (.cmd m) 1 none 1 folds →
        exec (.attq h d a b) s = .next (s.entered (.cmd m) 1 none 1 folds)))

/-- 16 R343, R356: SYSC and TRAP are taken at the end of their bundle, which is a checkpoint: TCOPY holds the copy of that
checkpoint, whose PC is that of the bundle that follows; TRAPPC is the PC of the bundle itself, TRAPSL the slot, TRAPC holds the
cause and the code, and the handler's address is in the PC. -/
def Obligations.SoftwareTraps : Prop :=
  ∀ (s : State) (h : Head) (i : BitVec 12), s.alone → s.ready h [] →
    (∀ x ∈ [Instr.sysc h i, .trap h i], s.me.inChain = true →
      exec x s = .next (s.trapped ⟨0x03, 0, s.iss.pc, s.iss.slot, 0, 0, 0, 0, .handler⟩)) ∧
    ∀ (x : Instr) (cause e : Nat), (x, cause) ∈ [(Instr.sysc h i, 0x15), (.trap h i, 0x16)] →
      s.me.inChain = false → s.noSave → s.plain → s.me.hnd = false → s.handler cause = .ok e → e % 4 = 0 → 2 ^ 32 ≤ e →
      ∃ t, exec x s = .next t ∧
        let c := t.ctx s.cur
        c.hnd = true ∧ c.trapc = BitVec.ofNat 64 (cause + 256 * i.toNat) ∧ c.trappc = s.iss.pc ∧
        c.trapsl = BitVec.ofNat 64 s.iss.slot ∧ c.faultva = 0 ∧ c.tcopy = some { s.me.r with pc := s.fallThrough } ∧
        c.r = { s.me.r with pc := BitVec.ofNat 64 e } ∧ c.oldest = c.r ∧ (c.st = .ready ∨ c.st = .issuing) ∧
        (∀ k, memGet t.mem k = memGet s.mem k)

/-- 15 R320; 16 R342, R343, R345; 04 R81: any other trap for the handler, where no other waits: the context rolls back to its
oldest open copy, the trap registers say what met it, TCOPY holds the copy, handler mode is set and the PC is the handler's;
the handler's own traps, and those without a usable handler word, end the task, and its context is free but for the values of
TRAPC, TRAPPC and TRAPSL. -/
def Obligations.TrapEntry : Prop :=
  ∀ (s : State) (t : TrapReq), s.me.st = .issuing → s.me.recov.isThird = false → t.how = .handler →
    s.me.due' = [] → t.cause < 0x20 → t.cause ∉ [0x0B, 0x11, 0x12] →
    let back := s.rollback s.cur
    let u := s.trapped t
    let c := u.ctx s.cur
    let copy := s.me.oldest.noChain
    (∀ e, s.me.hnd = false → back.handler t.cause = .ok e → e % 4 = 0 → 2 ^ 32 ≤ e →
      c.hnd = true ∧ c.trapc = BitVec.ofNat 64 (t.cause + 256 * t.code) ∧ c.trappc = t.pc ∧
      c.trapsl = BitVec.ofNat 64 t.slot ∧ c.faultva = t.va ∧ c.faultn = t.n ∧ c.faultn1 = t.n1 ∧ c.faultn2 = t.n2 ∧
      c.tcopy = some copy ∧ c.r = { copy with pc := BitVec.ofNat 64 e } ∧ c.oldest = c.r ∧ c.fl = [] ∧ c.mx = [] ∧
      (c.st = .ready ∨ c.st = .issuing)) ∧
    (s.me.twin = none →
      (s.me.hnd = true ∨ (∃ k, back.handler t.cause = .error k) ∨
        ∃ e, back.handler t.cause = .ok e ∧ (e % 4 ≠ 0 ∨ e < 2 ^ 32)) →
      c = { Ctx.reset s.cur with
        trapc := BitVec.ofNat 64 (t.cause + 256 * t.code), trappc := t.pc, trapsl := BitVec.ofNat 64 t.slot })

/-! ### Events of the cores -/

/-- 04 R62 to R66, R68, R69; 06 R108, R109; 07 R142; 09 R189; 12 R263; 13 R279, R283; 15 R323; 16 R359, R360: what the
events of a core do where they can happen. Results land in their registers; a run limit, a wait, a stall at the end of a
bundle or a stall of issue ends; caches drop what TTINV and ICINV name. -/
def Obligations.CoreEvents : Prop :=
  ∀ (s : State) (g core : Nat),
    let c := s.ctx g
    let k := s.core core
    let does := fun (i : Instr) (t : State) => exec i s = .next t
    let todo := fun (l : List Tail) => s.setCtx g { c with todo := l }
    let freed := s.setCtx g { c with stall := none }
    (∀ x r, k.gated = true → k.batch ≠ [] → k.ready ++ s.sortBatch k.last k.batch = x :: r →
      does (.clockRestart core) ((s.setCore core { k with ready := r, batch := [], gated := false }).setCtx x
        { s.ctx x with st := .issuing, run := (s.ctx x).runLimit, due := false })) ∧
    (c.st = .issuing → c.due = false → c.run ≤ c.runLimit / 8 → does (.runLimitDue g) (s.setCtx g { c with due := true })) ∧
    (∀ pc l, c.todo = .expire pc :: l → c.st = .issuing → c.run = 0 →
      (c.pcls = 0 → (∀ t ∈ l, t.isWait = false ∧ t ≠ .yield) → s.saveHere g = false →
        does (.runLimitExpiry g) (todo ([.land, .wound pc, .close, .copy] ++ l ++ [.runEnd]))) ∧
      (c.pcls ≠ 0 → does (.runLimitExpiry g) ((todo l).takeTrap g ⟨0x14, 0, pc, 0, 0, 0, 0, 0, .handler⟩))) ∧
    (∀ n, c.landing = true → c.nextExposed = some n → c.nextLand = some n → does (.exposedResultLand g) (s.waitAdvance g n)) ∧
    (∀ r at' b slot pipe l, c.st = .issuing → c.todo = .land :: l → c.stall = none → c.mx = [] →
      (∀ ch ∈ c.chains, ch.closed = false) → c.fl = [⟨r, at', false, b, slot, none, [], none, pipe, none, 0, []⟩] →
      does (.exposedResultLand g) (s.setCtx g (({ c with mstep := c.mstep + (at' - c.bseq), fl := [] } : Ctx).put r))) ∧
    (∀ j f t, c.st = .issuing → c.fl[j]? = some f → c.mayLand f = true → bestTrap ((c.landsWith f).filterMap (·.trap)) = some t →
      does (.interlockedResultLand g j) (s.takeTrap g t)) ∧
    (∀ r at' b slot pipe, c.st = .issuing → c.stall = none ∨ c.stall = some .busy →
      c.fl = [⟨r, at', true, b, slot, none, [], none, pipe, none, 0, []⟩] →
      does (.interlockedResultLand g 0) (s.setCtx g (({ c with stall := none, fl := [] } : Ctx).put r))) ∧
    (∀ w pc slot, c.st = .parked → c.wait = some (w, pc, slot) →
      let woken := fun u : State => (u.setCtx g { u.ctx g with wait := none }).endRun g .ready
      (c.due' ≠ [] → does (.waitWake g) (s.deliverDue g pc)) ∧
      (c.due' = [] → s.woundParked g = true → does (.waitWake g) (s.takeTrap g ⟨0x0B, 0, pc, 0, 0, 0, 0, 0, .handler⟩)) ∧
      let read := s.countReads g w.key.toList
      (∀ pa ∈ w.key, s.waitsAt pa = none) →
        (c.due' = [] → s.woundParked g = false → ∀ u, read.evalWait g w false = .sat u → does (.waitWake g) (woken u)) ∧
        (c.due' = [] → s.woundParked g = false → read.evalWait g w false = .park → does (.waitWake g) s) ∧
        (c.due' = [] → s.woundParked g = false → ∀ pa va, read.evalWait g w false = .bad pa va →
          does (.waitWake g) ((s.logError pa 2 0 g).takeTrap g ⟨0x10, 0, pc, slot, va, 0, 0, 0, .poison⟩)) ∧
        (∀ d pa ph n va, w = .bar d pa ph (some n) va → n ≤ s.cycles → ∀ u, read.evalWait g w true = .sat u →
          does (.bwaitBoundExpiry g) (woken u))) ∧
    (∀ paths scope pc l, c.todo = .drain paths scope pc :: l →
      ((c.due'.any fun t => t.cause == 0x18) = true → does (.drainComplete g) (s.deliverDue g pc)) ∧
      ((c.due'.any fun t => t.cause == 0x18) = false → s.drained g paths = true → does (.drainComplete g) (todo l))) ∧
    (∀ scope tid tile l, c.todo = .ttinv scope tid tile :: l → ∃ t, exec (.ttinvAcknowledge g) s = .next t ∧
      (t.ctx g).todo = l ∧ (∀ k, ∀ e ∈ (t.core k).tlb, ttinvNames scope c.space.asid tid tile e.1 = false) ∧
      (∀ k, ∀ e ∈ (t.spc k).tlb, ttinvNames scope c.space.asid tid tile e.1 = false) ∧
      (∀ k, ∀ e ∈ (t.spc k).nodes, ttinvNode scope c.space.asid tid tile e.1 = false) ∧
      (∀ e ∈ t.devTlb, ttinvDev scope c.space.asid e.1 = false) ∧
      (scope = 3 → ∀ k, (t.core k).dcache = [])) ∧
    (∀ pkg a n l, c.todo = .icinv pkg a n :: l → n ≠ 0 → ∃ t, exec (.icinvAcknowledge g) s = .next t ∧ (t.ctx g).todo = l ∧
      ∀ k, pkg = true ∨ k = coreOf g → ∀ e ∈ (t.core k).icache, ¬(e.1.2 * 128 < a + n ∧ a < e.1.2 * 128 + 128)) ∧
    (∀ op name mode d pc slot l, c.todo = .lock op name mode d pc slot :: l →
      (c.second = false → s.coreFenced g = false → ∀ u w fs, (todo l).lkRequest g op name mode = (u, .status w, fs) →
        does (.lockAnswer g) (((u.lkEffects fs).putS g d w).shareTwin g (w.zeroExtend 128))) ∧
      (c.second = false → s.coreFenced g = false → ∀ u n fs, (todo l).lkRequest g op name mode = (u, .queued n, fs) →
        does (.lockAnswer g)
          ((u.setCtx g { u.ctx g with todo := .wait (.lock d n) pc slot false :: (u.ctx g).todo }).lkEffects fs)) ∧
      (c.second = true → ∀ x, c.delivered 0 = some x →
        does (.lockAnswer g) ((s.setCtx g { c with todo := l, shared := c.shared + 1 }).putS g d (x.truncate 64))) ∧
      (c.second = true → c.delivered 0 = none → s.twinParked g = true →
        does (.lockAnswer g) (todo (.wait (.lock d name) pc slot false :: l)))) ∧
    (∀ n, c.stall = some (.grant n) →
      let m := (s.lkm (lkmHome n.asid n.tid)).heldBy n (s.lkId g)
      (m ≠ 0 → s.woundedId (s.lkId g) = false → does (.grantCacheRefill g) (freed.fillGrant g n m)) ∧
      (m = 0 → does (.grantCacheRefill g) freed)) ∧
    (c.stall = some .moving → does (.migrationWalkRetry g) freed) ∧
    (∀ key slot at' w, c.stall = some (.frame key slot) → s.walkTile (coreOf g) c.space key.2.1 key.2.2 = .leaf at' w →
      let grant := bits w 57 1 = 1 ∧ s.coversTile g key = true
      ∀ iv u, (grant → iv = none) → (¬grant → iv = some c.openId) →
        (freed.shadowAdd g key iv = (u, true) → does (.shadowFrameCopyComplete g) u) ∧
        (freed.shadowAdd g key iv = (u, false) →
          does (.shadowFrameCopyComplete g) (u.takeTrap g ⟨0x17, 0, c.r.pc, slot, 0, 0, 0, 0, .handler⟩))) ∧
    (∀ unit, s.unitEnds core unit = true → ∃ t, exec (.iterativeUnitFree core unit) s = .next t ∧
      (t.core core).iter = k.iter.filter (· != unit) ∧
      ∀ x, s.issuer core = some x → (s.ctx x).stall = some (.iter unit) → (t.ctx x).stall = none) ∧
    (∀ (asid : BitVec 16) (tid : BitVec 20) (tile : Nat) (sp : Space) (at' w : Nat), core < 512 → s.spaceOn core asid.toNat = some sp →
      s.walkTile core sp tid.toNat tile = .leaf at' w →
      (bits w 56 1 = 1 → does (.tileWalkComplete core asid tid tile) s) ∧ (bits w 56 1 = 0 →
      (tid = 0 ∨ ∃ d, s.descMem sp tid.toNat = some d ∧ d.valid = true ∧ d.malformed = false) →
      ∃ t, exec (.tileWalkComplete core asid tid tile) s = .next t ∧
        ((asid.toNat, tid.toNat, tile), w) ∈ (t.core core).tlb ∧ ((asid.toNat, tid.toNat, tile), w) ∈ (t.spc (core / 16)).tlb ∧
        (asid.toNat, tid.toNat, tile) ∉ (t.core core).walks))

/-- 07 R135, R139; 10 R196, R197, R212 to R218, R221; 12 R248, R249, R256: what lands in the matrix engine, a payload
that leaves its output stage, and the entries of the store containment buffer that are released. An operation of the
engine lands in a matrix stall or in the wait of 04 R64 when it is the next to do so. A released store is performed in any order
that no rule forbids, by the model's choice (log 57); an operation reads all its bytes in the step that it starts in (log 15). -/
def Obligations.MatrixAndReleaseEvents : Prop :=
  ∀ (s : State) (g core : Nat),
    let c := s.ctx g
    let does := fun (i : Instr) (t : State) => exec i s = .next t
    (∀ (j : Nat) (i : Instr) (ops : List Nat), (i, ops) ∈ [(Instr.weightBufferCurrent core j, [1]),
        (.matrixRowsLand core j, [2, 3, 11]), (.xchkComplete core j, [9]), (.xfixComplete core j, [10]),
        (.xepiCheck core j, [6, 8])] →
      ∀ o n, (∀ k, c.stallBound = some k → n ≤ k) → s.issuer core = some g → c.mx[j]? = some o → o.landed = false → o.req.op ∈ ops → o.eff ≠ .held →
        c.nextSteps = some n → o.land.map (· - c.mstep) = some n →
        (c.mxStalled = true → does i (s.stallAdvance g n)) ∧
        (c.mxStalled = false → c.landing = true → c.nextLand = some n → does i (s.waitAdvance g n))) ∧
    (∀ o, s.issuer core = some g → c.mx = [o] → c.fl = [] → o.req.chain = none → (∀ ch ∈ c.chains, ch.closed = false) →
      o.landed = false → c.stall = some (.part o.part) → o.land = some (c.mstep + 1) → o.busyTo = c.mstep + 1 →
      let stepped := { c with mstep := c.mstep + 1, mx := [], stall := none }
      (∀ wb buf, o.req.op = 1 → o.eff = .wld wb buf none → ∃ t, exec (.weightBufferCurrent core 0) s = .next t ∧
        (t.core (coreOf g)).wb wb = buf ∧ t.ctx g = stepped ∧ ∀ a, memGet t.mem a = memGet s.mem a) ∧
      (∀ wb buf va, o.req.op = 1 → o.eff = .wld wb buf (some va) → ∃ u, exec (.weightBufferCurrent core 0) s =
        .next (State.takeTrap u g ⟨0x09, 0, o.req.pc, o.req.slot, va, 0, 0, 0, .handler⟩)) ∧
      (∀ d x, o.req.op = 9 → o.eff = .status d x none → ∃ t, exec (.xchkComplete core 0) s = .next t ∧
        t.ctx g = stepped.put (.s d x)) ∧
      (o.req.op ∈ [6, 8] → o.eff = .chk true → ∃ u, exec (.xepiCheck core 0) s =
        .next (State.takeTrap u g ⟨0x13, 0, o.req.pc, o.req.slot, 0, 0, 0, 0, .check⟩))) ∧
    (∀ (j : Nat) (i : Instr) (ops : List Nat), (i, ops) ∈ [(Instr.weightBufferCurrent core j, [1]),
        (.matrixRowsLand core j, [2, 3, 11]), (.xaccldRowsArrive core j, [7])] →
      ∀ o, s.issuer core = some g → c.mx[j]? = some o → o.landed = false → o.req.op ∈ ops → o.eff = .held →
        s.mxBehind g o.req = false → c.mxQueued o.req = false → c.partSteps o.part = 0 → s.mxHeld g o.req = none → (∀ r ∈ o.req.reads, s.poisonedRange r.1 r.2 = false) →
          does i ((s.mxResume g o).unstall g fun _ => true)) ∧
    (∀ j o, s.issuer core = some g → c.mx[j]? = some o → o.landed = false → o.req.op = 7 → o.eff ≠ .held →
      let u := (s.mxLand g o).1
      does (.xaccldRowsArrive core j) (((u.setCtx g { u.ctx g with
        mx := (u.ctx g).mx.filter fun x => !x.landed || decide ((u.ctx g).mstep < x.busyTo) }).chainFolds g).unstall g
          fun _ => (u.ctx g).mxStalled)) ∧
    (∀ part, s.issuer core = some g → c.stall = some (.part part) → (∀ o ∈ c.mx, o.part = part → o.eff ≠ .held) →
      does (.matrixPartFree core part) (s.stallAdvance g (c.partSteps part))) ∧
    (∀ j e, s.cmds.find? j = some e → e.c.op = .xaccst ∨ e.c.op = .xepi → s.stageTurn e = true →
      (∀ r ∈ e.c.rows, s.holdsBack (.cmd j) r.1 = false) →
      let left := fun (u : State) (bad : Bool) =>
        ((u.keepOld e.c.g e.bundle e.c.rowRanges).sendRows e.c.g e.c.rowBytes (s.badRows e.c bad) 0 e.c.rows).freeStage
          (coreOf e.c.g)
      (s.struck .transport = false → does (.outputStageComplete j) ((left s false).finishPlan j e false [])) ∧
      (s.struck .transport = true → e.c.rows ≠ [] →
        does (.outputStageComplete j) ((left { s with upsets := s.upsets.tail } true).endFault j e (EngFault.at' 4 (e.c.w 0))))) ∧
    (∀ e, c.flying = [e] → s.serves g e = true → s.canRelease g = false →
      does (.scbRelease g) ((s.setCtx g { c with flying := [] }).performEntry g e) ∧
      ∀ bs, e.op = .store bs → (bs.map (·.1)).Nodup → c.follows (some e.iv) = false → s.memOk → s.poison = [] →
        (∀ b ∈ bs, ∀ u, homeUnit b.1 = some u → bits (s.unit u).hotcfg.toNat 0 16 = 0) → ∃ t, exec (.scbRelease g) s = .next t ∧
          (∀ b ∈ bs, memGet t.mem b.1 = b.2) ∧ ∀ a, (∀ b ∈ bs, b.1 ≠ a) → memGet t.mem a = memGet s.mem a) ∧
    (∀ e, c.releasable = some e →
      let popped := s.setCtx g { c with scb := c.scb.tail }
      let after := fun u : State => u.unstall g fun w => w == .busy
      (e.marker = false → e.returning = false → s.releaseWaits g e = false → s.nextFlying g = none →
        does (.scbRelease g) (after (popped.releaseEntry g e))) ∧
      (∀ bef aft, e.op = .fence bef aft → s.pathOpen g bef e.bundle = false → does (.fenceMarkerRelease g) (after popped)) ∧
      (∀ x, e.op = .step x → c.second = false → c.swap = none → c.twin = none → c.stall = none → c.flying = [] →
        does (.scbRelease g) (s.setCtx g { c with
          scb := c.scb.tail, stepno := BitVec.ofNat 64 (max c.stepno.toNat x.toNat) })) ∧
      ∀ l, c.todo = .agree :: l → c.allAgreed = true → e.returning = true → s.serves g e = true →
        (∀ r ∈ e.op.ranges, s.holdsBack (e.req g) r.1 = false) → c.flying = [] →
        let follows := c.follows (some e.iv)
        let kept := (popped.keepOld g e.bundle e.op.ranges).leave (e.req g)
        (follows = false → ∀ op pa n x ex d, e.op = .atomic op pa n x ex d → kept.poisonedRange pa n = false →
          let old := leNat (kept.peek pa n)
          let written := match atomNew op n old x ex with
            | some y => kept.perform g pa (leBytes y n)
            | none => (kept.countRead g pa).wake pa
          does (.returningOpComplete g) ((written.putS g d (BitVec.ofNat 64 old)).giveTwin g (BitVec.ofNat 128 old))) ∧
        (follows = false → ∀ pa n d, e.op = .barv pa n d → kept.poisonedRange pa 16 = false →
          let r := barArrive (leNat (kept.peek pa 16)) n
          does (.returningOpComplete g) (((kept.perform g pa (leBytes r.1 16)).putS g d (BitVec.ofNat 64 r.2)).giveTwin g
            (BitVec.ofNat 128 r.2))) ∧
        (follows = false → ∀ u d, kept.returnAt g e = (u, none, d) →
          does (.returningOpComplete g) ((u.returnPoison g e).giveTwin g poisonMark)) ∧
        (follows = true → ∀ x u v d, c.delivered 0 = some x → x ≠ poisonMark → kept.returnAt g e = (u, v, d) →
          does (.returningOpComplete g) ((u.setCtx g { u.ctx g with shared := c.shared + 1 }).putS g d (x.truncate 64))))

/-- 13 R276; 15 R327 to R333: a class 1 interval whose checks have passed agrees; the signatures of twins agree or go to
a vote, as does a pair that drifts apart; a failed task goes on at a third SPC; the vote lets the twins follow the
majority; each whole hour halves every suspicion score; a lease that runs out is revoked. TRAPPC of a mismatch, what the loser of
a vote takes, and how a third context that has no signature votes are the model's choices (log 27). -/
def Obligations.GuardEvents : Prop :=
  ∀ (s : State) (g : Nat),
    let c := s.ctx g
    let does := fun (i : Instr) (t : State) => exec i s = .next t
    (∀ iv rest, c.pcls = 1 → c.ivs = iv :: rest → iv.agreed = false → iv.sig.isSome = true →
      does (.intervalAgreement g) (s.agreeOldest g) ∧
      (iv.excs = [] → s.shadowsOf g (fun f => f.iv == some iv.id) = [] → c.recov = .none →
        does (.intervalAgreement g) (s.setCtx g { c with
          ivs := if rest = [] then [{ iv with agreed := true, excs := [], removed := 0, dirty := [] }] else rest
          replay := 0, wndAt := c.wndAt - 1, efq := c.efq.drop iv.removed
          deliver := c.deliver.filter fun e => decide (c.epoch * 2 ^ 32 + (rest.head?.map (·.shared)).getD 0 ≤ e.1) }))) ∧
    (∀ p q a b, s.comparable g = some (p, q, a, b) →
      (a = b → does (.signatureArrival g) ((s.agreeOldest p).agreeOldest q)) ∧
      (a ≠ b → does (.signatureArrival g) (s.toVote p q a.2))) ∧
    (∀ p q, s.pair g = some (p, q) → (s.ctx p).recov = .none → (s.ctx q).recov = .none →
      (s.ctx p).between = false → (s.ctx q).between = false →
      s.skewed p q = true ∨ s.skewed q p = true → does (.twinSkewExpiry g) (s.toVote p q 0)) ∧
    (∀ cause pc sig vote core n, c.recov = .pending cause pc sig vote → s.chooseThird g = some core → s.freeOn core = some n →
      s.settled g = true → (∀ t, c.twin = some t → s.settled t = true) →
      let u := if persistentFault c.pcls cause then
        s.cmpeEvent (s.cmpeOf g) 2 cause c.tgcid (causePoints cause) (some (core / 16)) pc 0 else s
      (vote = false → does (.reExecutionStart g) (u.moveTask g n (.rerun (coreOf g) cause pc (core / 16)))) ∧
      (vote = true → ∀ p q, s.pair g = some (p, q) → does (.reExecutionStart g) (u.thirdContext g n p q cause pc sig))) ∧
    (∀ p q cause pc sig, c.recov = .third p q cause pc sig → c.voteReady = true → (s.ctx p).voteReady = true →
      (s.ctx q).voteReady = true → s.settled p = true → s.settled q = true →
      let x := c.closedHead
      let a := (s.ctx p).closedHead
      let b := (s.ctx q).closedHead
      let spc := spcOf g
      let both := ((s.keepWinner p).keepWinner q).resumePair p q
      (∀ w, x = some w → a = some w → b = some w → does (.vote g) (both.freeCtx g)) ∧
      (∀ w, x = some w → a = some w → b ≠ some w → does (.vote g) ((s.voteWon p q cause spc pc sig).freeCtx g)) ∧
      (∀ w, x = some w → a ≠ some w → b = some w → does (.vote g) ((s.voteWon q p cause spc pc sig).freeCtx g)) ∧
      (∀ w, x ≠ some w → a = some w → b = some w → does (.vote g) (both.freeCtx g)) ∧
      ((∀ w, ¬(x = some w ∧ a = some w) ∧ ¬(x = some w ∧ b = some w) ∧ ¬(a = some w ∧ b = some w)) →
        does (.vote g) ((s.voteLost p q cause spc pc sig).freeCtx g))) ∧
    (s.msc.halved < s.msc.up / 3600000000000 → ∃ t, exec .scoreHalving s = .next t ∧ t.msc.halved = s.msc.halved + 1 ∧
      ∀ k, (t.core k).score = (s.core k).score / 2) ∧
    (∀ i j e, s.leaseOut i j = some e → does (.leaseExpiry i j) ((s.lkLeaseOut i e).1.lkEffects (s.lkLeaseOut i e).2))

/-! ### Events of the engines and the queues -/

/-- 11 R229 to R235, R241 to R244, R422; 14 R309; 16 R361; 18 R382, R386: commands at their engines. A command that may
act is carried out, ends with a fault, or waits on an absent tile; a subscription fills or drains one slot; a KLAUNCH
packet joins the slot of its kernel; a quote is written; what a peer sends to a collective is kept. -/
def Obligations.EngineEvents : Prop :=
  ∀ (s : State) (i : Nat),
    let does := fun (x : Instr) (t : State) => exec x s = .next t
    (∀ e, s.cmds.find? i = some e →
      let c := e.c
      (e.absent ≠ none → ∃ t, exec (.absentTileRewalk i) s = .next t ∧ t.cmds.find? i = some { e with retry := true } ∧
        (∀ j, j ≠ i → t.cmds.find? j = s.cmds.find? j ∧ t.subs.find? j = s.subs.find? j) ∧ t.ctxs = s.ctxs ∧ t.mem = s.mem) ∧
      (c.isCopy = true → e.ready = true → s.copyTurn e = true →
        (∀ f, s.copyPlan c = .error f → does (.copyComplete i) (s.endFault i e f)) ∧
        (∀ p, s.copyPlan c = .ok p → does (.copyComplete i) (s.finishPlan i e false p))) ∧
      (c.op = .cpyw → e.ready = true →
        (∀ b ks, s.readCompressed (.cmd i) c = .ok (b, ks) → c.ctr = none →
          does (.cpywComplete i) (((s.countReads c.g ks).endWload c (some b)).finishPlan i e false [])) ∧
        (∀ f, s.readCompressed (.cmd i) c = .fault f → does (.cpywComplete i) ((s.endWload c none).endFault i e f)) ∧
        (∀ k, s.readCompressed (.cmd i) c = .absent k → e.dead = false → does (.cpywComplete i) (s.awaitTile i e k [])) ∧
        (∀ pa, s.readCompressed (.cmd i) c = .moving (some pa) → does (.cpywComplete i) (s.waitFor (.cmd i) pa))) ∧
      (c.op = .klaunch → ∀ k, s.kernels.find? c.kernel = some k →
        (∀ x, s.launchWords c.space (c.w 0) = .error x → does (.klaunchPacketRead i) (s.endFault i e (EngFault.at' x.2 x.1))) ∧
        ∀ w ws, s.launchWords c.space (c.w 0) = .ok (w, ws) →
          let o := s.launcherOf k c.space
          let p : Packet := ⟨mergeFields k.pkt.f w ws, some o, false⟩
          let q := s.slot k.slot
          let u := (s.endPlain i).setSlot k.slot { q with ins := q.ins ++ [p] }
          (s.launchOk k w p o = true → q.st = .idle → does (.klaunchPacketRead i) (u.reReady k.slot)) ∧
          (s.launchOk k w p o = true → q.st ≠ .idle → does (.klaunchPacketRead i) u) ∧
          (s.launchOk k w p o = false → does (.klaunchPacketRead i) (s.endFault i e (EngFault.at' 5 0)))) ∧
      (c.op = .coll → e.ready = true → s.collTurn i e = true → ∀ t, s.collEnd i e = some t → does (.collComplete i) t) ∧
      (c.op = .fput → e.ready = true → s.collTurn i e = true →
        (s.unreachable = true → does (.fputComplete i) (s.endFault i e (EngFault.at' 7 (c.w 0)))) ∧
        (s.unreachable = false → does (.fputComplete i) (s.finishPlan i e true (planFput c)))) ∧
      (∀ l ks, s.msc.quotes = .attq i :: l → e.ready = true → s.engKeys (.cmd i) c (c.w 1) 4 = .ok ks →
        let u := s.finishPlan i e false (litMoves (c.w 0) (s.quoteBytes (s.wordsFor c ks)))
        u.cmds.find? i = none → does .quoteComplete u.nextQuote)) ∧
    (∀ b, s.subs.find? i = some b → b.ready = true → s.subTurn i b = true →
      let step := if b.load then Instr.loaderSlotStep i else .storerSlotStep i
      let w := s.ring b.core b.rix
      let brk := bits w.toNat 34 1
      let filled := if b.load then ringFilled w < ringSlots w else 1 ≤ ringFilled w
      (b.absent = none → brk = 1 → does step (s.subFault i b ⟨6, 0, 0, 0, b.t, 0, none⟩)) ∧
      (b.absent = none → brk = 0 → b.stop = true ∨ b.total ≤ b.t → does step (s.subDone i b)) ∧
      (b.absent ≠ none → b.total ≤ b.t → does step (s.subDone i b)) ∧
      (b.t < b.total → b.absent ≠ none ∨ (brk = 0 ∧ b.stop = false ∧ filled) →
        (∀ f, s.engDesc b.c b.c.handle = .error f → does step (s.subBreak i b f)) ∧
        ∀ d, s.engDesc b.c b.c.handle = .ok d → d.layout ≠ 1 → 2 ^ d.eb ≤ 2 ^ bits w.toNat 20 5 * 8 →
          let next := { b with t := b.t + 1, absent := none, retry := false }
          let advances := fun u : State =>
            let v := u.setRing b.core b.rix (ringAdvance (u.ring b.core b.rix) b.load 1)
            let x : State := { v with subs := v.subs.set i next }
            does step (if b.total ≤ b.t + 1 then x.subDone i next else x)
          (b.load = false → (s.ctx b.c.g).second = true → advances s) ∧
          (b.load = true ∨ (s.ctx b.c.g).second = false →
            (∀ ws gr, s.engRun (.cmd i) b.c false (slotMoves b d w) = (ws, .ok (), gr) →
              advances ((s.countReads b.c.g ((s.readGrains b.c (slotMoves b d w)).map (8 * ·))).performWrites b.c.g ws)) ∧
            (∀ ws pa gr, s.engRun (.cmd i) b.c false (slotMoves b d w) = (ws, .moving (some pa), gr) →
              does step (s.waitFor (.cmd i) pa)) ∧
            (∀ ws f gr, s.engRun (.cmd i) b.c false (slotMoves b d w) = (ws, .fault f, gr) →
              does step ((s.performWrites b.c.g (beforeGranule ws gr)).subBreak i b f)) ∧
            (∀ ws k gr, s.engRun (.cmd i) b.c false (slotMoves b d w) = (ws, .absent k, gr) → b.dead = false →
              does step (s.subAwait i b k (beforeGranule ws gr)))))) ∧
    (∀ buf nonce l, s.msc.quotes = .host buf nonce :: l →
      (∀ u, s.devWrite s.apertureSpace buf (s.quoteBytes nonce) = .ok u →
        does .quoteComplete (u.nextQuote.hostQuoteDone buf true)) ∧
      (∀ k, s.devWrite s.apertureSpace buf (s.quoteBytes nonce) = .error k →
        does .quoteComplete (s.nextQuote.hostQuoteDone buf false))) ∧
    (∀ link nonce l, s.msc.quotes = .peer link nonce :: l → does .quoteComplete s.nextQuote) ∧
    (∀ nonce : List Byte, nonce.length = 32 →
      let q := s.quoteBytes nonce
      q.length = 4096 ∧ q.take 4 = leBytes 0x54514E41 4 ∧ (q.drop 16).take 32 = nonce ∧
        (q.drop 48).take 16 = leBytes Config.serial.toNat 16) ∧
    (∀ grp rank seq gsize check op (data : List Byte), s.unreachable = false →
      does (.collFlitReceive grp rank seq gsize check op data)
        { s with flits := s.flits ++ [⟨grp, rank, seq, op, gsize, check, data⟩] })

/-- 14 R288 to R298, R420: doorbells map a queue or publish its write count; an idle slot is saved and freed; a reset
empties a slot; the slot whose turn it is takes its next packet, which waits, signals, marks or launches; a wait that is
met goes on; a kernel is placed on free clusters. What the manual leaves open of doorbells and resets, and of the faults of packets
and ring words, is the model's choice (logs 34, 35). -/
def Obligations.QueueEvents : Prop :=
  ∀ (s : State) (n : Nat),
    let q := s.slot n
    let io := s.ioc (slotIoc n)
    let sp := dSpace q.desc
    let does := fun (x : Instr) (t : State) => exec x s = .next t
    (∀ u wc, u < 2 ^ 16 → s.msc.ready.getLsbD 0 = true →
      let put := s.setSlot n { q with wc := wc }
      (s.slotOfQueue u = some n → q.st = .idle ∨ q.st = .ready → ∃ t, exec (.doorbellWrite u wc) s = .next t ∧
        (2 ^ dRlog q.desc < (wc - q.rc).toNat → (t.slot n).st = .overrun ∧ (t.slot n).code = 0) ∧
        ((wc - q.rc).toNat ≤ 2 ^ dRlog q.desc → (t.slot n).wc = wc ∧
          (t.slot n).st = if q.st = .ready ∨ (put.nextFields n).isSome = true then .ready else .idle)) ∧
      (s.slotOfQueue u = some n → does (.doorbellWrite u wc) (put.afterDoorbell n)) ∧
      (s.slotOfQueue u = none → ∀ d, s.queueDesc u = .ok d → bits d.toNat 62 1 = 1 → dRefused d = false →
        (∀ m, s.freeSlot (u % 2) = some m → does (.doorbellWrite u wc) (s.mapQueue m u wc d)) ∧
        (s.freeSlot (u % 2) = none → does (.doorbellWrite u wc) (s.setIoc (u % 2) { s.ioc (u % 2) with
          bells := (s.ioc (u % 2)).bells.set u wc }))) ∧
      (s.slotOfQueue u = none → (∃ k, s.queueDesc u = .error k) ∨
          (∃ d, s.queueDesc u = .ok d ∧ bits d.toNat 62 1 = 1 ∧ dRefused d = true) →
        does (.doorbellWrite u wc) (s.postHost (u % 2) ⟨3, 0, u, 0, 0, 0⟩))) ∧
    (s.idleOver n = true →
      (∀ u, s.devPut sp (dRcwb q.desc) q.saveBytes = .ok u → does (.slotIdleTimeout n) (((u.setSlot n QSlot.reset).setIoc
        (slotIoc n) { u.ioc (slotIoc n) with qsaved := insertNat q.qid (u.ioc (slotIoc n)).qsaved }).slotFreed (slotIoc n))) ∧
      (∀ e, s.devPut sp (dRcwb q.desc) q.saveBytes = .error e → does (.slotIdleTimeout n) (s.faultSlot n 6 e))) ∧
    (n < 128 → does (.queueReset n) ((s.setSlot n { q with
      st := .idle, code := 0, wc := 0, rc := 0, delta := Vector.replicate 16 0, given := 0, pkt := none, ins := [],
      owed := none, idleAt := s.now }).dropTurn n)) ∧
    (n < 128 → does (.queueResetUnmap n) (((s.setSlot n QSlot.reset).dropTurn n).slotFreed (slotIoc n)) ∧
      (io.bells = [] → does (.queueResetUnmap n) ((s.setSlot n QSlot.reset).dropTurn n))) ∧
    (∀ i m b t, (s.ioc i).turn = some (m, b, t) → t + 1000 * bits (s.ioc i).qslice.toNat 0 32 ≤ s.now →
      does (.qschTurnEnd i) (s.setIoc i { s.ioc i with turn := none })) ∧
    (∀ kind x, (kind, x) ∈ [(0, Instr.packetLaunch n), (1, .packetWait n), (2, .packetSignal n), (3, .packetMarker n)] →
      s.servedKind n kind = true →
      let taken := (s.takeTurn n).takePacket n
      let u := taken.1
      (taken.2 = none → does x (u.leaveTurn n)) ∧
      ∀ p, taken.2 = some p →
        let at' := ((u.slot n).origin p).space
        (kind = 1 → does x ((if p.waited = true then u.packetDone n else u.holdPacket n .waiting p).leaveTurn n)) ∧
        (kind = 2 → ∀ v, u.signal at' p = .ok v → does x ((v.packetDone n).leaveTurn n)) ∧
        (kind = 2 → ∀ e, u.signal at' p = .error e → does x ((u.faultSlot n 6 e).leaveTurn n)) ∧
        (kind = 3 → p.waited = true → does x ((u.packetDone n).leaveTurn n)) ∧
        (kind = 3 → p.waited = false →
          let marked := u.setSlot n { u.slot n with
            marks := (u.slot n).marks ++ [(u.queueKernels (u.slot n).qid, p, (u.slot n).owed)], owed := none }
          does x ((if p.ord = true then marked.holdPacket n .waiting p else marked.packetDone n).leaveTurn n)) ∧
        (kind = 0 → u.launchWaits n p = true → does x ((u.holdPacket n .waiting p).leaveTurn n)) ∧
        (kind = 0 → u.launchWaits n p = false →
          (∀ m, u.loadImage at' p = .ok m → does x ((u.holdPacket n .launching p).leaveTurn n)) ∧
          (∀ code, u.loadImage at' p = .error code → does x ((u.faultSlot n code (0, 0)).leaveTurn n)))) ∧
    (∀ p, q.st = .waiting → q.pkt = some p →
      let at' := (q.origin p).space
      let p' := { p with waited := true }
      (p.fld 0 % 4 = 1 ∨ (p.fld 0 % 4 = 0 ∧ p.wt = true ∧ p.waited = false) → ∀ e, s.devGetWord at' (p.fld 8) = .error e →
        does (.qschWaitSatisfied n) (s.faultSlot n 6 e)) ∧
      (p.fld 0 % 4 = 1 → ∀ x, s.devGetWord at' (p.fld 8) = .ok x → p.fld 9 ≤ x →
        does (.qschWaitSatisfied n) (s.holdPacket n .ready p')) ∧
      (p.fld 0 % 4 = 0 → p.wt = true → p.waited = false → ∀ x, s.devGetWord at' (p.fld 8) = .ok x → p.fld 9 ≤ x →
        does (.qschWaitSatisfied n) (s.holdPacket n (if s.launchWaits n p' = true then .waiting else .ready) p')) ∧
      (p.fld 0 % 4 = 0 → p.wt = false ∨ p.waited = true → p.ord = false ∨ s.queueKernels q.qid = [] →
        does (.qschWaitSatisfied n) (s.holdPacket n .ready p))) ∧
    (∀ p owed, s.markDue n = some (p, owed) →
      let u := s.setSlot n { q with marks := q.marks.tail }
      let goes := fun v : State => match owed with
        | some e => v.faultSlot n 6 e
        | none => v.markReleases n
      (∀ e, u.signal (q.origin p).space p = .error e → does (.markerEffect n) (u.faultSlot n 6 e)) ∧
      (∀ v, u.signal (q.origin p).space p = .ok v →
        (p.intr = true → does (.markerEffect n) (goes (v.postHost (slotIoc n) ⟨5, 0, q.qid, 0, p.fld 13, 0⟩))) ∧
        (p.intr = false → does (.markerEffect n) (goes v)))) ∧
    (∀ id k cls, s.savedKernel n = some (id, k) → s.findClusters k.ioc k.clus.length k.paired = some cls →
      does (.kernelPlacement n) (s.replaceKernel id k cls)) ∧
    (s.savedKernel n = none → ∀ u, s.stranded n = some u → does (.kernelPlacement n) u) ∧
    (∀ p, s.savedKernel n = none → s.stranded n = none → q.st = .launching → q.pkt = some p →
      slotIoc n = 0 ∨ (∀ m, m < 64 → s.placeLaunch m = none) → s.tenantRuns (slotIoc n) (q.origin p).tenant = true →
      let at' := (q.origin p).space
      (∀ code, s.loadImage at' p = .error code → does (.kernelPlacement n) (s.faultSlot n code (0, 0))) ∧
      (∀ m cls, s.loadImage at' p = .ok m → s.findClusters (slotIoc n) m.clus m.paired = some cls →
        does (.kernelPlacement n) ((s.startKernel n p m cls).packetDone n)))

/-- 08 R160; 14 R301 to R305, R311, R312, R420; 16 R346 to R352, R421: a cluster starts the task that fits, with the state
of 14 R305; records move as their dependences are met and as room appears; a kernel completes; a gang instant and a
request ask for saves; deadlines pass; a context is saved and restored; ABORT tokens are agreed and delivered. Details of saving,
of the tokens, of a pool record that finds no room, and of a slot that cannot be read are the model's choices (logs 39, 41, 59,
63). -/
def Obligations.TaskAndSaveEvents : Prop :=
  ∀ (s : State) (g : Nat),
    let c := s.ctx g
    let ioc := s.iocOf g
    let does := fun (x : Instr) (t : State) => exec x s = .next t
    (∀ cl p r k cls fs, s.dispatchable cl = some (p, r, k, cls, fs) →
      let x := s.cluster cl
      let u := s.setCluster cl { x with fifo := vset x.fifo p ((vget x.fifo p []).tail) }
      does (.taskDispatch cl) (u.startTask r k cls fs) ∧
      ∀ f, fs = [f] → ∃ t, exec (.taskDispatch cl) s = .next t ∧
        t.ctx f.g = { startCtx k r.kernel cls s.now r f f.g with st := .ready } ∧ f.g ∈ (t.core (coreOf f.g)).batch ∧
        (t.ctx f.g).r.pc = BitVec.ofNat 64 ((k.pkt.fld 1 + k.codeO + tyEntry (k.type (recType r.word))) / 4 * 4) ∧
        (t.ctx f.g).r.rs 1 = r.word ∧ (t.ctx f.g).r.rs 3 = r.dep ∧ (t.ctx f.g).r.rs 4 = BitVec.ofNat 64 f.off ∧
        (t.ctx f.g).r.rs 30 = BitVec.ofNat 64 f.cvhi) ∧
    (∀ cl i r k, (s.cluster cl).pool[i]? = some r → s.kernels.find? r.kernel = some k →
      let u := s.setCluster cl { s.cluster cl with pool := (s.cluster cl).pool.eraseIdx i }
      (∀ x t, s.devGetWord k.space (k.depAddr r.dep) = .ok x → bits r.dep.toNat 0 40 ≤ x →
        u.enqueue cl { r with met := true } = some t → does (.dependenceRelease cl i) t) ∧
      (∀ x, s.devGetWord k.space (k.depAddr r.dep) = .ok x → bits r.dep.toNat 0 40 ≤ x →
        u.enqueue cl { r with met := true } = none →
          does (.dependenceRelease cl i) ((u.setKernel r.kernel { k with live := k.live - 1 }).refuseSpawn r.by')) ∧
      (∀ e, s.devGetWord k.space (k.depAddr r.dep) = .error e →
        does (.dependenceRelease cl i) ((u.setKernel r.kernel { k with live := k.live - 1 }).kernelFault k e))) ∧
    (∀ i cl r, s.spill[i]? = some (cl, r) → s.drains i = true →
      does (.spillBufferDrain i) ({ s with spill := s.spill.eraseIdx i }.setCluster cl ((s.cluster cl).accept r))) ∧
    (∀ id k, s.kernelOver id = true → s.kernels.find? id = some k → ∃ t, exec (.kernelComplete id) s = .next t ∧
      t.kernels.find? id = none ∧ (∀ cl, (s.cluster cl).kernel = some id → t.cluster cl = Cluster.reset) ∧
      (∀ cl, (s.cluster cl).kernel ≠ some id → t.cluster cl = s.cluster cl) ∧
      (k.pkt.fld 7 = 0 → k.pkt.fld 10 = 0 → k.pkt.intr = false → ∀ a, memGet t.mem a = memGet s.mem a)) ∧
    (∀ i e, (s.ioc i).passes e s.now = true → (s.ioc i).acts e s.now = false →
      does (.gangInstant i e) (s.setIoc i ((s.ioc i).passedAt e s.now))) ∧
    (∀ i e, (s.ioc i).acts e s.now = true →
      let io := s.ioc i
      let t := (vget io.gsln e 0).toNat % 16
      let u := s.setIoc i { io.passedAt e s.now with tenant := some t }
      let v := (u.requestSave false (u.outgoing i t)).releaseKernels i
      does (.gangInstant i e) (if u.outgoing i t = [] then v else v.tellFull i)) ∧
    (g < 4096 → c.st ≠ .free → does (.prqGo ioc g) ((s.requestSave false [g]).tellFull ioc) ∧
      (c.twin = none → ∃ t, exec (.prqGo ioc g) s = .next t ∧
        t.ctx g = { c with pend := some (c.pend.getD s.now) } ∧ ∀ j, j ≠ g → t.ctx j = s.ctx j)) ∧
    (c.st ≠ .free → c.pendWhole = false → s.pastDeadline g 1 = true → c.twin = none →
      ∃ t, exec (.preemptDeadlineFirst g) s = .next t ∧ t.ctx g = { c with pendWhole := true }) ∧
    (c.pendWhole = true → s.pastDeadline g 2 = true → c.preemptible = true →
      (c.twin = none → c.wndp = true → does (.preemptDeadlineSecond g)
        (s.takeTrap g ⟨0x0B, 0, c.lastBundle, 0, 0, 0, 0, 0, .handler⟩)) ∧
      (c.twin = none → c.wndp = false → 1 ≤ (s.ioc ioc).freeSlots → does (.preemptDeadlineSecond g) (s.preempt g)) ∧
      (∀ h, c.twin = some h → (s.ctx h).preemptible = true → c.wndp = false → (s.ctx h).wndp = false →
        2 ≤ (s.ioc ioc).freeSlots → does (.preemptDeadlineSecond g) ((s.preempt g).preempt h))) ∧
    (c.parkedReady = true →
      (c.twin = none → 1 ≤ (s.ioc ioc).freeSlots → does (.parkedSave g) (s.parkSave g)) ∧
      (∀ h, c.twin = some h → (s.ctx h).parkedReady = true → 2 ≤ (s.ioc ioc).freeSlots →
        does (.parkedSave g) ((s.parkSave g).parkSave h))) ∧
    (∀ hint, c.saving = some hint → s.saveReady g = true →
      let slot := s.slotTaken g
      let v := s.savedOf g (4096 + s.nextId) ioc slot hint
      let base := (s.ioc ioc).svpb.toNat % 2 ^ 57 + 2 ^ 21 * slot
      (∀ u, s.writePieces base (s.slotPieces g v) = some u →
        does (.saveComplete g) ((u.putAway g v (s.keepOf g hint)).releaseKernels ioc)) ∧
      (s.writePieces base (s.slotPieces g v) = none →
        does (.saveComplete g) ((s.setCtx g { c with trapc := 0x19 }).kill g))) ∧
    (∀ k l, s.restorable k = some l →
      ((∀ e ∈ l, s.slotReads e.2.1 = true) → does (.restore k) (l.foldl (fun s e => s.restoreOn e.1 e.2.1 e.2.2) s)) ∧
      (∀ e, l = [e] → s.slotReads e.2.1 = false → (s.ctxs.find? e.2.1.gcid).isSome = true →
        does (.restore k) ((s.setCtx e.2.1.gcid { s.ctx e.2.1.gcid with trapc := 0x19 }).kill e.2.1.gcid))) ∧
    ∀ (grp : BitVec 16) (st : Word),
      let toks := (s.ioc 0).tokens
      (s.aborting grp.toNat = false →
        let u := s.endColls grp.toNat
        does (.abortTokenReceive grp st) (u.setIoc 0 { u.ioc 0 with
          tokens := (u.ioc 0).tokens ++ [⟨grp.toNat, minStep st (s.groupStep grp.toNat), s.now⟩] })) ∧
      (s.unreachable = false → ∃ t, exec (.abortAnswer grp st) s = .next t ∧ (t.ioc 0).tokens = toks.map (fun k =>
        if k.grp = grp.toNat ∧ s.now ≤ k.at' + 100000 then { k with step := minStep k.step st } else k)) ∧
      (∀ t, toks.find? (fun t => t.grp == grp.toNat && decide (t.at' + 100000 ≤ s.now)) = some t →
        does (.abortAnswerWindowExpiry grp) ((s.setIoc 0 { s.ioc 0 with
          tokens := toks.filter fun x => x.grp != grp.toNat }).deliverAbort t))

/-! ### Events of the fabric, the device registers, the memory units and the MSC -/

/-- 00 R6; 06 R103; 11 R236; 15 R324; 17 R375; 18 R378 to R392; 20 R401: links, global time, the aperture, registers with behaviour,
FREEZE, module reset and the retirement record. While the package is frozen every register outside the MSC keeps its value and a
read clears nothing. -/
def Obligations.FabricEvents : Prop :=
  ∀ (s : State) (i : Nat) (x : Word),
    let m := s.msc
    let io := s.ioc i
    let does := fun (k : Instr) (t : State) => exec k s = .next t
    (i < 27 → (s.link i).dead = false → (s.link i).failed = false → 6 ≤ m.boot →
      let k := s.link i
      let put := fun l : Link => s.setLink i l
      (k.inj = [] →
        let got := put { k with bad := 0, good := k.good + 1 }
        does (.linkFlitReceive i false) (put { k with bad := k.bad + 1 }) ∧
        (Config.quoteFlit i k.good = none ∨ 18 ≤ i → does (.linkFlitReceive i true) got) ∧
        ∀ nonce, Config.quoteFlit i k.good = some nonce → i < 18 → does (.linkFlitReceive i true)
          { got with msc := { m with quotes := m.quotes ++ [.peer i (leBytes nonce.toNat 32)] } }) ∧
      (∀ lane w n, k.inj = [(lane, ⟨w, n⟩)] → m.dbgen.getLsbD 0 = true → bits w.toNat 0 4 = 0xA → bits w.toNat 32 32 = n + 1 →
        does (.linkFlitReceive i true) (put { k with bad := k.bad + 1, inj := [(lane, ⟨w &&& ~~~8#64, n + 1⟩)] })) ∧
      ∀ good, ∃ t, exec (.linkFlitReceive i good) s = .next t ∧ t.link i = k.receive m.dbgen good) ∧
    (i < 27 → (s.link i).dead = true ∨ 17 ≤ (s.link i).bad ∨ m.boot < 6 → ∀ good, does (.linkFlitReceive i good) s) ∧
    (i < 27 → (s.link i).dead = false →
      let t := (s.setLink i { s.link i with dead := true }).postHost (linkIoc i) ⟨10, 0, 0, 0, i, 0⟩
      does (.linkDead i) ((t.groupsServed i).foldl (fun s n => s.sendAbort n (s.groupStep n)) t)) ∧
    does (.ptpMessage i) { s with now := i } ∧
    (∀ o n y, (apertureForm o n = false → does (.apertureRead o n) s ∧ does (.apertureWrite o n y) s) ∧
      (apertureForm o n = true →
      (s.aperture o n false = none → does (.apertureRead o n) (s.postHost 0 ⟨11, 0, 0, 0, s.apertureAddr o, 0⟩)) ∧
      (∀ ps, s.aperture o n false = some ps → does (.apertureRead o n) s ∧ s.apertureValue o n = s.peekAll ps) ∧
      (∀ ps, s.aperture o n true = some ps → does (.apertureWrite o n y) (s.pokeAll 0 ps (leBytes y n))) ∧
      (s.aperture o n true = none → does (.apertureWrite o n y) (s.postHost 0 ⟨11, 0, 0, 0, s.apertureAddr o, 0⟩)))) ∧
    (m.frz = false →
      (i < 2 → does (.hircWrite i x) (s.setIoc i { io with hirc := x, msg := false }) ∧
        does (.idropRead i) (s.setIoc i { io with idrop := 0 })) ∧
      (hotUnit i = true → does (.hndropRead i) (s.setUnit i { s.unit i with hndrop := 0 })) ∧
      does .atstRead { s with msc := { m with atst := m.atst &&& ~~~8#64 } } ∧
      (i < 32 → (s.spc i).shadows = [] → does (.sftbWrite i x) (s.setSpc i { s.spc i with sftb := x &&& baseMask 6 })) ∧
      (x.getLsbD 0 = true → does (.frzWrite x) s.freeze) ∧ (100 ≤ i → does (.freezePin i) s.freeze)) ∧
    (m.frz = true → does (.hircWrite i x) s ∧ does (.idropRead i) s ∧ does (.hndropRead i) s ∧ does .atstRead s ∧
      does (.sftbWrite i x) s ∧
      ∀ r : RegName, r ∉ [RegName.susth, .sysrt, .atnc, .atbuf, .uvcfg] → does (.registerWrite r i x) s) ∧
    (x.getLsbD 0 = true →
      (m.atst.getLsbD 0 = true → does (.atctlGo x) { s with msc := { m with atst := m.atst ||| 8 } }) ∧
      (m.atst.getLsbD 0 = false → does (.atctlGo x) { s with msc := { m with
        atst := (m.atst &&& ~~~6#64) ||| 1, quotes := m.quotes ++ [.host m.atbuf.toNat m.nonce] } })) ∧
    (∀ r : RegName, does (.registerWrite r i x) (s.writeReg r i x)) ∧
    (let k := s.core (i / 12)
      let l := s.lkm (i / 4)
      (i = 0 →
        does (.registerWrite .uvcfg i x) { s with msc := ({ m with uvcfg := x &&& 0xFFFF000F#64 } : Msc).cool } ∧
        does (.registerWrite .atbuf i x) { s with msc := ({ m with atbuf := x &&& baseMask 12 } : Msc).cool } ∧
        (let w : State := { s with msc := ({ m with susth := x &&& low 52 } : Msc).cool };
          (m.frz = true → does (.registerWrite .susth i x) w) ∧
          (m.frz = false → does (.registerWrite .susth i x) ((List.range 512).foldl State.thresholds w)))) ∧
      (m.frz = false →
        (i < 6144 → does (.registerWrite .lspswz i x) (s.writeSwz (i / 12) (i % 12) (swzWord x)) ∧
          (k.swz.at 0 (i % 12) = swzWord x → does (.registerWrite .lspswz i x)
            (s.setCore (i / 12) { k with swz := k.swz.set (i % 12) (swzWord x) }))) ∧
        (i < 512 → ∀ j, j < 32 →
          let c := s.core i
          let old := c.rings.at 0 j
          let halves := fun lo hi : Word => s.setCore i { c with rings := c.rings.set j (hi ++ lo) }
          does (.registerWrite .ringt (64 * i + 2 * j) x)
            (halves (old.extractLsb' 35 29 ++ x.extractLsb' 0 35) (old.extractLsb' 64 64)) ∧
          does (.registerWrite .ringt (64 * i + 2 * j + 1) x) (halves (old.extractLsb' 0 64) x)) ∧
        (i < 512 → does (.registerWrite .ainj i x) (s.setCore i { s.core i with ainj := x &&& low 22 })) ∧
        (i < 2 → does (.registerWrite .predl i x) (s.setIoc i { io with predl := x &&& low 32 })) ∧
        (i < 32 → does (.registerWrite .lkcm i x)
          ((s.lkMatrix (i / 4) (i % 4) x).1.lkEffects (s.lkMatrix (i / 4) (i % 4) x).2) ∧
          (l.ents = [] → does (.registerWrite .lkcm i x) (s.setLkm (i / 4) { l with cm := vset l.cm (i % 4) x }))) ∧
        (i < 12 → does (.registerWrite .hrefcfg i x) (s.setUnit i { s.unit i with
          refcfg := BitVec.ofNat 64 (min 8 (bits x.toNat 0 4)) })) ∧
        (i < 27 → ∀ lane, lane < lanesOf i → lane < 64 → does (.registerWrite .linj (64 * i + lane) x)
          (s.setLink i { s.link i with inj := (s.link i).inj.set lane ⟨x, 0⟩ })))) ∧
    (m.ready.getLsbD 0 = true → s.readReg .qtb i = io.qtb ∧ s.readReg .lkcm i = vget (s.lkm (i / 4)).cm (i % 4) 0 ||| 0x01010101010101FF ∧
      s.readStatus .sftb i = (s.spc i).sftb ∧ s.readStatus .hirc i = io.hirc ∧ s.readStatus .idrop i = io.idrop ∧
      s.readStatus .hndrop i = (s.unit i).hndrop ∧ s.readStatus .atst i = m.atst) ∧
    (m.ready.getLsbD 0 = false → (∀ r, s.readReg r i = 0) ∧ ∀ r, r ≠ .ready → s.readStatus r i = 0) ∧
    (i < 512 → (HostAccess.write 1 (0x100F000 + 0x10000 * i) 8 x.toNat).event = some (.registerWrite .ainj i x)) ∧
    (∀ o n y, n ≠ 8 ∨ o % 8 ≠ 0 → s.windowRead o n = 0 ∧ (HostAccess.write 0 o n y).event = none ∧
      (HostAccess.write 1 o n y).event = none) ∧
    (let keep := fun (spc : Bool) (l : List Nat) => l.filter fun n => !m.clears.contains (spc, n)
      let cores := keep false m.recCores
      let spcs := keep true m.recSpcs
      does .moduleReset { State.reset with
        cores := cores.map fun k => (k, { Core.reset with ret := true }), spcs := spcs.map fun k => (k, { Spc.reset with ret := true }),
        msc := { Msc.reset with recCores := cores, recSpcs := spcs, boot := 0, ready := 0 },
        inbox := s.inbox, ticks := s.ticks, now := s.now }) ∧
    ∀ spc, (∀ k ∈ s.kernels, k.2.saved = true ∨ k.2.clus = []) →
      does (.retirementClear spc i) { s with msc := { m with clears := m.clears ++ [(spc, i)] } }

/-- 01 R18; 02 R44; 17 R364 to R368, R371, R373 to R375; 18 R387: what the memory controllers do of their own, the MSC's
undervolting and power ceiling, and the bundle that decodes to nothing, which traps ILLEGAL. That power states, holds and refresh
change no value, how the scrub units are numbered, and what crosses PFTH are the model's choices (logs 46, 47, 48). -/
def Obligations.MemoryAndMscEvents : Prop :=
  ∀ (s : State) (u j : Nat),
    let m := s.unit u
    let d := m.debt.at 0 j
    let does := fun (k : Instr) (t : State) => exec k s = .next t
    let put := fun x : MemUnit => s.setUnit u x
    (u < 28 → j < unitSize u → m.state j = 0 → hotUnit u = false ∨ m.pdt ≠ 0 →
      does (.powerDownEntry u j) (put { m with ps := m.ps.set j 1 })) ∧
    (hotUnit u = true → j < unitSize u → m.state j < 2 → m.srt ≠ 0 →
      does (.selfRefreshEntry u j) (put { m with ps := m.ps.set j 2 })) ∧
    (j ∈ m.exits →
      does (.powerStateExit u j) (put { m with ps := m.ps.erase j, exits := m.exits.filter (· != j) })) ∧
    (hotUnit u = true →
      (m.hold = none → j ∉ m.refr →
        (d < m.pmax → does (.refreshDue u j true) (put { m with debt := m.debt.set j (d + 1) })) ∧
        (∀ busy, busy = false ∨ m.pmax ≤ d → does (.refreshDue u j busy) (put { m with refr := insertNat j m.refr }))) ∧
      (j ∈ m.refr → does (.refreshComplete u j) (put { m with refr := m.refr.filter (· != j) })) ∧
      (j ∉ m.refr → 1 < d → does (.refreshComplete u j) (put { m with debt := m.debt.set j (d - 1) })) ∧
      (j ∉ m.refr → d ≤ 1 → does (.refreshComplete u j) (put { m with debt := m.debt.erase j })) ∧
      (m.hold = none → m.state (Config.partOf u (Config.bankAddr u j % 2 ^ 48) % unitSize u) ≠ 3 → does (.activationAlert u j) (put { m with
        blocked := insertNat j m.blocked, refr := m.refr.filter (· != j)
        debt := if d = m.pmax then m.debt.erase j else m.debt
        alerts := if d = m.pmax then insertNat j m.alerts else m.alerts.filter (· != j) })) ∧
      (j ∈ m.blocked → ∃ t, exec (.alertBackoffComplete u j) s = .next t ∧ j ∉ (t.unit u).blocked ∧ j ∉ (t.unit u).alerts ∧
        (t.unit u).debt = m.debt ∧ (j ∈ m.alerts → (t.unit u).elwc = m.elwc + 1) ∧ (j ∉ m.alerts → (t.unit u).elwc = m.elwc)) ∧
      (m.hold = none → ∃ t, exec (.criticalTempAssert u) s = .next t ∧ (t.unit u).hold = some s.now ∧
        (t.unit u).blocked = [] ∧ (t.unit u).alerts = [] ∧ (t.unit u).debt = [] ∧
        ∀ k, k < unitSize u → (t.unit u).state k = 3) ∧
      (∀ n, n = bits m.hotcfg.toNat 16 16 * 1000 → n ≠ 0 → m.decayAt + n ≤ s.now →
        does (.hotnessDecay u) (put { m with decayAt := m.decayAt + n, hot := m.hot.map fun e => (e.1, e.2.1, e.2.2 / 2) }))) ∧
    (m.hold ≠ none → does (.criticalTempClear u) (put { m with
      hold := none, held2 := false, exits := List.range (unitSize u), debt := [] })) ∧
    (∀ t, m.hold = some t → m.held2 = false → t + 2000000 ≤ s.now → ∃ v, exec (.thermalHoldTimeout u) s = .next v ∧
      (v.unit u).held2 = true ∧ (v.unit u).elwc = m.elwc + 1) ∧
    (u < 28 → bits m.scrb.toNat 0 32 ≠ 0 → m.hold = none →
      let pa := unitBase u + 8 * m.scrubAt
      let on := put { m with scrubAt := (m.scrubAt + 1) % (unitBytes u / 8) }
      does (.scrubStep u .clean) on ∧
      (s.poisoned pa = true → does (.scrubStep u .uncorrectable) on) ∧
      (s.poisoned pa = false →
        does (.scrubStep u .uncorrectable) ((on.poisonRange pa 8).logError pa 2 2 0) ∧
        (u < 12 ∨ 20 ≤ u → does (.scrubStep u .corrected) (on.logError pa 1 2 0)))) ∧
    (u < 512 → bits (s.core u).scrbL.toNat 0 32 ≠ 0 → does (.scrubStep (28 + u) .clean)
      (s.setCore u { s.core u with scrubLAt := ((s.core u).scrubLAt + 1) % 98304 })) ∧
    (u < 512 → bits (s.core u).scrbA.toNat 0 32 ≠ 0 → (s.core u).scrubAAt ∉ (s.core u).acc.bad →
      ∃ t, exec (.scrubStep (540 + u) .uncorrectable) s = .next t ∧
        (t.core u).acc = { (s.core u).acc with bad := insertNat (s.core u).scrubAAt (s.core u).acc.bad } ∧
        (t.core u).elwcA = (s.core u).elwcA + 1 ∧ (t.core u).scrubAAt = ((s.core u).scrubAAt + 1) % 65536) ∧
    (s.msc.uvAt + 60 * second ≤ s.msc.up → does .uvEvaluate { s with msc := { s.msc with
      uvAt := s.msc.uvAt + 60 * second, volts := s.msc.volts.map fun v => v.evaluate s.msc } }) ∧
    (u < 4 →
      let v := s.msc.volt u
      let hot := v.above s.msc.up s.msc.pfth
      let volt := fun x : Volt => { s with msc := s.msc.setVolt u x }
      (j ∈ hot → j ∉ v.crossed →
        (v.step ≠ 0 → ∃ t, exec (.uvCrossingRaise u j) s = .next t ∧ (t.msc.volt u).step = v.step - 1 ∧
          (t.msc.volt u).hold = some (s.msc.up + 86400 * second) ∧ (t.msc.volt u).crossed = hot) ∧
        (v.step = 0 → does (.uvCrossingRaise u j) (volt { v with crossed := hot, win := some (v.win.getD s.msc.up) }))) ∧
      (∀ n, v.win = some n → n + 600 * second ≤ s.msc.up →
        does (.uvWindowExpiry u) (hot.foldl State.failing (volt { v with win := none }))) ∧
      (∀ n, v.hold = some n → n ≤ s.msc.up → does (.uvHoldExpiry u) (volt { v with hold := none }))) ∧
    (∀ on, does (.powerCeilingThrottle on) { s with msc := { s.msc with throttle := on } }) ∧
    does (.illegalBundle u) (s.trapped ⟨0x01, 0, s.me.r.pc, u, 0, 0, 0, 0, .handler⟩)

/-! ### The machine -/

/-- 00 R6; 01 R12; 02 R41, R42; 04 R60, R65; 13 R270; 14 R290, R297, R298; 15 R318, R334; 16 R347; 17 R365, R372, R375; 18
R380, R387, R388, R391: what reset leaves, as the tables of the manual give it: every context FREE with one open interval,
every core gated, every lock class with the default matrix, no queue mapped, every memory word zero. The memory is in
its canonical form (the model's own claim). -/
def Obligations.ResetState : Prop :=
  let s := State.reset
  (∀ g, let c := s.ctx g
    c.st = .free ∧ c.ivs.length = 1 ∧ c.hnd = false ∧ c.dscd = false ∧ c.wndp = false ∧ c.r.stgb = 0 ∧ c.trapc = 0 ∧
      c.trappc = 0 ∧ c.trapsl = 0 ∧ c.faultva = 0 ∧ c.stepno = 0 ∧ c.r.vrnd = 0 ∧ c.r.vflg = 0 ∧ c.r.mxcfg = 0 ∧ c.siglo = 0 ∧
      c.sighi = 0 ∧ c.runlim = 65536 ∧ c.r.rs 0 = 0 ∧ c.r.readPred 0 = true ∧ c.r.rl 0 = BitVec.allOnes 128) ∧
    (∀ k, (s.core k).gated = true ∧ (s.core k).ready = [] ∧ (s.core k).last = 7 ∧ (s.core k).ainj = 0 ∧
      (s.core k).scrbL = 30 ∧ (s.core k).scrbA = 30 ∧ (s.core k).score = 0) ∧
    (∀ k j, j < 4 → vget (s.lkm k).cm j 0 = 0x014503130F4F3FFF) ∧ (∀ k, (s.lkm k).lease = 100000) ∧
    (∀ k, (s.slot k).st = .free ∧ (s.slot k).wc = 0 ∧ (s.slot k).rc = 0) ∧
    (∀ i, (s.ioc i).qslice = 500 ∧ (s.ioc i).predl = 50000 ∧ (s.ioc i).hirs = 8 ∧ (s.ioc i).hiwc = 0 ∧ (s.ioc i).hirc = 0) ∧
    (s.ioc 0).place = 0 ∧ (s.ioc 1).place = 64 ∧
    (∀ u, (s.unit u).pmcfg.toNat = 100 + 1000 * 2 ^ 16 ∧ (s.unit u).refcfg = 8 ∧ (s.unit u).hotcfg.toNat = 4096 + 1000 * 2 ^ 16 ∧
      (s.unit u).hnrs = 6) ∧
    s.msc.susth.toNat = 512 + 2048 * 2 ^ 16 + 8192 * 2 ^ 32 + 4 * 2 ^ 48 ∧ s.msc.frz = false ∧ s.msc.ready = 1 ∧
    (∀ a, memGet s.mem a = 0) ∧ s.memOk

/-- 02 R22, R40, R44: a step that issues a context fetches the bundle at its PC, decodes it, and runs the instructions of
its slots in slot order, each by its meaning; a bundle that does not decode traps ILLEGAL. A step carries out what the state
chooses, and a choice that makes an event happen runs that event's meaning (which choice is taken is free, log 5). -/
def Obligations.StepRunsDecoded : Prop :=
  (∀ (s : State) (g : Nat),
    let next := { s with turn := none, ticks := s.ticks + 1 }
    let u := { next with cycles := s.cycles + 1, cur := g }
    (s.turn = some g → s.issuable g = true → s.msc.frz = false → s.choose = .issue g) ∧
    (s.choose = .issue g →
      (∀ ws lines ps, u.fetch g = .words ws lines → decodeBundle (u.ctx g).al.vregs ws = .ok ps → u.throttled ps = false →
        step s = ((u.fillLines g lines).beginBundle g ws.length ps).runSlots ps.length) ∧
      (∀ ws lines sl, u.fetch g = .words ws lines → decodeBundle (u.ctx g).al.vregs ws = .error sl →
        step s = .next ((u.fillLines g lines).trapped ⟨0x01, 0, (u.ctx g).r.pc, sl, 0, 0, 0, 0, .handler⟩)) ∧
      (∀ sl, u.fetch g = .frame sl → step s = .next (u.trapped ⟨0x01, 0, (u.ctx g).r.pc, sl, 0, 0, 0, 0, .handler⟩)) ∧
      (∀ t, u.fetch g = .trap t → step s = .next (u.trapped t))) ∧
    step s = next.carry s.choose ∧
    (∀ e, next.carry (.event e) = next.runAt e) ∧
    (∀ e, next.heldBy e = [] → next.runAt e = runEvent e next) ∧
    (∀ e, next.heldBy e ≠ [] → next.runAt e = .next ((next.heldBy e).foldl State.wake next)) ∧
    (∀ e, let u := { next with inbox := s.inbox.erase e }
      (s.msc.frz = false ∨ e.whenFrozen = true → next.heldBy e = [] → next.carry (.input e) = runEvent e u) ∧
      (s.msc.frz = true → e.whenFrozen = false → next.carry (.input e) = .next u)) ∧
    runEvent .bringUp s = .next { s with msc := s.msc.bringUp } ∧
    (∀ x, runEvent (.debugEnable x) s = .next { s with msc := { s.msc with dbgen := x &&& 1 } }) ∧
    next.carry (.settle g) = .next (next.settle g) ∧
    (∀ e r t n, s.iss.rest = e :: r → exec e.2.2 (s.nextSlot e r) = .next t →
      s.runSlots (n + 1) = if r = [] then .next t else t.runSlots n)) ∧
  ∀ s : State,
    (∀ (core : Nat), runEvent (.clockRestart core) s = exec (.clockRestart core) s) ∧
    (∀ (g : Nat), runEvent (.runLimitDue g) s = exec (.runLimitDue g) s) ∧
    (∀ (g : Nat), runEvent (.runLimitExpiry g) s = exec (.runLimitExpiry g) s) ∧
    (∀ (g : Nat), runEvent (.exposedResultLand g) s = exec (.exposedResultLand g) s) ∧
    (∀ (g k : Nat), runEvent (.interlockedResultLand g k) s = exec (.interlockedResultLand g k) s) ∧
    (∀ (g : Nat), runEvent (.waitWake g) s = exec (.waitWake g) s) ∧
    (∀ (g : Nat), runEvent (.returningOpComplete g) s = exec (.returningOpComplete g) s) ∧
    (∀ (g : Nat), runEvent (.drainComplete g) s = exec (.drainComplete g) s) ∧
    (∀ (g : Nat), runEvent (.ttinvAcknowledge g) s = exec (.ttinvAcknowledge g) s) ∧
    (∀ (g : Nat), runEvent (.icinvAcknowledge g) s = exec (.icinvAcknowledge g) s) ∧
    (∀ (g : Nat), runEvent (.lockAnswer g) s = exec (.lockAnswer g) s) ∧
    (∀ (g : Nat), runEvent (.grantCacheRefill g) s = exec (.grantCacheRefill g) s) ∧
    (∀ (g : Nat), runEvent (.migrationWalkRetry g) s = exec (.migrationWalkRetry g) s) ∧
    (∀ (core k : Nat), runEvent (.weightBufferCurrent core k) s = exec (.weightBufferCurrent core k) s) ∧
    (∀ (core k : Nat), runEvent (.matrixRowsLand core k) s = exec (.matrixRowsLand core k) s) ∧
    (∀ (core k : Nat), runEvent (.xaccldRowsArrive core k) s = exec (.xaccldRowsArrive core k) s) ∧
    (∀ (core k : Nat), runEvent (.xchkComplete core k) s = exec (.xchkComplete core k) s) ∧
    (∀ (core k : Nat), runEvent (.xfixComplete core k) s = exec (.xfixComplete core k) s) ∧
    (∀ (core k : Nat), runEvent (.xepiCheck core k) s = exec (.xepiCheck core k) s) ∧
    (∀ (c : Nat), runEvent (.outputStageComplete c) s = exec (.outputStageComplete c) s) ∧
    (∀ (g : Nat), runEvent (.scbRelease g) s = exec (.scbRelease g) s) ∧
    (∀ (g : Nat), runEvent (.intervalAgreement g) s = exec (.intervalAgreement g) s) ∧
    (∀ (g : Nat), runEvent (.signatureArrival g) s = exec (.signatureArrival g) s) ∧
    (∀ (g : Nat), runEvent (.twinSkewExpiry g) s = exec (.twinSkewExpiry g) s) ∧
    (∀ (g : Nat), runEvent (.reExecutionStart g) s = exec (.reExecutionStart g) s) ∧
    (∀ (g : Nat), runEvent (.vote g) s = exec (.vote g) s) ∧
    runEvent (.scoreHalving) s = exec (.scoreHalving) s ∧
    (∀ (lkm k : Nat), runEvent (.leaseExpiry lkm k) s = exec (.leaseExpiry lkm k) s) ∧
    (∀ (g : Nat), runEvent (.bwaitBoundExpiry g) s = exec (.bwaitBoundExpiry g) s) ∧
    (∀ (c : Nat), runEvent (.absentTileRewalk c) s = exec (.absentTileRewalk c) s) ∧
    (∀ (c : Nat), runEvent (.copyComplete c) s = exec (.copyComplete c) s) ∧
    (∀ (c : Nat), runEvent (.cpywComplete c) s = exec (.cpywComplete c) s) ∧
    (∀ (c : Nat), runEvent (.loaderSlotStep c) s = exec (.loaderSlotStep c) s) ∧
    (∀ (c : Nat), runEvent (.storerSlotStep c) s = exec (.storerSlotStep c) s) ∧
    (∀ (c : Nat), runEvent (.klaunchPacketRead c) s = exec (.klaunchPacketRead c) s) ∧
    (∀ (c : Nat), runEvent (.collComplete c) s = exec (.collComplete c) s) ∧
    (∀ (grp rank seq gsize check op : Nat) (data : List Byte), runEvent (.collFlitReceive grp rank seq gsize check op data) s = exec (.collFlitReceive grp rank seq gsize check op data) s) ∧
    (∀ (c : Nat), runEvent (.fputComplete c) s = exec (.fputComplete c) s) ∧
    runEvent (.quoteComplete) s = exec (.quoteComplete) s ∧
    (∀ (u : Nat) (wc : Word), runEvent (.doorbellWrite u wc) s = exec (.doorbellWrite u wc) s) ∧
    (∀ (n : Nat), runEvent (.slotIdleTimeout n) s = exec (.slotIdleTimeout n) s) ∧
    (∀ (ioc : Nat), runEvent (.qschTurnEnd ioc) s = exec (.qschTurnEnd ioc) s) ∧
    (∀ (n : Nat), runEvent (.packetLaunch n) s = exec (.packetLaunch n) s) ∧
    (∀ (n : Nat), runEvent (.packetWait n) s = exec (.packetWait n) s) ∧
    (∀ (n : Nat), runEvent (.packetSignal n) s = exec (.packetSignal n) s) ∧
    (∀ (n : Nat), runEvent (.packetMarker n) s = exec (.packetMarker n) s) ∧
    (∀ (n : Nat), runEvent (.qschWaitSatisfied n) s = exec (.qschWaitSatisfied n) s) ∧
    (∀ (n : Nat), runEvent (.markerEffect n) s = exec (.markerEffect n) s) ∧
    (∀ (n : Nat), runEvent (.kernelPlacement n) s = exec (.kernelPlacement n) s) ∧
    (∀ (k : Nat), runEvent (.kernelComplete k) s = exec (.kernelComplete k) s) ∧
    (∀ (n : Nat), runEvent (.queueReset n) s = exec (.queueReset n) s) ∧
    (∀ (n : Nat), runEvent (.queueResetUnmap n) s = exec (.queueResetUnmap n) s) ∧
    (∀ (cl : Nat), runEvent (.taskDispatch cl) s = exec (.taskDispatch cl) s) ∧
    (∀ (cl k : Nat), runEvent (.dependenceRelease cl k) s = exec (.dependenceRelease cl k) s) ∧
    (∀ (k : Nat), runEvent (.spillBufferDrain k) s = exec (.spillBufferDrain k) s) ∧
    (∀ (ioc i : Nat), runEvent (.gangInstant ioc i) s = exec (.gangInstant ioc i) s) ∧
    (∀ (ioc g : Nat), runEvent (.prqGo ioc g) s = exec (.prqGo ioc g) s) ∧
    (∀ (g : Nat), runEvent (.preemptDeadlineFirst g) s = exec (.preemptDeadlineFirst g) s) ∧
    (∀ (g : Nat), runEvent (.preemptDeadlineSecond g) s = exec (.preemptDeadlineSecond g) s) ∧
    (∀ (g : Nat), runEvent (.parkedSave g) s = exec (.parkedSave g) s) ∧
    (∀ (g : Nat), runEvent (.saveComplete g) s = exec (.saveComplete g) s) ∧
    (∀ (k : Nat), runEvent (.restore k) s = exec (.restore k) s) ∧
    (∀ (grp : BitVec 16) (st : Word), runEvent (.abortTokenReceive grp st) s = exec (.abortTokenReceive grp st) s) ∧
    (∀ (grp : BitVec 16) (st : Word), runEvent (.abortAnswer grp st) s = exec (.abortAnswer grp st) s) ∧
    (∀ (grp : BitVec 16), runEvent (.abortAnswerWindowExpiry grp) s = exec (.abortAnswerWindowExpiry grp) s) ∧
    (∀ (link : Nat) (good : Bool), runEvent (.linkFlitReceive link good) s = exec (.linkFlitReceive link good) s) ∧
    (∀ (link : Nat), runEvent (.linkDead link) s = exec (.linkDead link) s) ∧
    (∀ (ns : Nat), runEvent (.ptpMessage ns) s = exec (.ptpMessage ns) s) ∧
    (∀ (o n : Nat), runEvent (.apertureRead o n) s = exec (.apertureRead o n) s) ∧
    (∀ (o n x : Nat), runEvent (.apertureWrite o n x) s = exec (.apertureWrite o n x) s) ∧
    (∀ (ioc : Nat) (x : Word), runEvent (.hircWrite ioc x) s = exec (.hircWrite ioc x) s) ∧
    (∀ (ioc : Nat), runEvent (.idropRead ioc) s = exec (.idropRead ioc) s) ∧
    (∀ (u : Nat), runEvent (.hndropRead u) s = exec (.hndropRead u) s) ∧
    (∀ (x : Word), runEvent (.atctlGo x) s = exec (.atctlGo x) s) ∧
    runEvent (.atstRead) s = exec (.atstRead) s ∧
    (∀ (spc : Nat) (x : Word), runEvent (.sftbWrite spc x) s = exec (.sftbWrite spc x) s) ∧
    (∀ (r : RegName) (i : Nat) (x : Word), runEvent (.registerWrite r i x) s = exec (.registerWrite r i x) s) ∧
    (∀ (ns : Nat), runEvent (.freezePin ns) s = exec (.freezePin ns) s) ∧
    (∀ (x : Word), runEvent (.frzWrite x) s = exec (.frzWrite x) s) ∧
    runEvent (.moduleReset) s = exec (.moduleReset) s ∧
    (∀ (spc : Bool) (n : Nat), runEvent (.retirementClear spc n) s = exec (.retirementClear spc n) s) ∧
    (∀ (u j : Nat), runEvent (.powerDownEntry u j) s = exec (.powerDownEntry u j) s) ∧
    (∀ (u j : Nat), runEvent (.selfRefreshEntry u j) s = exec (.selfRefreshEntry u j) s) ∧
    (∀ (u j : Nat), runEvent (.powerStateExit u j) s = exec (.powerStateExit u j) s) ∧
    (∀ (u bank : Nat) (busy : Bool), runEvent (.refreshDue u bank busy) s = exec (.refreshDue u bank busy) s) ∧
    (∀ (u bank : Nat), runEvent (.refreshComplete u bank) s = exec (.refreshComplete u bank) s) ∧
    (∀ (u bank : Nat), runEvent (.activationAlert u bank) s = exec (.activationAlert u bank) s) ∧
    (∀ (u bank : Nat), runEvent (.alertBackoffComplete u bank) s = exec (.alertBackoffComplete u bank) s) ∧
    (∀ (u : Nat), runEvent (.criticalTempAssert u) s = exec (.criticalTempAssert u) s) ∧
    (∀ (u : Nat), runEvent (.criticalTempClear u) s = exec (.criticalTempClear u) s) ∧
    (∀ (u : Nat), runEvent (.thermalHoldTimeout u) s = exec (.thermalHoldTimeout u) s) ∧
    (∀ (u : Nat) (err : EccErr), runEvent (.scrubStep u err) s = exec (.scrubStep u err) s) ∧
    (∀ (u : Nat), runEvent (.hotnessDecay u) s = exec (.hotnessDecay u) s) ∧
    runEvent (.uvEvaluate) s = exec (.uvEvaluate) s ∧
    (∀ (dom arr : Nat), runEvent (.uvCrossingRaise dom arr) s = exec (.uvCrossingRaise dom arr) s) ∧
    (∀ (dom : Nat), runEvent (.uvWindowExpiry dom) s = exec (.uvWindowExpiry dom) s) ∧
    (∀ (dom : Nat), runEvent (.uvHoldExpiry dom) s = exec (.uvHoldExpiry dom) s) ∧
    (∀ (sl : Nat), runEvent (.illegalBundle sl) s = exec (.illegalBundle sl) s) ∧
    (∀ (core part : Nat), runEvent (.matrixPartFree core part) s = exec (.matrixPartFree core part) s) ∧
    (∀ (core unit : Nat), runEvent (.iterativeUnitFree core unit) s = exec (.iterativeUnitFree core unit) s) ∧
    (∀ (core : Nat) (asid : BitVec 16) (tid : BitVec 20) (tile : Nat), runEvent (.tileWalkComplete core asid tid tile) s = exec (.tileWalkComplete core asid tid tile) s) ∧
    (∀ (g : Nat), runEvent (.shadowFrameCopyComplete g) s = exec (.shadowFrameCopyComplete g) s) ∧
    (∀ (g : Nat), runEvent (.fenceMarkerRelease g) s = exec (.fenceMarkerRelease g) s) ∧
    (∀ (on : Bool), runEvent (.powerCeilingThrottle on) s = exec (.powerCeilingThrottle on) s)

/-- 02 R22, R26 to R34, R43, R44: slot words written out field by field (E, class, OP, D, G, d, a, b, m) and what they
stand for; an unassigned OP value, and a slot of class K by itself, stand for nothing. -/
def Obligations.DecodeWords : Prop :=
  let reads := fun (w : Nat) (ks : List (BitVec 28)) (i : Instr) => (decodeSlot w ks).map (·.1) = some i
  reads 0b0_000_000001_0_0010_11111_11111_11100_00 [] (.br ⟨false, 2⟩ 0x1FFF0 []) ∧
    reads 0b0_000_000110_0_0000_01001_00100_00000_10 [] (.loopi ⟨false, 0⟩ 9 4 2) ∧
    reads 0b0_001_000001_1_0001_00101_00110_00111_00 [] (.add ⟨true, 1⟩ 5 6 7) ∧
    reads 0b0_001_100011_0_0000_00101_00010_00011_01 [] (.cmplt ⟨false, 0⟩ 5 2 3 1) ∧
    reads 0b0_010_000011_0_0000_00101_00110_00011_00 [] (.ldw ⟨false, 0⟩ 5 6 12 []) ∧
    reads 0b0_010_001000_0_0000_00111_11110_11110_00 [] (.std ⟨false, 0⟩ 7 30 0x78 []) ∧
    reads 0b0_010_010011_0_0000_00001_00001_00000_00 [] (.fence ⟨false, 0⟩ 2 4) ∧
    reads 0b0_011_010010_0_0000_00011_00111_01000_01 [] (.vcvt ⟨false, 0⟩ 3 7 4 0 1 none) ∧
    reads 0b0_011_010011_0_0000_01010_00010_00101_00 [0x300] (.vcmp ⟨false, 0⟩ 2 1 2 5 0 0x300) ∧
    reads 0b0_100_000001_0_0000_00000_01000_01001_01 [] (.xwld ⟨false, 0⟩ 8 9 1) ∧
    reads 0b0_101_001001_0_0000_00011_00100_00101_00 [] (.tspawn ⟨false, 0⟩ 3 4 5) ∧
    reads 0b0_101_001000_0_0000_00000_00101_00000_10 [] (.hadv ⟨false, 0⟩ 5 2) ∧
    reads 0b0_110_000101_0_0011_00100_00000_00100_00 [] (.csrr ⟨false, 3⟩ 4 0x010) ∧
    reads 0b0_110_000001_0_0000_00000_00000_00000_00 [] (.ckpt ⟨false, 0⟩) ∧
    (∀ (w : Nat) (ks : List (BitVec 28)) (c : Nat) (ops : List Nat),
      (c, ops) ∈ [(0, List.range' 0x0C 52), (1, List.range' 0x3A 6), (2, List.range' 0x2E 18), (3, List.range' 0x32 6),
        (4, List.range' 0x0D 51), (5, List.range' 0x0E 50), (6, List.range' 0x10 48), (7, List.range 64)] →
      bits w 28 3 = c → bits w 22 6 ∈ ops → decodeSlot w ks = none)

/-- 02 R26 to R34, R43: decoding and encoding agree. The slot word and K payloads of every well-formed instruction decode
to that instruction; and its words, put first in a bundle that NOPs fill up, decode to a bundle whose first slot is that
instruction. -/
def Obligations.DecodeEncode : Prop :=
  ∀ i : Instr, slotWord i ≠ 0 ∨ i = .nopC → wfErr i = none →
    (decodeSlot (slotWord i) (payloads i)).map (·.1) = some i ∧
    ((headOfInstr i).d = false → vregsOk 32 i = true → isDrainWord (slotWord i) = false →
      ∃ p ps, decodeBundle 32 (padBundle (encode i)) = .ok (p :: ps) ∧ p.idx = 0 ∧ p.ins = i ∧ p.ks = payloads i)

/-- 16 R341 to R345; the model's scope: every error of the manual is a trap, an engine fault or a record, so no state stops
the package: every step from every state answers a next state. -/
def Obligations.StepNeverStops : Prop := ∀ s : State, (∃ t, step s = .next t) ∧ s.neverStops

/-- Every step keeps the memory in its canonical form: addresses strictly rising, no entry equal to an unlisted byte. -/
def Obligations.StepKeepsMemory : Prop := ∀ s t : State, s.memOk → step s = .next t → t.memOk

/-- 18 R388: while the package is frozen nothing of any context moves, no core cycle passes, and the package stays frozen,
until a module reset. -/
def Obligations.FrozenStandsStill : Prop :=
  ∀ s t : State, s.msc.frz = true → .moduleReset ∉ s.inbox → step s = .next t →
    t.msc.frz = true ∧ t.cycles = s.cycles ∧
      ∀ g, let c := s.ctx g; let d := t.ctx g
        d.r = c.r ∧ d.st = c.st ∧ d.fl = c.fl ∧ d.mx = c.mx ∧ d.scb = c.scb ∧ d.ivs = c.ivs ∧ d.todo = c.todo ∧ d.wait = c.wait
end

