-- ==== Sys2Proof/Laws/State.lean ====
section
/-! SUPPORT. What each update of the state leaves as it was, one lemma for each field, and what it writes. -/

namespace Sys2Proof.Machine

@[simp] theorem State.setCtx_cur (s : State) (g : Nat) (x : Ctx) : (s.setCtx g x).cur = s.cur := rfl
@[simp] theorem State.setCtx_iss (s : State) (g : Nat) (x : Ctx) : (s.setCtx g x).iss = s.iss := rfl
@[simp] theorem State.setCtx_turn (s : State) (g : Nat) (x : Ctx) : (s.setCtx g x).turn = s.turn := rfl
@[simp] theorem State.setCtx_inbox (s : State) (g : Nat) (x : Ctx) : (s.setCtx g x).inbox = s.inbox := rfl
@[simp] theorem State.setCtx_ctxs (s : State) (g : Nat) (x : Ctx) : (s.setCtx g x).ctxs = s.ctxs.set g x := rfl
@[simp] theorem State.setCtx_cores (s : State) (g : Nat) (x : Ctx) : (s.setCtx g x).cores = s.cores := rfl
@[simp] theorem State.setCtx_clusters (s : State) (g : Nat) (x : Ctx) : (s.setCtx g x).clusters = s.clusters := rfl
@[simp] theorem State.setCtx_spcs (s : State) (g : Nat) (x : Ctx) : (s.setCtx g x).spcs = s.spcs := rfl
@[simp] theorem State.setCtx_lkms (s : State) (g : Nat) (x : Ctx) : (s.setCtx g x).lkms = s.lkms := rfl
@[simp] theorem State.setCtx_iocs (s : State) (g : Nat) (x : Ctx) : (s.setCtx g x).iocs = s.iocs := rfl
@[simp] theorem State.setCtx_slots (s : State) (g : Nat) (x : Ctx) : (s.setCtx g x).slots = s.slots := rfl
@[simp] theorem State.setCtx_kernels (s : State) (g : Nat) (x : Ctx) : (s.setCtx g x).kernels = s.kernels := rfl
@[simp] theorem State.setCtx_cmds (s : State) (g : Nat) (x : Ctx) : (s.setCtx g x).cmds = s.cmds := rfl
@[simp] theorem State.setCtx_subs (s : State) (g : Nat) (x : Ctx) : (s.setCtx g x).subs = s.subs := rfl
@[simp] theorem State.setCtx_nextId (s : State) (g : Nat) (x : Ctx) : (s.setCtx g x).nextId = s.nextId := rfl
@[simp] theorem State.setCtx_spill (s : State) (g : Nat) (x : Ctx) : (s.setCtx g x).spill = s.spill := rfl
@[simp] theorem State.setCtx_units (s : State) (g : Nat) (x : Ctx) : (s.setCtx g x).units = s.units := rfl
@[simp] theorem State.setCtx_msc (s : State) (g : Nat) (x : Ctx) : (s.setCtx g x).msc = s.msc := rfl
@[simp] theorem State.setCtx_links (s : State) (g : Nat) (x : Ctx) : (s.setCtx g x).links = s.links := rfl
@[simp] theorem State.setCtx_saved (s : State) (g : Nat) (x : Ctx) : (s.setCtx g x).saved = s.saved := rfl
@[simp] theorem State.setCtx_savedCores (s : State) (g : Nat) (x : Ctx) : (s.setCtx g x).savedCores = s.savedCores := rfl
@[simp] theorem State.setCtx_devTlb (s : State) (g : Nat) (x : Ctx) : (s.setCtx g x).devTlb = s.devTlb := rfl
@[simp] theorem State.setCtx_flits (s : State) (g : Nat) (x : Ctx) : (s.setCtx g x).flits = s.flits := rfl
@[simp] theorem State.setCtx_collSeq (s : State) (g : Nat) (x : Ctx) : (s.setCtx g x).collSeq = s.collSeq := rfl
@[simp] theorem State.setCtx_mem (s : State) (g : Nat) (x : Ctx) : (s.setCtx g x).mem = s.mem := rfl
@[simp] theorem State.setCtx_poison (s : State) (g : Nat) (x : Ctx) : (s.setCtx g x).poison = s.poison := rfl
@[simp] theorem State.setCtx_now (s : State) (g : Nat) (x : Ctx) : (s.setCtx g x).now = s.now := rfl
@[simp] theorem State.setCtx_cycles (s : State) (g : Nat) (x : Ctx) : (s.setCtx g x).cycles = s.cycles := rfl
@[simp] theorem State.setCtx_ticks (s : State) (g : Nat) (x : Ctx) : (s.setCtx g x).ticks = s.ticks := rfl
@[simp] theorem State.setCtx_upsets (s : State) (g : Nat) (x : Ctx) : (s.setCtx g x).upsets = s.upsets := rfl

@[simp] theorem State.setMe_cur (s : State) (x : Ctx) : (s.setMe x).cur = s.cur := rfl
@[simp] theorem State.setMe_iss (s : State) (x : Ctx) : (s.setMe x).iss = s.iss := rfl
@[simp] theorem State.setMe_turn (s : State) (x : Ctx) : (s.setMe x).turn = s.turn := rfl
@[simp] theorem State.setMe_inbox (s : State) (x : Ctx) : (s.setMe x).inbox = s.inbox := rfl
@[simp] theorem State.setMe_ctxs (s : State) (x : Ctx) : (s.setMe x).ctxs = s.ctxs.set s.cur x := rfl
@[simp] theorem State.setMe_cores (s : State) (x : Ctx) : (s.setMe x).cores = s.cores := rfl
@[simp] theorem State.setMe_clusters (s : State) (x : Ctx) : (s.setMe x).clusters = s.clusters := rfl
@[simp] theorem State.setMe_spcs (s : State) (x : Ctx) : (s.setMe x).spcs = s.spcs := rfl
@[simp] theorem State.setMe_lkms (s : State) (x : Ctx) : (s.setMe x).lkms = s.lkms := rfl
@[simp] theorem State.setMe_iocs (s : State) (x : Ctx) : (s.setMe x).iocs = s.iocs := rfl
@[simp] theorem State.setMe_slots (s : State) (x : Ctx) : (s.setMe x).slots = s.slots := rfl
@[simp] theorem State.setMe_kernels (s : State) (x : Ctx) : (s.setMe x).kernels = s.kernels := rfl
@[simp] theorem State.setMe_cmds (s : State) (x : Ctx) : (s.setMe x).cmds = s.cmds := rfl
@[simp] theorem State.setMe_subs (s : State) (x : Ctx) : (s.setMe x).subs = s.subs := rfl
@[simp] theorem State.setMe_nextId (s : State) (x : Ctx) : (s.setMe x).nextId = s.nextId := rfl
@[simp] theorem State.setMe_spill (s : State) (x : Ctx) : (s.setMe x).spill = s.spill := rfl
@[simp] theorem State.setMe_units (s : State) (x : Ctx) : (s.setMe x).units = s.units := rfl
@[simp] theorem State.setMe_msc (s : State) (x : Ctx) : (s.setMe x).msc = s.msc := rfl
@[simp] theorem State.setMe_links (s : State) (x : Ctx) : (s.setMe x).links = s.links := rfl
@[simp] theorem State.setMe_saved (s : State) (x : Ctx) : (s.setMe x).saved = s.saved := rfl
@[simp] theorem State.setMe_savedCores (s : State) (x : Ctx) : (s.setMe x).savedCores = s.savedCores := rfl
@[simp] theorem State.setMe_devTlb (s : State) (x : Ctx) : (s.setMe x).devTlb = s.devTlb := rfl
@[simp] theorem State.setMe_flits (s : State) (x : Ctx) : (s.setMe x).flits = s.flits := rfl
@[simp] theorem State.setMe_collSeq (s : State) (x : Ctx) : (s.setMe x).collSeq = s.collSeq := rfl
@[simp] theorem State.setMe_mem (s : State) (x : Ctx) : (s.setMe x).mem = s.mem := rfl
@[simp] theorem State.setMe_poison (s : State) (x : Ctx) : (s.setMe x).poison = s.poison := rfl
@[simp] theorem State.setMe_now (s : State) (x : Ctx) : (s.setMe x).now = s.now := rfl
@[simp] theorem State.setMe_cycles (s : State) (x : Ctx) : (s.setMe x).cycles = s.cycles := rfl
@[simp] theorem State.setMe_ticks (s : State) (x : Ctx) : (s.setMe x).ticks = s.ticks := rfl
@[simp] theorem State.setMe_upsets (s : State) (x : Ctx) : (s.setMe x).upsets = s.upsets := rfl

@[simp] theorem State.setCore_cur (s : State) (k : Nat) (x : Core) : (s.setCore k x).cur = s.cur := rfl
@[simp] theorem State.setCore_iss (s : State) (k : Nat) (x : Core) : (s.setCore k x).iss = s.iss := rfl
@[simp] theorem State.setCore_turn (s : State) (k : Nat) (x : Core) : (s.setCore k x).turn = s.turn := rfl
@[simp] theorem State.setCore_inbox (s : State) (k : Nat) (x : Core) : (s.setCore k x).inbox = s.inbox := rfl
@[simp] theorem State.setCore_ctxs (s : State) (k : Nat) (x : Core) : (s.setCore k x).ctxs = s.ctxs := rfl
@[simp] theorem State.setCore_cores (s : State) (k : Nat) (x : Core) : (s.setCore k x).cores = s.cores.set k x := rfl
@[simp] theorem State.setCore_clusters (s : State) (k : Nat) (x : Core) : (s.setCore k x).clusters = s.clusters := rfl
@[simp] theorem State.setCore_spcs (s : State) (k : Nat) (x : Core) : (s.setCore k x).spcs = s.spcs := rfl
@[simp] theorem State.setCore_lkms (s : State) (k : Nat) (x : Core) : (s.setCore k x).lkms = s.lkms := rfl
@[simp] theorem State.setCore_iocs (s : State) (k : Nat) (x : Core) : (s.setCore k x).iocs = s.iocs := rfl
@[simp] theorem State.setCore_slots (s : State) (k : Nat) (x : Core) : (s.setCore k x).slots = s.slots := rfl
@[simp] theorem State.setCore_kernels (s : State) (k : Nat) (x : Core) : (s.setCore k x).kernels = s.kernels := rfl
@[simp] theorem State.setCore_cmds (s : State) (k : Nat) (x : Core) : (s.setCore k x).cmds = s.cmds := rfl
@[simp] theorem State.setCore_subs (s : State) (k : Nat) (x : Core) : (s.setCore k x).subs = s.subs := rfl
@[simp] theorem State.setCore_nextId (s : State) (k : Nat) (x : Core) : (s.setCore k x).nextId = s.nextId := rfl
@[simp] theorem State.setCore_spill (s : State) (k : Nat) (x : Core) : (s.setCore k x).spill = s.spill := rfl
@[simp] theorem State.setCore_units (s : State) (k : Nat) (x : Core) : (s.setCore k x).units = s.units := rfl
@[simp] theorem State.setCore_msc (s : State) (k : Nat) (x : Core) : (s.setCore k x).msc = s.msc := rfl
@[simp] theorem State.setCore_links (s : State) (k : Nat) (x : Core) : (s.setCore k x).links = s.links := rfl
@[simp] theorem State.setCore_saved (s : State) (k : Nat) (x : Core) : (s.setCore k x).saved = s.saved := rfl
@[simp] theorem State.setCore_savedCores (s : State) (k : Nat) (x : Core) : (s.setCore k x).savedCores = s.savedCores := rfl
@[simp] theorem State.setCore_devTlb (s : State) (k : Nat) (x : Core) : (s.setCore k x).devTlb = s.devTlb := rfl
@[simp] theorem State.setCore_flits (s : State) (k : Nat) (x : Core) : (s.setCore k x).flits = s.flits := rfl
@[simp] theorem State.setCore_collSeq (s : State) (k : Nat) (x : Core) : (s.setCore k x).collSeq = s.collSeq := rfl
@[simp] theorem State.setCore_mem (s : State) (k : Nat) (x : Core) : (s.setCore k x).mem = s.mem := rfl
@[simp] theorem State.setCore_poison (s : State) (k : Nat) (x : Core) : (s.setCore k x).poison = s.poison := rfl
@[simp] theorem State.setCore_now (s : State) (k : Nat) (x : Core) : (s.setCore k x).now = s.now := rfl
@[simp] theorem State.setCore_cycles (s : State) (k : Nat) (x : Core) : (s.setCore k x).cycles = s.cycles := rfl
@[simp] theorem State.setCore_ticks (s : State) (k : Nat) (x : Core) : (s.setCore k x).ticks = s.ticks := rfl
@[simp] theorem State.setCore_upsets (s : State) (k : Nat) (x : Core) : (s.setCore k x).upsets = s.upsets := rfl

@[simp] theorem State.setCluster_cur (s : State) (k : Nat) (x : Cluster) : (s.setCluster k x).cur = s.cur := rfl
@[simp] theorem State.setCluster_iss (s : State) (k : Nat) (x : Cluster) : (s.setCluster k x).iss = s.iss := rfl
@[simp] theorem State.setCluster_turn (s : State) (k : Nat) (x : Cluster) : (s.setCluster k x).turn = s.turn := rfl
@[simp] theorem State.setCluster_inbox (s : State) (k : Nat) (x : Cluster) : (s.setCluster k x).inbox = s.inbox := rfl
@[simp] theorem State.setCluster_ctxs (s : State) (k : Nat) (x : Cluster) : (s.setCluster k x).ctxs = s.ctxs := rfl
@[simp] theorem State.setCluster_cores (s : State) (k : Nat) (x : Cluster) : (s.setCluster k x).cores = s.cores := rfl
@[simp] theorem State.setCluster_clusters (s : State) (k : Nat) (x : Cluster) : (s.setCluster k x).clusters = s.clusters.set k x := rfl
@[simp] theorem State.setCluster_spcs (s : State) (k : Nat) (x : Cluster) : (s.setCluster k x).spcs = s.spcs := rfl
@[simp] theorem State.setCluster_lkms (s : State) (k : Nat) (x : Cluster) : (s.setCluster k x).lkms = s.lkms := rfl
@[simp] theorem State.setCluster_iocs (s : State) (k : Nat) (x : Cluster) : (s.setCluster k x).iocs = s.iocs := rfl
@[simp] theorem State.setCluster_slots (s : State) (k : Nat) (x : Cluster) : (s.setCluster k x).slots = s.slots := rfl
@[simp] theorem State.setCluster_kernels (s : State) (k : Nat) (x : Cluster) : (s.setCluster k x).kernels = s.kernels := rfl
@[simp] theorem State.setCluster_cmds (s : State) (k : Nat) (x : Cluster) : (s.setCluster k x).cmds = s.cmds := rfl
@[simp] theorem State.setCluster_subs (s : State) (k : Nat) (x : Cluster) : (s.setCluster k x).subs = s.subs := rfl
@[simp] theorem State.setCluster_nextId (s : State) (k : Nat) (x : Cluster) : (s.setCluster k x).nextId = s.nextId := rfl
@[simp] theorem State.setCluster_spill (s : State) (k : Nat) (x : Cluster) : (s.setCluster k x).spill = s.spill := rfl
@[simp] theorem State.setCluster_units (s : State) (k : Nat) (x : Cluster) : (s.setCluster k x).units = s.units := rfl
@[simp] theorem State.setCluster_msc (s : State) (k : Nat) (x : Cluster) : (s.setCluster k x).msc = s.msc := rfl
@[simp] theorem State.setCluster_links (s : State) (k : Nat) (x : Cluster) : (s.setCluster k x).links = s.links := rfl
@[simp] theorem State.setCluster_saved (s : State) (k : Nat) (x : Cluster) : (s.setCluster k x).saved = s.saved := rfl
@[simp] theorem State.setCluster_savedCores (s : State) (k : Nat) (x : Cluster) : (s.setCluster k x).savedCores = s.savedCores := rfl
@[simp] theorem State.setCluster_devTlb (s : State) (k : Nat) (x : Cluster) : (s.setCluster k x).devTlb = s.devTlb := rfl
@[simp] theorem State.setCluster_flits (s : State) (k : Nat) (x : Cluster) : (s.setCluster k x).flits = s.flits := rfl
@[simp] theorem State.setCluster_collSeq (s : State) (k : Nat) (x : Cluster) : (s.setCluster k x).collSeq = s.collSeq := rfl
@[simp] theorem State.setCluster_mem (s : State) (k : Nat) (x : Cluster) : (s.setCluster k x).mem = s.mem := rfl
@[simp] theorem State.setCluster_poison (s : State) (k : Nat) (x : Cluster) : (s.setCluster k x).poison = s.poison := rfl
@[simp] theorem State.setCluster_now (s : State) (k : Nat) (x : Cluster) : (s.setCluster k x).now = s.now := rfl
@[simp] theorem State.setCluster_cycles (s : State) (k : Nat) (x : Cluster) : (s.setCluster k x).cycles = s.cycles := rfl
@[simp] theorem State.setCluster_ticks (s : State) (k : Nat) (x : Cluster) : (s.setCluster k x).ticks = s.ticks := rfl
@[simp] theorem State.setCluster_upsets (s : State) (k : Nat) (x : Cluster) : (s.setCluster k x).upsets = s.upsets := rfl

@[simp] theorem State.setSpc_cur (s : State) (k : Nat) (x : Spc) : (s.setSpc k x).cur = s.cur := rfl
@[simp] theorem State.setSpc_iss (s : State) (k : Nat) (x : Spc) : (s.setSpc k x).iss = s.iss := rfl
@[simp] theorem State.setSpc_turn (s : State) (k : Nat) (x : Spc) : (s.setSpc k x).turn = s.turn := rfl
@[simp] theorem State.setSpc_inbox (s : State) (k : Nat) (x : Spc) : (s.setSpc k x).inbox = s.inbox := rfl
@[simp] theorem State.setSpc_ctxs (s : State) (k : Nat) (x : Spc) : (s.setSpc k x).ctxs = s.ctxs := rfl
@[simp] theorem State.setSpc_cores (s : State) (k : Nat) (x : Spc) : (s.setSpc k x).cores = s.cores := rfl
@[simp] theorem State.setSpc_clusters (s : State) (k : Nat) (x : Spc) : (s.setSpc k x).clusters = s.clusters := rfl
@[simp] theorem State.setSpc_spcs (s : State) (k : Nat) (x : Spc) : (s.setSpc k x).spcs = s.spcs.set k x := rfl
@[simp] theorem State.setSpc_lkms (s : State) (k : Nat) (x : Spc) : (s.setSpc k x).lkms = s.lkms := rfl
@[simp] theorem State.setSpc_iocs (s : State) (k : Nat) (x : Spc) : (s.setSpc k x).iocs = s.iocs := rfl
@[simp] theorem State.setSpc_slots (s : State) (k : Nat) (x : Spc) : (s.setSpc k x).slots = s.slots := rfl
@[simp] theorem State.setSpc_kernels (s : State) (k : Nat) (x : Spc) : (s.setSpc k x).kernels = s.kernels := rfl
@[simp] theorem State.setSpc_cmds (s : State) (k : Nat) (x : Spc) : (s.setSpc k x).cmds = s.cmds := rfl
@[simp] theorem State.setSpc_subs (s : State) (k : Nat) (x : Spc) : (s.setSpc k x).subs = s.subs := rfl
@[simp] theorem State.setSpc_nextId (s : State) (k : Nat) (x : Spc) : (s.setSpc k x).nextId = s.nextId := rfl
@[simp] theorem State.setSpc_spill (s : State) (k : Nat) (x : Spc) : (s.setSpc k x).spill = s.spill := rfl
@[simp] theorem State.setSpc_units (s : State) (k : Nat) (x : Spc) : (s.setSpc k x).units = s.units := rfl
@[simp] theorem State.setSpc_msc (s : State) (k : Nat) (x : Spc) : (s.setSpc k x).msc = s.msc := rfl
@[simp] theorem State.setSpc_links (s : State) (k : Nat) (x : Spc) : (s.setSpc k x).links = s.links := rfl
@[simp] theorem State.setSpc_saved (s : State) (k : Nat) (x : Spc) : (s.setSpc k x).saved = s.saved := rfl
@[simp] theorem State.setSpc_savedCores (s : State) (k : Nat) (x : Spc) : (s.setSpc k x).savedCores = s.savedCores := rfl
@[simp] theorem State.setSpc_devTlb (s : State) (k : Nat) (x : Spc) : (s.setSpc k x).devTlb = s.devTlb := rfl
@[simp] theorem State.setSpc_flits (s : State) (k : Nat) (x : Spc) : (s.setSpc k x).flits = s.flits := rfl
@[simp] theorem State.setSpc_collSeq (s : State) (k : Nat) (x : Spc) : (s.setSpc k x).collSeq = s.collSeq := rfl
@[simp] theorem State.setSpc_mem (s : State) (k : Nat) (x : Spc) : (s.setSpc k x).mem = s.mem := rfl
@[simp] theorem State.setSpc_poison (s : State) (k : Nat) (x : Spc) : (s.setSpc k x).poison = s.poison := rfl
@[simp] theorem State.setSpc_now (s : State) (k : Nat) (x : Spc) : (s.setSpc k x).now = s.now := rfl
@[simp] theorem State.setSpc_cycles (s : State) (k : Nat) (x : Spc) : (s.setSpc k x).cycles = s.cycles := rfl
@[simp] theorem State.setSpc_ticks (s : State) (k : Nat) (x : Spc) : (s.setSpc k x).ticks = s.ticks := rfl
@[simp] theorem State.setSpc_upsets (s : State) (k : Nat) (x : Spc) : (s.setSpc k x).upsets = s.upsets := rfl

@[simp] theorem State.setLkm_cur (s : State) (k : Nat) (x : Lkm) : (s.setLkm k x).cur = s.cur := rfl
@[simp] theorem State.setLkm_iss (s : State) (k : Nat) (x : Lkm) : (s.setLkm k x).iss = s.iss := rfl
@[simp] theorem State.setLkm_turn (s : State) (k : Nat) (x : Lkm) : (s.setLkm k x).turn = s.turn := rfl
@[simp] theorem State.setLkm_inbox (s : State) (k : Nat) (x : Lkm) : (s.setLkm k x).inbox = s.inbox := rfl
@[simp] theorem State.setLkm_ctxs (s : State) (k : Nat) (x : Lkm) : (s.setLkm k x).ctxs = s.ctxs := rfl
@[simp] theorem State.setLkm_cores (s : State) (k : Nat) (x : Lkm) : (s.setLkm k x).cores = s.cores := rfl
@[simp] theorem State.setLkm_clusters (s : State) (k : Nat) (x : Lkm) : (s.setLkm k x).clusters = s.clusters := rfl
@[simp] theorem State.setLkm_spcs (s : State) (k : Nat) (x : Lkm) : (s.setLkm k x).spcs = s.spcs := rfl
@[simp] theorem State.setLkm_lkms (s : State) (k : Nat) (x : Lkm) : (s.setLkm k x).lkms = s.lkms.set k x := rfl
@[simp] theorem State.setLkm_iocs (s : State) (k : Nat) (x : Lkm) : (s.setLkm k x).iocs = s.iocs := rfl
@[simp] theorem State.setLkm_slots (s : State) (k : Nat) (x : Lkm) : (s.setLkm k x).slots = s.slots := rfl
@[simp] theorem State.setLkm_kernels (s : State) (k : Nat) (x : Lkm) : (s.setLkm k x).kernels = s.kernels := rfl
@[simp] theorem State.setLkm_cmds (s : State) (k : Nat) (x : Lkm) : (s.setLkm k x).cmds = s.cmds := rfl
@[simp] theorem State.setLkm_subs (s : State) (k : Nat) (x : Lkm) : (s.setLkm k x).subs = s.subs := rfl
@[simp] theorem State.setLkm_nextId (s : State) (k : Nat) (x : Lkm) : (s.setLkm k x).nextId = s.nextId := rfl
@[simp] theorem State.setLkm_spill (s : State) (k : Nat) (x : Lkm) : (s.setLkm k x).spill = s.spill := rfl
@[simp] theorem State.setLkm_units (s : State) (k : Nat) (x : Lkm) : (s.setLkm k x).units = s.units := rfl
@[simp] theorem State.setLkm_msc (s : State) (k : Nat) (x : Lkm) : (s.setLkm k x).msc = s.msc := rfl
@[simp] theorem State.setLkm_links (s : State) (k : Nat) (x : Lkm) : (s.setLkm k x).links = s.links := rfl
@[simp] theorem State.setLkm_saved (s : State) (k : Nat) (x : Lkm) : (s.setLkm k x).saved = s.saved := rfl
@[simp] theorem State.setLkm_savedCores (s : State) (k : Nat) (x : Lkm) : (s.setLkm k x).savedCores = s.savedCores := rfl
@[simp] theorem State.setLkm_devTlb (s : State) (k : Nat) (x : Lkm) : (s.setLkm k x).devTlb = s.devTlb := rfl
@[simp] theorem State.setLkm_flits (s : State) (k : Nat) (x : Lkm) : (s.setLkm k x).flits = s.flits := rfl
@[simp] theorem State.setLkm_collSeq (s : State) (k : Nat) (x : Lkm) : (s.setLkm k x).collSeq = s.collSeq := rfl
@[simp] theorem State.setLkm_mem (s : State) (k : Nat) (x : Lkm) : (s.setLkm k x).mem = s.mem := rfl
@[simp] theorem State.setLkm_poison (s : State) (k : Nat) (x : Lkm) : (s.setLkm k x).poison = s.poison := rfl
@[simp] theorem State.setLkm_now (s : State) (k : Nat) (x : Lkm) : (s.setLkm k x).now = s.now := rfl
@[simp] theorem State.setLkm_cycles (s : State) (k : Nat) (x : Lkm) : (s.setLkm k x).cycles = s.cycles := rfl
@[simp] theorem State.setLkm_ticks (s : State) (k : Nat) (x : Lkm) : (s.setLkm k x).ticks = s.ticks := rfl
@[simp] theorem State.setLkm_upsets (s : State) (k : Nat) (x : Lkm) : (s.setLkm k x).upsets = s.upsets := rfl

@[simp] theorem State.setIoc_cur (s : State) (k : Nat) (x : Ioc) : (s.setIoc k x).cur = s.cur := rfl
@[simp] theorem State.setIoc_iss (s : State) (k : Nat) (x : Ioc) : (s.setIoc k x).iss = s.iss := rfl
@[simp] theorem State.setIoc_turn (s : State) (k : Nat) (x : Ioc) : (s.setIoc k x).turn = s.turn := rfl
@[simp] theorem State.setIoc_inbox (s : State) (k : Nat) (x : Ioc) : (s.setIoc k x).inbox = s.inbox := rfl
@[simp] theorem State.setIoc_ctxs (s : State) (k : Nat) (x : Ioc) : (s.setIoc k x).ctxs = s.ctxs := rfl
@[simp] theorem State.setIoc_cores (s : State) (k : Nat) (x : Ioc) : (s.setIoc k x).cores = s.cores := rfl
@[simp] theorem State.setIoc_clusters (s : State) (k : Nat) (x : Ioc) : (s.setIoc k x).clusters = s.clusters := rfl
@[simp] theorem State.setIoc_spcs (s : State) (k : Nat) (x : Ioc) : (s.setIoc k x).spcs = s.spcs := rfl
@[simp] theorem State.setIoc_lkms (s : State) (k : Nat) (x : Ioc) : (s.setIoc k x).lkms = s.lkms := rfl
@[simp] theorem State.setIoc_iocs (s : State) (k : Nat) (x : Ioc) : (s.setIoc k x).iocs = s.iocs.set k x := rfl
@[simp] theorem State.setIoc_slots (s : State) (k : Nat) (x : Ioc) : (s.setIoc k x).slots = s.slots := rfl
@[simp] theorem State.setIoc_kernels (s : State) (k : Nat) (x : Ioc) : (s.setIoc k x).kernels = s.kernels := rfl
@[simp] theorem State.setIoc_cmds (s : State) (k : Nat) (x : Ioc) : (s.setIoc k x).cmds = s.cmds := rfl
@[simp] theorem State.setIoc_subs (s : State) (k : Nat) (x : Ioc) : (s.setIoc k x).subs = s.subs := rfl
@[simp] theorem State.setIoc_nextId (s : State) (k : Nat) (x : Ioc) : (s.setIoc k x).nextId = s.nextId := rfl
@[simp] theorem State.setIoc_spill (s : State) (k : Nat) (x : Ioc) : (s.setIoc k x).spill = s.spill := rfl
@[simp] theorem State.setIoc_units (s : State) (k : Nat) (x : Ioc) : (s.setIoc k x).units = s.units := rfl
@[simp] theorem State.setIoc_msc (s : State) (k : Nat) (x : Ioc) : (s.setIoc k x).msc = s.msc := rfl
@[simp] theorem State.setIoc_links (s : State) (k : Nat) (x : Ioc) : (s.setIoc k x).links = s.links := rfl
@[simp] theorem State.setIoc_saved (s : State) (k : Nat) (x : Ioc) : (s.setIoc k x).saved = s.saved := rfl
@[simp] theorem State.setIoc_savedCores (s : State) (k : Nat) (x : Ioc) : (s.setIoc k x).savedCores = s.savedCores := rfl
@[simp] theorem State.setIoc_devTlb (s : State) (k : Nat) (x : Ioc) : (s.setIoc k x).devTlb = s.devTlb := rfl
@[simp] theorem State.setIoc_flits (s : State) (k : Nat) (x : Ioc) : (s.setIoc k x).flits = s.flits := rfl
@[simp] theorem State.setIoc_collSeq (s : State) (k : Nat) (x : Ioc) : (s.setIoc k x).collSeq = s.collSeq := rfl
@[simp] theorem State.setIoc_mem (s : State) (k : Nat) (x : Ioc) : (s.setIoc k x).mem = s.mem := rfl
@[simp] theorem State.setIoc_poison (s : State) (k : Nat) (x : Ioc) : (s.setIoc k x).poison = s.poison := rfl
@[simp] theorem State.setIoc_now (s : State) (k : Nat) (x : Ioc) : (s.setIoc k x).now = s.now := rfl
@[simp] theorem State.setIoc_cycles (s : State) (k : Nat) (x : Ioc) : (s.setIoc k x).cycles = s.cycles := rfl
@[simp] theorem State.setIoc_ticks (s : State) (k : Nat) (x : Ioc) : (s.setIoc k x).ticks = s.ticks := rfl
@[simp] theorem State.setIoc_upsets (s : State) (k : Nat) (x : Ioc) : (s.setIoc k x).upsets = s.upsets := rfl

@[simp] theorem State.setSlot_cur (s : State) (k : Nat) (x : QSlot) : (s.setSlot k x).cur = s.cur := rfl
@[simp] theorem State.setSlot_iss (s : State) (k : Nat) (x : QSlot) : (s.setSlot k x).iss = s.iss := rfl
@[simp] theorem State.setSlot_turn (s : State) (k : Nat) (x : QSlot) : (s.setSlot k x).turn = s.turn := rfl
@[simp] theorem State.setSlot_inbox (s : State) (k : Nat) (x : QSlot) : (s.setSlot k x).inbox = s.inbox := rfl
@[simp] theorem State.setSlot_ctxs (s : State) (k : Nat) (x : QSlot) : (s.setSlot k x).ctxs = s.ctxs := rfl
@[simp] theorem State.setSlot_cores (s : State) (k : Nat) (x : QSlot) : (s.setSlot k x).cores = s.cores := rfl
@[simp] theorem State.setSlot_clusters (s : State) (k : Nat) (x : QSlot) : (s.setSlot k x).clusters = s.clusters := rfl
@[simp] theorem State.setSlot_spcs (s : State) (k : Nat) (x : QSlot) : (s.setSlot k x).spcs = s.spcs := rfl
@[simp] theorem State.setSlot_lkms (s : State) (k : Nat) (x : QSlot) : (s.setSlot k x).lkms = s.lkms := rfl
@[simp] theorem State.setSlot_iocs (s : State) (k : Nat) (x : QSlot) : (s.setSlot k x).iocs = s.iocs := rfl
@[simp] theorem State.setSlot_slots (s : State) (k : Nat) (x : QSlot) : (s.setSlot k x).slots = s.slots.set k x := rfl
@[simp] theorem State.setSlot_kernels (s : State) (k : Nat) (x : QSlot) : (s.setSlot k x).kernels = s.kernels := rfl
@[simp] theorem State.setSlot_cmds (s : State) (k : Nat) (x : QSlot) : (s.setSlot k x).cmds = s.cmds := rfl
@[simp] theorem State.setSlot_subs (s : State) (k : Nat) (x : QSlot) : (s.setSlot k x).subs = s.subs := rfl
@[simp] theorem State.setSlot_nextId (s : State) (k : Nat) (x : QSlot) : (s.setSlot k x).nextId = s.nextId := rfl
@[simp] theorem State.setSlot_spill (s : State) (k : Nat) (x : QSlot) : (s.setSlot k x).spill = s.spill := rfl
@[simp] theorem State.setSlot_units (s : State) (k : Nat) (x : QSlot) : (s.setSlot k x).units = s.units := rfl
@[simp] theorem State.setSlot_msc (s : State) (k : Nat) (x : QSlot) : (s.setSlot k x).msc = s.msc := rfl
@[simp] theorem State.setSlot_links (s : State) (k : Nat) (x : QSlot) : (s.setSlot k x).links = s.links := rfl
@[simp] theorem State.setSlot_saved (s : State) (k : Nat) (x : QSlot) : (s.setSlot k x).saved = s.saved := rfl
@[simp] theorem State.setSlot_savedCores (s : State) (k : Nat) (x : QSlot) : (s.setSlot k x).savedCores = s.savedCores := rfl
@[simp] theorem State.setSlot_devTlb (s : State) (k : Nat) (x : QSlot) : (s.setSlot k x).devTlb = s.devTlb := rfl
@[simp] theorem State.setSlot_flits (s : State) (k : Nat) (x : QSlot) : (s.setSlot k x).flits = s.flits := rfl
@[simp] theorem State.setSlot_collSeq (s : State) (k : Nat) (x : QSlot) : (s.setSlot k x).collSeq = s.collSeq := rfl
@[simp] theorem State.setSlot_mem (s : State) (k : Nat) (x : QSlot) : (s.setSlot k x).mem = s.mem := rfl
@[simp] theorem State.setSlot_poison (s : State) (k : Nat) (x : QSlot) : (s.setSlot k x).poison = s.poison := rfl
@[simp] theorem State.setSlot_now (s : State) (k : Nat) (x : QSlot) : (s.setSlot k x).now = s.now := rfl
@[simp] theorem State.setSlot_cycles (s : State) (k : Nat) (x : QSlot) : (s.setSlot k x).cycles = s.cycles := rfl
@[simp] theorem State.setSlot_ticks (s : State) (k : Nat) (x : QSlot) : (s.setSlot k x).ticks = s.ticks := rfl
@[simp] theorem State.setSlot_upsets (s : State) (k : Nat) (x : QSlot) : (s.setSlot k x).upsets = s.upsets := rfl

@[simp] theorem State.setUnit_cur (s : State) (k : Nat) (x : MemUnit) : (s.setUnit k x).cur = s.cur := rfl
@[simp] theorem State.setUnit_iss (s : State) (k : Nat) (x : MemUnit) : (s.setUnit k x).iss = s.iss := rfl
@[simp] theorem State.setUnit_turn (s : State) (k : Nat) (x : MemUnit) : (s.setUnit k x).turn = s.turn := rfl
@[simp] theorem State.setUnit_inbox (s : State) (k : Nat) (x : MemUnit) : (s.setUnit k x).inbox = s.inbox := rfl
@[simp] theorem State.setUnit_ctxs (s : State) (k : Nat) (x : MemUnit) : (s.setUnit k x).ctxs = s.ctxs := rfl
@[simp] theorem State.setUnit_cores (s : State) (k : Nat) (x : MemUnit) : (s.setUnit k x).cores = s.cores := rfl
@[simp] theorem State.setUnit_clusters (s : State) (k : Nat) (x : MemUnit) : (s.setUnit k x).clusters = s.clusters := rfl
@[simp] theorem State.setUnit_spcs (s : State) (k : Nat) (x : MemUnit) : (s.setUnit k x).spcs = s.spcs := rfl
@[simp] theorem State.setUnit_lkms (s : State) (k : Nat) (x : MemUnit) : (s.setUnit k x).lkms = s.lkms := rfl
@[simp] theorem State.setUnit_iocs (s : State) (k : Nat) (x : MemUnit) : (s.setUnit k x).iocs = s.iocs := rfl
@[simp] theorem State.setUnit_slots (s : State) (k : Nat) (x : MemUnit) : (s.setUnit k x).slots = s.slots := rfl
@[simp] theorem State.setUnit_kernels (s : State) (k : Nat) (x : MemUnit) : (s.setUnit k x).kernels = s.kernels := rfl
@[simp] theorem State.setUnit_cmds (s : State) (k : Nat) (x : MemUnit) : (s.setUnit k x).cmds = s.cmds := rfl
@[simp] theorem State.setUnit_subs (s : State) (k : Nat) (x : MemUnit) : (s.setUnit k x).subs = s.subs := rfl
@[simp] theorem State.setUnit_nextId (s : State) (k : Nat) (x : MemUnit) : (s.setUnit k x).nextId = s.nextId := rfl
@[simp] theorem State.setUnit_spill (s : State) (k : Nat) (x : MemUnit) : (s.setUnit k x).spill = s.spill := rfl
@[simp] theorem State.setUnit_units (s : State) (k : Nat) (x : MemUnit) : (s.setUnit k x).units = s.units.set k x := rfl
@[simp] theorem State.setUnit_msc (s : State) (k : Nat) (x : MemUnit) : (s.setUnit k x).msc = s.msc := rfl
@[simp] theorem State.setUnit_links (s : State) (k : Nat) (x : MemUnit) : (s.setUnit k x).links = s.links := rfl
@[simp] theorem State.setUnit_saved (s : State) (k : Nat) (x : MemUnit) : (s.setUnit k x).saved = s.saved := rfl
@[simp] theorem State.setUnit_savedCores (s : State) (k : Nat) (x : MemUnit) : (s.setUnit k x).savedCores = s.savedCores := rfl
@[simp] theorem State.setUnit_devTlb (s : State) (k : Nat) (x : MemUnit) : (s.setUnit k x).devTlb = s.devTlb := rfl
@[simp] theorem State.setUnit_flits (s : State) (k : Nat) (x : MemUnit) : (s.setUnit k x).flits = s.flits := rfl
@[simp] theorem State.setUnit_collSeq (s : State) (k : Nat) (x : MemUnit) : (s.setUnit k x).collSeq = s.collSeq := rfl
@[simp] theorem State.setUnit_mem (s : State) (k : Nat) (x : MemUnit) : (s.setUnit k x).mem = s.mem := rfl
@[simp] theorem State.setUnit_poison (s : State) (k : Nat) (x : MemUnit) : (s.setUnit k x).poison = s.poison := rfl
@[simp] theorem State.setUnit_now (s : State) (k : Nat) (x : MemUnit) : (s.setUnit k x).now = s.now := rfl
@[simp] theorem State.setUnit_cycles (s : State) (k : Nat) (x : MemUnit) : (s.setUnit k x).cycles = s.cycles := rfl
@[simp] theorem State.setUnit_ticks (s : State) (k : Nat) (x : MemUnit) : (s.setUnit k x).ticks = s.ticks := rfl
@[simp] theorem State.setUnit_upsets (s : State) (k : Nat) (x : MemUnit) : (s.setUnit k x).upsets = s.upsets := rfl

@[simp] theorem State.setLink_cur (s : State) (k : Nat) (x : Link) : (s.setLink k x).cur = s.cur := rfl
@[simp] theorem State.setLink_iss (s : State) (k : Nat) (x : Link) : (s.setLink k x).iss = s.iss := rfl
@[simp] theorem State.setLink_turn (s : State) (k : Nat) (x : Link) : (s.setLink k x).turn = s.turn := rfl
@[simp] theorem State.setLink_inbox (s : State) (k : Nat) (x : Link) : (s.setLink k x).inbox = s.inbox := rfl
@[simp] theorem State.setLink_ctxs (s : State) (k : Nat) (x : Link) : (s.setLink k x).ctxs = s.ctxs := rfl
@[simp] theorem State.setLink_cores (s : State) (k : Nat) (x : Link) : (s.setLink k x).cores = s.cores := rfl
@[simp] theorem State.setLink_clusters (s : State) (k : Nat) (x : Link) : (s.setLink k x).clusters = s.clusters := rfl
@[simp] theorem State.setLink_spcs (s : State) (k : Nat) (x : Link) : (s.setLink k x).spcs = s.spcs := rfl
@[simp] theorem State.setLink_lkms (s : State) (k : Nat) (x : Link) : (s.setLink k x).lkms = s.lkms := rfl
@[simp] theorem State.setLink_iocs (s : State) (k : Nat) (x : Link) : (s.setLink k x).iocs = s.iocs := rfl
@[simp] theorem State.setLink_slots (s : State) (k : Nat) (x : Link) : (s.setLink k x).slots = s.slots := rfl
@[simp] theorem State.setLink_kernels (s : State) (k : Nat) (x : Link) : (s.setLink k x).kernels = s.kernels := rfl
@[simp] theorem State.setLink_cmds (s : State) (k : Nat) (x : Link) : (s.setLink k x).cmds = s.cmds := rfl
@[simp] theorem State.setLink_subs (s : State) (k : Nat) (x : Link) : (s.setLink k x).subs = s.subs := rfl
@[simp] theorem State.setLink_nextId (s : State) (k : Nat) (x : Link) : (s.setLink k x).nextId = s.nextId := rfl
@[simp] theorem State.setLink_spill (s : State) (k : Nat) (x : Link) : (s.setLink k x).spill = s.spill := rfl
@[simp] theorem State.setLink_units (s : State) (k : Nat) (x : Link) : (s.setLink k x).units = s.units := rfl
@[simp] theorem State.setLink_msc (s : State) (k : Nat) (x : Link) : (s.setLink k x).msc = s.msc := rfl
@[simp] theorem State.setLink_links (s : State) (k : Nat) (x : Link) : (s.setLink k x).links = s.links.set k x := rfl
@[simp] theorem State.setLink_saved (s : State) (k : Nat) (x : Link) : (s.setLink k x).saved = s.saved := rfl
@[simp] theorem State.setLink_savedCores (s : State) (k : Nat) (x : Link) : (s.setLink k x).savedCores = s.savedCores := rfl
@[simp] theorem State.setLink_devTlb (s : State) (k : Nat) (x : Link) : (s.setLink k x).devTlb = s.devTlb := rfl
@[simp] theorem State.setLink_flits (s : State) (k : Nat) (x : Link) : (s.setLink k x).flits = s.flits := rfl
@[simp] theorem State.setLink_collSeq (s : State) (k : Nat) (x : Link) : (s.setLink k x).collSeq = s.collSeq := rfl
@[simp] theorem State.setLink_mem (s : State) (k : Nat) (x : Link) : (s.setLink k x).mem = s.mem := rfl
@[simp] theorem State.setLink_poison (s : State) (k : Nat) (x : Link) : (s.setLink k x).poison = s.poison := rfl
@[simp] theorem State.setLink_now (s : State) (k : Nat) (x : Link) : (s.setLink k x).now = s.now := rfl
@[simp] theorem State.setLink_cycles (s : State) (k : Nat) (x : Link) : (s.setLink k x).cycles = s.cycles := rfl
@[simp] theorem State.setLink_ticks (s : State) (k : Nat) (x : Link) : (s.setLink k x).ticks = s.ticks := rfl
@[simp] theorem State.setLink_upsets (s : State) (k : Nat) (x : Link) : (s.setLink k x).upsets = s.upsets := rfl

@[simp] theorem State.setKernel_cur (s : State) (k : Nat) (x : Kernel) : (s.setKernel k x).cur = s.cur := rfl
@[simp] theorem State.setKernel_iss (s : State) (k : Nat) (x : Kernel) : (s.setKernel k x).iss = s.iss := rfl
@[simp] theorem State.setKernel_turn (s : State) (k : Nat) (x : Kernel) : (s.setKernel k x).turn = s.turn := rfl
@[simp] theorem State.setKernel_inbox (s : State) (k : Nat) (x : Kernel) : (s.setKernel k x).inbox = s.inbox := rfl
@[simp] theorem State.setKernel_ctxs (s : State) (k : Nat) (x : Kernel) : (s.setKernel k x).ctxs = s.ctxs := rfl
@[simp] theorem State.setKernel_cores (s : State) (k : Nat) (x : Kernel) : (s.setKernel k x).cores = s.cores := rfl
@[simp] theorem State.setKernel_clusters (s : State) (k : Nat) (x : Kernel) : (s.setKernel k x).clusters = s.clusters := rfl
@[simp] theorem State.setKernel_spcs (s : State) (k : Nat) (x : Kernel) : (s.setKernel k x).spcs = s.spcs := rfl
@[simp] theorem State.setKernel_lkms (s : State) (k : Nat) (x : Kernel) : (s.setKernel k x).lkms = s.lkms := rfl
@[simp] theorem State.setKernel_iocs (s : State) (k : Nat) (x : Kernel) : (s.setKernel k x).iocs = s.iocs := rfl
@[simp] theorem State.setKernel_slots (s : State) (k : Nat) (x : Kernel) : (s.setKernel k x).slots = s.slots := rfl
@[simp] theorem State.setKernel_kernels (s : State) (k : Nat) (x : Kernel) : (s.setKernel k x).kernels = s.kernels.set k x := rfl
@[simp] theorem State.setKernel_cmds (s : State) (k : Nat) (x : Kernel) : (s.setKernel k x).cmds = s.cmds := rfl
@[simp] theorem State.setKernel_subs (s : State) (k : Nat) (x : Kernel) : (s.setKernel k x).subs = s.subs := rfl
@[simp] theorem State.setKernel_nextId (s : State) (k : Nat) (x : Kernel) : (s.setKernel k x).nextId = s.nextId := rfl
@[simp] theorem State.setKernel_spill (s : State) (k : Nat) (x : Kernel) : (s.setKernel k x).spill = s.spill := rfl
@[simp] theorem State.setKernel_units (s : State) (k : Nat) (x : Kernel) : (s.setKernel k x).units = s.units := rfl
@[simp] theorem State.setKernel_msc (s : State) (k : Nat) (x : Kernel) : (s.setKernel k x).msc = s.msc := rfl
@[simp] theorem State.setKernel_links (s : State) (k : Nat) (x : Kernel) : (s.setKernel k x).links = s.links := rfl
@[simp] theorem State.setKernel_saved (s : State) (k : Nat) (x : Kernel) : (s.setKernel k x).saved = s.saved := rfl
@[simp] theorem State.setKernel_savedCores (s : State) (k : Nat) (x : Kernel) : (s.setKernel k x).savedCores = s.savedCores := rfl
@[simp] theorem State.setKernel_devTlb (s : State) (k : Nat) (x : Kernel) : (s.setKernel k x).devTlb = s.devTlb := rfl
@[simp] theorem State.setKernel_flits (s : State) (k : Nat) (x : Kernel) : (s.setKernel k x).flits = s.flits := rfl
@[simp] theorem State.setKernel_collSeq (s : State) (k : Nat) (x : Kernel) : (s.setKernel k x).collSeq = s.collSeq := rfl
@[simp] theorem State.setKernel_mem (s : State) (k : Nat) (x : Kernel) : (s.setKernel k x).mem = s.mem := rfl
@[simp] theorem State.setKernel_poison (s : State) (k : Nat) (x : Kernel) : (s.setKernel k x).poison = s.poison := rfl
@[simp] theorem State.setKernel_now (s : State) (k : Nat) (x : Kernel) : (s.setKernel k x).now = s.now := rfl
@[simp] theorem State.setKernel_cycles (s : State) (k : Nat) (x : Kernel) : (s.setKernel k x).cycles = s.cycles := rfl
@[simp] theorem State.setKernel_ticks (s : State) (k : Nat) (x : Kernel) : (s.setKernel k x).ticks = s.ticks := rfl
@[simp] theorem State.setKernel_upsets (s : State) (k : Nat) (x : Kernel) : (s.setKernel k x).upsets = s.upsets := rfl

@[simp] theorem State.poke_cur (s : State) (a : Nat) (x : List Byte) : (s.poke a x).cur = s.cur := rfl
@[simp] theorem State.poke_iss (s : State) (a : Nat) (x : List Byte) : (s.poke a x).iss = s.iss := rfl
@[simp] theorem State.poke_turn (s : State) (a : Nat) (x : List Byte) : (s.poke a x).turn = s.turn := rfl
@[simp] theorem State.poke_inbox (s : State) (a : Nat) (x : List Byte) : (s.poke a x).inbox = s.inbox := rfl
@[simp] theorem State.poke_ctxs (s : State) (a : Nat) (x : List Byte) : (s.poke a x).ctxs = s.ctxs := rfl
@[simp] theorem State.poke_cores (s : State) (a : Nat) (x : List Byte) : (s.poke a x).cores = s.cores := rfl
@[simp] theorem State.poke_clusters (s : State) (a : Nat) (x : List Byte) : (s.poke a x).clusters = s.clusters := rfl
@[simp] theorem State.poke_spcs (s : State) (a : Nat) (x : List Byte) : (s.poke a x).spcs = s.spcs := rfl
@[simp] theorem State.poke_lkms (s : State) (a : Nat) (x : List Byte) : (s.poke a x).lkms = s.lkms := rfl
@[simp] theorem State.poke_iocs (s : State) (a : Nat) (x : List Byte) : (s.poke a x).iocs = s.iocs := rfl
@[simp] theorem State.poke_slots (s : State) (a : Nat) (x : List Byte) : (s.poke a x).slots = s.slots := rfl
@[simp] theorem State.poke_kernels (s : State) (a : Nat) (x : List Byte) : (s.poke a x).kernels = s.kernels := rfl
@[simp] theorem State.poke_cmds (s : State) (a : Nat) (x : List Byte) : (s.poke a x).cmds = s.cmds := rfl
@[simp] theorem State.poke_subs (s : State) (a : Nat) (x : List Byte) : (s.poke a x).subs = s.subs := rfl
@[simp] theorem State.poke_nextId (s : State) (a : Nat) (x : List Byte) : (s.poke a x).nextId = s.nextId := rfl
@[simp] theorem State.poke_spill (s : State) (a : Nat) (x : List Byte) : (s.poke a x).spill = s.spill := rfl
@[simp] theorem State.poke_units (s : State) (a : Nat) (x : List Byte) : (s.poke a x).units = s.units := rfl
@[simp] theorem State.poke_msc (s : State) (a : Nat) (x : List Byte) : (s.poke a x).msc = s.msc := rfl
@[simp] theorem State.poke_links (s : State) (a : Nat) (x : List Byte) : (s.poke a x).links = s.links := rfl
@[simp] theorem State.poke_saved (s : State) (a : Nat) (x : List Byte) : (s.poke a x).saved = s.saved := rfl
@[simp] theorem State.poke_savedCores (s : State) (a : Nat) (x : List Byte) : (s.poke a x).savedCores = s.savedCores := rfl
@[simp] theorem State.poke_devTlb (s : State) (a : Nat) (x : List Byte) : (s.poke a x).devTlb = s.devTlb := rfl
@[simp] theorem State.poke_flits (s : State) (a : Nat) (x : List Byte) : (s.poke a x).flits = s.flits := rfl
@[simp] theorem State.poke_collSeq (s : State) (a : Nat) (x : List Byte) : (s.poke a x).collSeq = s.collSeq := rfl
@[simp] theorem State.poke_mem (s : State) (a : Nat) (x : List Byte) : (s.poke a x).mem = memWrite s.mem a x := rfl
@[simp] theorem State.poke_poison (s : State) (a : Nat) (x : List Byte) : (s.poke a x).poison = s.poison := rfl
@[simp] theorem State.poke_now (s : State) (a : Nat) (x : List Byte) : (s.poke a x).now = s.now := rfl
@[simp] theorem State.poke_cycles (s : State) (a : Nat) (x : List Byte) : (s.poke a x).cycles = s.cycles := rfl
@[simp] theorem State.poke_ticks (s : State) (a : Nat) (x : List Byte) : (s.poke a x).ticks = s.ticks := rfl
@[simp] theorem State.poke_upsets (s : State) (a : Nat) (x : List Byte) : (s.poke a x).upsets = s.upsets := rfl

end Sys2Proof.Machine
end

