-- ==== Sys2Proof/Laws/Memory.lean ====
section
/-! SUPPORT. Maps and memory: a read after a write, and the canonical form that every memory operation keeps. -/

namespace Sys2Proof.Machine

/-! ### Maps -/

@[simp] theorem SMap.find?_set_same {α : Type} (m : SMap α) (k : Nat) (x : α) : (m.set k x).find? k = some x := by
  induction m with
  | nil => simp [SMap.set, SMap.find?]
  | cons e r ih =>
    obtain ⟨j, y⟩ := e
    simp only [SMap.set]
    split
    · simp [SMap.find?]
    · split
      · simp [SMap.find?]
      · rename_i h
        simp only [SMap.find?, ih]
        rw [if_neg (fun e => h e.symm)]

theorem SMap.find?_set_ne {α : Type} (m : SMap α) {k j : Nat} (x : α) (h : j ≠ k) :
    (m.set k x).find? j = m.find? j := by
  induction m with
  | nil => simp [SMap.set, SMap.find?, h.symm]
  | cons e r ih =>
    obtain ⟨i, y⟩ := e
    simp only [SMap.set]
    split
    · simp only [SMap.find?]
      rw [if_neg h.symm]
    · split
      · rename_i _ e
        subst e
        simp only [SMap.find?]
        rw [if_neg h.symm, if_neg h.symm]
      · simp only [SMap.find?, ih]

@[simp] theorem SMap.at_set_same {α : Type} (m : SMap α) (d : α) (k : Nat) (x : α) : (m.set k x).at d k = x := by
  simp [SMap.at]

theorem SMap.at_set_ne {α : Type} (m : SMap α) (d : α) {k j : Nat} (x : α) (h : j ≠ k) :
    (m.set k x).at d j = m.at d j := by
  simp [SMap.at, SMap.find?_set_ne m x h]

@[simp] theorem State.ctx_setCtx_same (s : State) (g : Nat) (c : Ctx) : (s.setCtx g c).ctx g = c := by simp [State.ctx]
theorem State.ctx_setCtx_ne (s : State) {g j : Nat} (c : Ctx) (h : j ≠ g) : (s.setCtx g c).ctx j = s.ctx j := by
  simp [State.ctx, SMap.at_set_ne _ _ _ h]
@[simp] theorem State.me_setMe (s : State) (c : Ctx) : (s.setMe c).me = c := by simp [State.me, State.setMe]
@[simp] theorem State.core_setCore_same (s : State) (k : Nat) (c : Core) : (s.setCore k c).core k = c := by simp [State.core]
theorem State.core_setCore_ne (s : State) {k j : Nat} (c : Core) (h : j ≠ k) : (s.setCore k c).core j = s.core j := by
  simp [State.core, SMap.at_set_ne _ _ _ h]
@[simp] theorem State.cluster_setCluster_same (s : State) (k : Nat) (c : Cluster) : (s.setCluster k c).cluster k = c := by
  simp [State.cluster]
@[simp] theorem State.spc_setSpc_same (s : State) (k : Nat) (c : Spc) : (s.setSpc k c).spc k = c := by simp [State.spc]
@[simp] theorem State.lkm_setLkm_same (s : State) (k : Nat) (c : Lkm) : (s.setLkm k c).lkm k = c := by simp [State.lkm]
@[simp] theorem State.ioc_setIoc_same (s : State) (k : Nat) (c : Ioc) : (s.setIoc k c).ioc k = c := by simp [State.ioc]
@[simp] theorem State.slot_setSlot_same (s : State) (k : Nat) (c : QSlot) : (s.setSlot k c).slot k = c := by simp [State.slot]
@[simp] theorem State.unit_setUnit_same (s : State) (k : Nat) (c : MemUnit) : (s.setUnit k c).unit k = c := by
  simp [State.unit]
@[simp] theorem State.link_setLink_same (s : State) (k : Nat) (c : Link) : (s.setLink k c).link k = c := by simp [State.link]

/-! ### The canonical form -/

/-- The canonical form as a proposition. -/
theorem Memory.wf_iff (m : List Host.Cell) :
    Memory.wf m = true ↔ (∀ c ∈ m, c.2 ≠ unwritten) ∧ List.Pairwise (fun a b : Host.Cell => a.1 < b.1) m := by
  simp [Memory.wf]

theorem Memory.wf_nil : Memory.wf [] = true := by decide

/-- Every key that a write leaves is the key written or one that was there. -/
theorem memSet_keys (m : List Host.Cell) (a : Nat) (x : Byte) : ∀ c ∈ memSet m a x, c.1 = a ∨ c ∈ m := by
  induction m with
  | nil =>
    intro c hc
    simp only [memSet] at hc
    split at hc
    · simp at hc
    · simp only [List.mem_singleton] at hc
      exact .inl (by rw [hc])
  | cons e r ih =>
    obtain ⟨b, y⟩ := e
    intro c hc
    simp only [memSet] at hc
    split at hc
    · split at hc
      · exact .inr hc
      · rcases List.mem_cons.1 hc with h | h
        · exact .inl (by rw [h])
        · exact .inr h
    · split at hc
      · split at hc
        · exact .inr (List.mem_cons_of_mem _ hc)
        · rcases List.mem_cons.1 hc with h | h
          · exact .inl (by rw [h])
          · exact .inr (List.mem_cons_of_mem _ h)
      · rcases List.mem_cons.1 hc with h | h
        · exact .inr (by rw [h]; exact List.mem_cons_self ..)
        · rcases ih c h with h | h
          · exact .inl h
          · exact .inr (List.mem_cons_of_mem _ h)

/-- One byte written keeps the canonical form. -/
theorem memSet_wf (m : List Host.Cell) (a : Nat) (x : Byte) (h : Memory.wf m = true) : Memory.wf (memSet m a x) = true := by
  rw [Memory.wf_iff] at *
  induction m with
  | nil =>
    simp only [memSet]
    split
    · simp
    · simpa using ‹_›
  | cons e r ih =>
    obtain ⟨b, y⟩ := e
    obtain ⟨h1, h2⟩ := h
    obtain ⟨h3, h4⟩ := List.pairwise_cons.1 h2
    have h5 : ∀ c ∈ r, c.2 ≠ unwritten := fun c hc => h1 c (List.mem_cons_of_mem _ hc)
    simp only [memSet]
    split
    · rename_i hab
      split
      · exact ⟨h1, h2⟩
      · rename_i hx
        refine ⟨?_, List.pairwise_cons.2 ⟨?_, h2⟩⟩
        · intro c hc
          rcases List.mem_cons.1 hc with h | h
          · rw [h]; exact hx
          · exact h1 c h
        · intro c hc
          rcases List.mem_cons.1 hc with h | h
          · rw [h]; exact hab
          · exact Nat.lt_trans hab (h3 c h)
    · split
      · rename_i hab
        split
        · exact ⟨h5, h4⟩
        · rename_i hx
          refine ⟨?_, List.pairwise_cons.2 ⟨?_, h4⟩⟩
          · intro c hc
            rcases List.mem_cons.1 hc with h | h
            · rw [h]; exact hx
            · exact h5 c h
          · intro c hc
            have := h3 c hc
            rw [hab]; exact this
      · rename_i h6 h7
        obtain ⟨i1, i2⟩ := ih ⟨h5, h4⟩
        refine ⟨?_, List.pairwise_cons.2 ⟨?_, i2⟩⟩
        · intro c hc
          rcases List.mem_cons.1 hc with h | h
          · rw [h]; exact h1 _ (List.mem_cons_self ..)
          · exact i1 c h
        · intro c hc
          rcases memSet_keys r a x c hc with h | h
          · show b < c.1
            omega
          · exact h3 c h

/-- Bytes written keep the canonical form. -/
theorem memWrite_wf (m : List Host.Cell) (a : Nat) (xs : List Byte) (h : Memory.wf m = true) :
    Memory.wf (memWrite m a xs) = true := by
  induction xs generalizing m a with
  | nil => exact h
  | cons x r ih => exact ih _ _ (memSet_wf m a x h)

/-- Bytes written one by one keep the canonical form. -/
theorem memSet_fold_wf (bs : List (Nat × Byte)) (m : List Host.Cell) (h : Memory.wf m = true) :
    Memory.wf (bs.foldl (fun m (b : Nat × Byte) => memSet m b.1 b.2) m) = true := by
  induction bs generalizing m with
  | nil => exact h
  | cons b r ih => exact ih _ (memSet_wf m b.1 b.2 h)

/-! ### A read after a write -/

/-- A key below every listed key reads as unwritten. -/
theorem memGet_low (m : List Host.Cell) (a : Nat) (h : ∀ c ∈ m, a < c.1) : memGet m a = unwritten := by
  cases m with
  | nil => rfl
  | cons e r =>
    obtain ⟨b, y⟩ := e
    have : a < b := h _ (List.mem_cons_self ..)
    simp only [memGet]
    rw [if_neg (by omega), if_pos this]

/-- The byte written is read back. -/
theorem memGet_memSet_same (m : List Host.Cell) (a : Nat) (x : Byte) (h : Memory.wf m = true) :
    memGet (memSet m a x) a = x := by
  rw [Memory.wf_iff] at h
  induction m with
  | nil =>
    simp only [memSet]
    split
    · rename_i hx; rw [hx]; rfl
    · simp [memGet]
  | cons e r ih =>
    obtain ⟨b, y⟩ := e
    obtain ⟨h1, h2⟩ := h
    obtain ⟨h3, h4⟩ := List.pairwise_cons.1 h2
    simp only [memSet]
    split
    · rename_i hab
      split
      · rename_i hx
        simp only [memGet]
        rw [if_neg (by omega), if_pos hab, hx]
      · simp [memGet]
    · split
      · rename_i hab
        split
        · rename_i hx
          rw [hx]
          exact memGet_low r a (fun c hc => by rw [hab]; exact h3 c hc)
        · simp [memGet]
      · rename_i h6 h7
        simp only [memGet]
        rw [if_neg (by omega), if_neg h6]
        exact ih ⟨fun c hc => h1 c (List.mem_cons_of_mem _ hc), h4⟩

/-- Every other byte reads as before. -/
theorem memGet_memSet_ne (m : List Host.Cell) {a c : Nat} (x : Byte) (h : Memory.wf m = true) (hc : c ≠ a) :
    memGet (memSet m a x) c = memGet m c := by
  rw [Memory.wf_iff] at h
  induction m with
  | nil =>
    simp only [memSet]
    split
    · rfl
    · simp only [memGet]
      rw [if_neg hc.symm]
      split <;> rfl
  | cons e r ih =>
    obtain ⟨b, y⟩ := e
    obtain ⟨h1, h2⟩ := h
    obtain ⟨h3, h4⟩ := List.pairwise_cons.1 h2
    simp only [memSet]
    split
    · rename_i hab
      split
      · rfl
      · simp only [memGet]
        rw [if_neg hc.symm]
        split
        · rw [if_neg (by omega), if_pos (by omega)]
        · rfl
    · split
      · rename_i hab
        split
        · simp only [memGet]
          rw [if_neg (by omega)]
          split
          · exact memGet_low r c (fun d hd => Nat.lt_trans (by omega) (h3 d hd))
          · rfl
        · subst hab
          have h8 : ¬a = c := fun e => hc e.symm
          simp only [memGet, if_neg h8]
      · simp only [memGet]
        rw [ih ⟨fun d hd => h1 d (List.mem_cons_of_mem _ hd), h4⟩]

/-- Bytes outside those written read as before. -/
theorem memGet_memWrite_out (m : List Host.Cell) (a : Nat) (xs : List Byte) (c : Nat) (h : Memory.wf m = true)
    (hc : c < a ∨ a + xs.length ≤ c) : memGet (memWrite m a xs) c = memGet m c := by
  induction xs generalizing m a with
  | nil => rfl
  | cons x r ih =>
    simp only [List.length_cons] at hc
    simp only [memWrite]
    rw [ih _ _ (memSet_wf m a x h) (by omega), memGet_memSet_ne m x h (by omega)]

/-- The bytes written are read back. -/
theorem memRead_memWrite (m : List Host.Cell) (a : Nat) (xs : List Byte) (h : Memory.wf m = true) :
    memRead (memWrite m a xs) a xs.length = xs := by
  induction xs generalizing m a with
  | nil => rfl
  | cons x r ih =>
    simp only [memWrite, List.length_cons, memRead]
    rw [ih _ _ (memSet_wf m a x h), memGet_memWrite_out _ _ _ _ (memSet_wf m a x h) (by omega),
      memGet_memSet_same m a x h]

/-! ### The operations of State -/

/-- The memory of a state keeps its canonical form. -/
theorem State.poke_wf (s : State) (a : Nat) (bs : List Byte) (h : Memory.wf s.mem = true) :
    Memory.wf (s.poke a bs).mem = true := memWrite_wf _ _ _ h

end Sys2Proof.Machine
end

