-- ==== Sys2Proof/Laws/Slot.lean ====
section
/-! SUPPORT. What a slot of a bundle does, said once: the cases of its guard, its duplicate and its pending registers,
and its retirement before and at the end of its bundle. -/

namespace Sys2Proof.Machine

theorem State.slotOff_ready (s : State) (h : Head) (touch : List RegId) (dup : Dup) (off : List Act) (k : Ctx → List Act)
    (hr : s.ready h touch) : s.slotOff h touch dup off k = .next (s.retire (k s.me)) := by
  obtain ⟨h1, h2, h3, h4, h5⟩ := hr
  simp [State.slotOff, h1, h2, h3, h4, h5, State.struck]

theorem State.slotDo_ready (s : State) (h : Head) (touch : List RegId) (k : Ctx → List Act) (hr : s.ready h touch) :
    s.slotDo h touch k = .next (s.retire (k s.me)) := s.slotOff_ready h touch .now [] k hr

/-- A false guard: the slot asks for what it asks for then, a duplicate for nothing. -/
theorem State.slotOff_false (s : State) (h : Head) (touch : List RegId) (dup : Dup) (off : List Act) (k : Ctx → List Act)
    (h1 : s.me.pending (RegId.p (s.me.r.physPred h.g.toNat)) = false) (h2 : s.me.r.readPred h.g.toNat = false) :
    s.slotOff h touch dup off k = .next (s.retire (if h.d then [] else off)) := by
  simp [State.slotOff, h1, h2]

/-- A pending register stalls the bundle. -/
theorem State.slotOff_pending (s : State) (h : Head) (touch : List RegId) (dup : Dup) (off : List Act)
    (k : Ctx → List Act) (h1 : s.me.pending (RegId.p (s.me.r.physPred h.g.toNat)) = true) :
    s.slotOff h touch dup off k = .next (s.retire [.stall .busy]) := by
  simp [State.slotOff, h1]

/-- A duplicate that no fault strikes asks for its compare, and for its unit where its original takes one. -/
theorem State.slotOff_dup (s : State) (h : Head) (touch : List RegId) (dup : Dup) (off : List Act) (k : Ctx → List Act)
    (h1 : s.me.pending (RegId.p (s.me.r.physPred h.g.toNat)) = false) (h2 : s.me.r.readPred h.g.toNat = true)
    (h3 : s.me.anyPending touch = false) (h4 : h.d = true) (h5 : s.upsets = [])
    (h6 : dup.iterative = true → (s.core (coreOf s.cur)).iter.contains s.iss.unit = false) :
    s.slotOff h touch dup off k =
      .next (s.retire (dup.acts none ++ if dup.iterative then [Act.useIter s.iss.unit] else [])) := by
  by_cases hi : dup.iterative = true
  · simp [State.slotOff, h1, h2, h3, h4, h5, State.struck, hi, show s.iss.unit ∉ _ by simpa using h6 hi]
  · simp [State.slotOff, h1, h2, h3, h4, h5, State.struck, hi]

/-- A slot with others to come only records what it asks for. -/
theorem State.retire_more (s : State) (as : List Act) (h : s.iss.rest ≠ []) :
    s.retire as = { s with iss := { s.iss with acts := s.iss.acts ++ as.map fun a => (s.iss.slot, a) } } := by
  simp [State.retire, h]

/-- The last slot of a bundle ends it. -/
theorem State.retire_last (s : State) (as : List Act) (h : s.iss.rest = []) :
    s.retire as = ({ s with iss := { s.iss with acts := s.iss.acts ++ as.map fun a => (s.iss.slot, a) } } : State).finish := by
  simp [State.retire, h]

/-- Every slot answers a next state: what it asks for, a stall or a trap is a matter of the bundle. -/
theorem State.slotOff_next (s : State) (h : Head) (touch : List RegId) (dup : Dup) (off : List Act) (k : Ctx → List Act) :
    ∃ t, s.slotOff h touch dup off k = .next t := by
  simp only [State.slotOff]
  repeat' split
  all_goals exact ⟨_, rfl⟩

/-- A slot executed with others to come leaves everything but the bundle in issue, and the faults about to strike, as it
was. -/
theorem State.slotOff_more (s t : State) (h : Head) (touch : List RegId) (dup : Dup) (off : List Act)
    (k : Ctx → List Act) (hm : s.iss.rest ≠ []) (ht : s.slotOff h touch dup off k = .next t) :
    ∃ as u, t = { s with iss := { s.iss with acts := s.iss.acts ++ as }, upsets := u } := by
  simp only [State.slotOff] at ht
  repeat' split at ht
  all_goals
    injection ht with ht
    subst ht
    simp only [State.retire, hm, if_false]
    exact ⟨_, _, rfl⟩

end Sys2Proof.Machine
end

