-- ==== Sys2Proof/Laws/Alone.lean ====
section
/-! SUPPORT. How a bundle of one slot ends when nothing else of its context is under way: what it does at once, what it
leaves in flight, and what enters the store containment buffer. -/

namespace Sys2Proof.Machine

theorem SMap.set_set {α : Type} (m : SMap α) (k : Nat) (x y : α) : (m.set k x).set k y = m.set k y := by
  induction m with
  | nil => simp [SMap.set]
  | cons e r ih =>
    obtain ⟨j, z⟩ := e
    simp only [SMap.set]
    split
    · simp [SMap.set]
    · split
      · simp [SMap.set]
      · rename_i h1 h2
        simp [SMap.set, h1, h2, ih]

@[simp] theorem State.setCtx_setCtx (s : State) (g : Nat) (c d : Ctx) : (s.setCtx g c).setCtx g d = s.setCtx g d := by
  simp [State.setCtx, SMap.set_set]

/-- A result written touches nothing of these. -/
theorem Ctx.put_mx (c : Ctx) (r : Res) : (c.put r).mx = c.mx := by
  unfold Ctx.put Ctx.putCsr; repeat' split
  all_goals rfl
theorem Ctx.put_due' (c : Ctx) (r : Res) : (c.put r).due' = c.due' := by
  unfold Ctx.put Ctx.putCsr; repeat' split
  all_goals rfl
theorem Ctx.put_todo (c : Ctx) (r : Res) : (c.put r).todo = c.todo := by
  unfold Ctx.put Ctx.putCsr; repeat' split
  all_goals rfl
theorem Ctx.put_run (c : Ctx) (r : Res) : (c.put r).run = c.run := by
  unfold Ctx.put Ctx.putCsr; repeat' split
  all_goals rfl
theorem Ctx.put_fl (c : Ctx) (r : Res) : (c.put r).fl = c.fl := by
  unfold Ctx.put Ctx.putCsr; repeat' split
  all_goals rfl
theorem Ctx.put_st (c : Ctx) (r : Res) : (c.put r).st = c.st := by
  unfold Ctx.put Ctx.putCsr; repeat' split
  all_goals rfl
theorem Ctx.put_chains (c : Ctx) (r : Res) : (c.put r).chains = c.chains := by
  unfold Ctx.put Ctx.putCsr; repeat' split
  all_goals rfl
theorem Ctx.put_mstep (c : Ctx) (r : Res) : (c.put r).mstep = c.mstep := by
  unfold Ctx.put Ctx.putCsr; repeat' split
  all_goals rfl
theorem Ctx.put_bseq (c : Ctx) (r : Res) : (c.put r).bseq = c.bseq := by
  unfold Ctx.put Ctx.putCsr; repeat' split
  all_goals rfl

/-- What a slot asks for besides stalls, traps, entries, work at the end of the bundle and matrix operations. -/
def Act.quiet : Act → Bool
  | .fly _ _ => true
  | .vec _ _ _ => true
  | .ilk _ _ => true
  | .jump _ _ => true
  | .useIter _ => true
  | .share _ => true
  | .pref _ _ _ => true
  | .log _ => true
  | .touch _ => true
  | .wake _ => true
  | .efq _ _ => true
  | .chainOpen => true
  | .chainClose => true
  | _ => false

/-- Nothing of a kind is picked from quiet acts where the choice takes none of them. -/
theorem pick_quiet {α : Type} (f : Nat → Act → Option α) (l : List (Nat × Act)) (hl : ∀ e ∈ l, e.2.quiet = true)
    (hf : ∀ n a, a.quiet = true → f n a = none) : (l.filterMap fun e => f e.1 e.2) = [] := by
  rw [List.filterMap_eq_nil_iff]
  intro e he
  exact hf _ _ (hl e he)

/-- A bundle whose slots ask for quiet acts alone takes effect. -/
theorem State.finish_quiet (s : State) (h : ∀ e ∈ s.iss.acts, e.2.quiet = true) : s.finish = s.issueAll [] [] [] := by
  have p : ∀ {α : Type} (f : Nat → Act → Option α), (∀ n a, a.quiet = true → f n a = none) → s.iss.pickActs f = [] :=
    fun f hf => pick_quiet f _ h hf
  simp only [State.finish]
  rw [p]
  simp only []
  rw [p]
  simp only [bestTrap]
  rw [p, p]
  simp only [State.startX, orderEntries, State.findRoom, State.scbFill]
  rfl
  all_goals intro n a ha; cases a <;> first | rfl | exact nomatch ha

/-- The flight of a result that a slot asks for. -/
def Act.flight (bseq slot : Nat) : Act → Option Flight
  | .fly lat r => some ⟨r, bseq + lat, false, bseq, slot, none, [], none, 0, none, 0, []⟩
  | .vec lat i o => some ⟨o.res, bseq + lat, i, bseq, slot, o.trap, o.folds, o.vop, o.pipe, none, o.vflg, o.excs⟩
  | .ilk r t => some ⟨r, bseq, true, bseq, slot, t, [], none, 0, none, 0, []⟩
  | _ => none

/-- A flight added to those of the acting context. -/
def State.addFlight (s : State) (f : Flight) : State :=
  s.setCtx s.cur { s.ctx s.cur with fl := (s.ctx s.cur).fl ++ [f] }

theorem State.applyAct_fly (s : State) (slot lat : Nat) (r : Res) : s.applyAct slot (.fly lat r) =
    s.addFlight ⟨r, (s.ctx s.cur).bseq + lat, false, (s.ctx s.cur).bseq, slot, none, [], none, 0, none, 0, []⟩ := rfl
theorem State.applyAct_vec (s : State) (slot lat : Nat) (i : Bool) (o : VOut) : s.applyAct slot (.vec lat i o) =
    s.addFlight ⟨o.res, (s.ctx s.cur).bseq + lat, i, (s.ctx s.cur).bseq, slot, o.trap, o.folds, o.vop, o.pipe, none, o.vflg,
      o.excs⟩ := rfl
theorem State.applyAct_ilk (s : State) (slot : Nat) (r : Res) (t : Option TrapReq) : s.applyAct slot (.ilk r t) =
    s.addFlight ⟨r, (s.ctx s.cur).bseq, true, (s.ctx s.cur).bseq, slot, t, [], none, 0, none, 0, []⟩ := rfl
theorem State.applyAct_goto (s : State) (slot : Nat) (a w : Word) : s.applyAct slot (.jump (some a) w) =
    s.setCtx s.cur { (s.ctx s.cur).foldHi w with r := { ((s.ctx s.cur).foldHi w).r with pc := a } } := rfl
theorem State.applyAct_pass (s : State) (slot : Nat) (w : Word) : s.applyAct slot (.jump none w) =
    s.setCtx s.cur ((s.ctx s.cur).foldHi w) := rfl

theorem State.addFlight_setCtx (s : State) (c : Ctx) (f : Flight) :
    (s.setCtx s.cur c).addFlight f = s.setCtx s.cur { c with fl := c.fl ++ [f] } := by
  simp only [State.addFlight, State.setCtx_cur, State.ctx_setCtx_same, State.setCtx_setCtx]

theorem State.applyAct_flight (s : State) (c : Ctx) (slot : Nat) (a : Act) (f : Flight)
    (h : a.flight c.bseq slot = some f) :
    (s.setCtx s.cur c).applyAct slot a = s.setCtx s.cur { c with fl := c.fl ++ [f] } := by
  cases a <;> first
    | (cases h
       simp only [State.applyAct_fly, State.applyAct_vec, State.applyAct_ilk, State.setCtx_cur, State.ctx_setCtx_same,
         State.addFlight_setCtx])
    | exact nomatch h

theorem State.applyActs_cons (s : State) (e : Nat × Act) (l : List (Nat × Act)) :
    s.applyActs (e :: l) = (s.applyAct e.1 e.2).applyActs l := rfl

theorem State.applyActs_append (s : State) (l m : List (Nat × Act)) : s.applyActs (l ++ m) = (s.applyActs l).applyActs m :=
  List.foldl_append

/-- Results that a slot asks for go in flight. -/
theorem State.foldl_flights (s : State) (c : Ctx) (slot : Nat) (as : List Act) (fs : List Flight)
    (h : as.map (Act.flight c.bseq slot) = fs.map some) :
    (s.setCtx s.cur c).applyActs (as.map fun a => (slot, a)) =
      s.setCtx s.cur { c with fl := c.fl ++ fs } := by
  induction as generalizing c fs with
  | nil =>
    cases fs with
    | nil => simp [State.applyActs]
    | cons f r => simp at h
  | cons a r ih =>
    cases fs with
    | nil => simp at h
    | cons f fr =>
      simp only [List.map_cons, List.cons.injEq] at h
      obtain ⟨h1, h2⟩ := h
      rw [List.map_cons, State.applyActs_cons, s.applyAct_flight c slot a f h1, ih { c with fl := c.fl ++ [f] } fr h2]
      simp

/-- The counts of a bundle that ends and leaves no work. -/
abbrev Ctx.stepped (c : Ctx) : Ctx := c.ended []

/-- An act that is quiet, or an entry. -/
def Act.calm : Act → Bool
  | .enter _ _ _ _ _ => true
  | a => a.quiet

/-- Acts none of which starts a matrix operation take effect before the entries, and nothing after them. -/
theorem filter_mx (l : List (Nat × Act)) (h : ∀ e ∈ l, e.2.isMx = false) :
    (l.filter fun e => !e.2.isMx) = l ∧ (l.filter fun e => e.2.isMx) = [] :=
  ⟨List.filter_eq_self.2 fun e he => by simp [h e he], List.filter_eq_nil_iff.2 fun e he => by simp [h e he]⟩

/-- Where no chain has ended, none folds. -/
theorem State.chainFolds_open (s : State) (g : Nat) (c : Ctx) (h : ∀ ch ∈ c.chains, ch.closed = false) :
    (s.setCtx g c).chainFolds g = s.setCtx g c := by
  have e1 : c.chains.filter c.chainDone = [] := List.filter_eq_nil_iff.2 fun ch hc => by simp [Ctx.chainDone, h ch hc]
  have e2 : c.chains.filter (not ∘ c.chainDone) = c.chains := List.filter_eq_self.2 fun ch hc => by simp [Ctx.chainDone, h ch hc]
  simp only [State.chainFolds, State.chainEnds, State.ctx_setCtx_same, List.partition_eq_filter_filter, e1, e2, List.flatMap_nil,
    List.foldl_nil, State.setCtx_setCtx, if_true]

/-- With no matrix operation under way nothing lands there. -/
theorem State.mxLandDue_nil (s : State) (g : Nat) (c : Ctx) (hm : c.mx = []) (h : ∀ ch ∈ c.chains, ch.closed = false) (n : Nat) :
    (s.setCtx g c).mxLandDue g n = (s.setCtx g c, none) := by
  cases n with
  | zero => simp only [State.mxLandDue, State.chainFolds_open s g c h]
  | succ n =>
    have e : { c with mx := [] } = c := by
      cases c
      simp_all
    simp only [State.mxLandDue, State.ctx_setCtx_same, hm, mxFirst, List.filter_nil, List.filterMap_nil, List.min?_nil,
      State.setCtx_setCtx, e, State.chainFolds_open s g c h]

/-- What is due at the end of a bundle where only results land: `u` is the state that they leave. -/
theorem State.bundleEnds_lands (s k : State) (g : Nat) (pc : Word) (w : Bool) (d : Ctx) (hu : s.landExposed g = (k.setCtx g d, none))
    (hm : d.mx = []) (hc : ∀ ch ∈ d.chains, ch.closed = false) (hr : d.runLimit / 8 < d.run) (hd : d.due' = []) :
    s.bundleEnds g pc w = (k.setCtx g d).settle g := by
  have h0 : ¬d.run ≤ d.runLimit / 8 := by omega
  have h1 : ¬d.run = 0 := by omega
  simp only [State.bundleEnds, hu, State.ctx_setCtx_same, State.mxLandDue_nil k g d hm hc, h1, decide_false, Bool.false_and,
    State.runDue, h0, if_false, Bool.false_eq_true, State.deliverDue, hd, bestTrap, ite_self]

/-- With no work left nothing is done. -/
theorem State.settle_nil (k : State) (g : Nat) (d : Ctx) (h : d.todo = []) : (k.setCtx g d).settle g = k.setCtx g d := by
  simp only [State.settle, State.settleN, State.settleOne, State.ctx_setCtx_same, h, ite_self]

/-- No TST of a bundle with at most one entry writes what a command of the bundle reads: none keeps old bytes. -/
theorem keepEntries_one (x : State) (g : Nat) (now : List Entry) (h : now.length ≤ 1) : keepEntries (x.tstOld g now) now = now := by
  match now, h with
  | [], _ => simp [keepEntries]
  | [⟨op, _, _, _, _, _, _, _, _⟩], _ => cases op <;> simp [keepEntries, State.tstOld, Entry.readsMem]

/-- How a bundle of quiet acts and entries ends: what its slots ask for, then what is due lands. -/
theorem State.issueAll_calm (s t k : State) (now : List Entry) (folds : List Word) (c d : Ctx)
    (h : ∀ e ∈ s.iss.acts, e.2.calm = true) (hn : now.length ≤ 1)
    (ht : State.applyActs (({ s with iss := Issue.idle } : State).setCtx s.cur (s.me.begun s.iss.pc s.fallThrough)) s.iss.acts = t)
    (ht2 : now.foldl (fun x e => x.scbEnter s.cur e) (t.setCtx s.cur ((t.ctx s.cur).foldLo folds)) = k.setCtx s.cur c)
    (hu : (k.setCtx s.cur c.stepped).landExposed s.cur = (k.setCtx s.cur d, none))
    (hm : d.mx = []) (hc : ∀ ch ∈ d.chains, ch.closed = false) (hr : d.runLimit / 8 < d.run)
    (hd : d.due' = []) (hw : d.todo = []) : s.issueAll now [] folds = k.setCtx s.cur d := by
  have p : ∀ {α : Type} (f : Nat → Act → Option α), (∀ n a, a.calm = true → f n a = none) → s.iss.pickActs f = [] := by
    intro α f hf
    simp only [Issue.pickActs]
    rw [List.filterMap_eq_nil_iff]
    intro e he
    exact hf _ _ (h e he)
  have hk : s.iss.ckptKind = none := by
    simp only [Issue.ckptKind]
    rw [p]
    intro n a ha; cases a <;> first | rfl | exact nomatch ha
  have hto : ∀ b, tailOrder s.iss.pc none [] [] b = [] := by intro b; simp [tailOrder]
  obtain ⟨f1, f2⟩ := filter_mx s.iss.acts (by
    intro e he
    have := h e he
    obtain ⟨n, a⟩ := e
    cases a <;> first | rfl | exact nomatch this)
  simp only [State.issueAll, hk, f1, f2]
  rw [show s.ctx s.cur = s.me from rfl, show s.iss.pc + BitVec.ofNat 64 (4 * s.iss.n) = s.fallThrough from rfl, ht, p]
  · rw [List.append_nil, keepEntries_one _ _ now hn, show ∀ o, keepEntries o [] = [] from fun o => by simp [keepEntries]]
    simp only [State.awaiting, ht2, List.filter_nil, Option.isSome_none, Bool.false_and, Bool.false_eq_true, if_false, if_true, State.applyActs,
      List.foldl_nil, List.append_nil, hto, State.ctx_setCtx_same, State.setCtx_setCtx]
    rw [State.bundleEnds_lands _ k s.cur s.iss.pc _ d hu hm hc hr hd, State.settle_nil k s.cur d hw]
  · intro n a ha; cases a <;> first | rfl | exact nomatch ha

theorem Act.calm_of_quiet (a : Act) (h : a.quiet = true) : a.calm = true := by cases a <;> simp_all [Act.calm]

/-- How a bundle of quiet acts ends. -/
theorem State.issueAll_quiet (s k : State) (c d : Ctx) (h : ∀ e ∈ s.iss.acts, e.2.quiet = true)
    (ht : State.applyActs (({ s with iss := Issue.idle } : State).setCtx s.cur (s.me.begun s.iss.pc s.fallThrough)) s.iss.acts =
      k.setCtx s.cur c)
    (hu : (k.setCtx s.cur (c.foldLo []).stepped).landExposed s.cur = (k.setCtx s.cur d, none))
    (hm : d.mx = []) (hc : ∀ ch ∈ d.chains, ch.closed = false) (hr : d.runLimit / 8 < d.run)
    (hd : d.due' = []) (hw : d.todo = []) : s.issueAll [] [] [] = k.setCtx s.cur d :=
  s.issueAll_calm _ k [] [] (c.foldLo []) d (fun e he => e.2.calm_of_quiet (h e he)) (Nat.zero_le _) ht
    (by simp only [List.foldl_nil, State.ctx_setCtx_same, State.setCtx_setCtx]) hu hm hc hr hd hw

@[simp] theorem Ctx.foldLo_nil (c : Ctx) : c.foldLo [] = c := by
  simp only [Ctx.foldLo, sigFolds, List.foldl_nil]
  split <;> rfl

/-- A plain result as it flies. -/
def plainFlight (b slot : Nat) (r : Res) : Flight := ⟨r, b + 1, false, b, slot, none, [], none, 0, none, 0, []⟩

/-- A plain result lands: it is written, and nothing else changes. -/
theorem State.landFlight_plain (s : State) (g b slot : Nat) (c : Ctx) (r : Res) :
    (s.setCtx g c).landFlight g true (plainFlight b slot r) = s.setCtx g (c.put r) := by
  simp [State.landFlight, plainFlight, Flight.foldWords]

/-- Results of one slot supersede none of each other. -/
theorem wins_plain (b slot : Nat) (rs : List Res) (r : Res) :
    (plainFlight b slot r).wins (rs.map (plainFlight b slot)) = true := by
  simp [Flight.wins, Flight.beats, plainFlight]

theorem State.foldl_landFlight_plain (s : State) (g b slot : Nat) (c : Ctx) (l rs : List Res) :
    (rs.map (plainFlight b slot)).foldl (fun s f => s.landFlight g (f.wins (l.map (plainFlight b slot))) f) (s.setCtx g c) =
      s.setCtx g (rs.foldl Ctx.put c) := by
  induction rs generalizing c with
  | nil => rfl
  | cons r rs ih => simp only [List.map_cons, List.foldl_cons, wins_plain, State.landFlight_plain, ih]

theorem bestTrap_plain (b slot : Nat) (rs : List Res) :
    bestTrap ((rs.map (plainFlight b slot)).filterMap (·.trap)) = none := by
  have : (rs.map (plainFlight b slot)).filterMap (·.trap) = [] := by
    rw [List.filterMap_eq_nil_iff]
    intro f hf
    obtain ⟨r, -, rfl⟩ := List.mem_map.1 hf
    rfl
  rw [this]
  rfl

theorem State.landAll_plain (s : State) (g b slot : Nat) (c : Ctx) (rs : List Res)
    (h : c.fl = rs.map (plainFlight b slot)) :
    (s.setCtx g c).landAll g (rs.map (plainFlight b slot)) =
      (s.setCtx g (rs.foldl Ctx.put { c with fl := [] }), none) := by
  have e : c.fl.filter (fun f => !(rs.map (plainFlight b slot)).contains f) = [] := by
    rw [List.filter_eq_nil_iff]
    intro f hf
    rw [h] at hf
    simp [hf]
  have p : (rs.map (plainFlight b slot)).filter (·.pipe != 7) = rs.map (plainFlight b slot) := by
    rw [List.filter_eq_self]
    intro f hf
    obtain ⟨r, -, rfl⟩ := List.mem_map.1 hf
    rfl
  have q : (rs.map (plainFlight b slot)).filter (·.pipe == 7) = [] := by
    rw [List.filter_eq_nil_iff]
    intro f hf
    obtain ⟨r, -, rfl⟩ := List.mem_map.1 hf
    simp [plainFlight]
  have u : (rs.map (plainFlight b slot)).filterMap (·.iter) = [] := by
    rw [List.filterMap_eq_nil_iff]
    intro f hf
    obtain ⟨r, -, rfl⟩ := List.mem_map.1 hf
    rfl
  simp only [State.landAll, bestTrap_plain, State.ctx_setCtx_same, e, p, q, u, if_true, List.append_nil,
    State.setCtx_setCtx, State.foldl_landFlight_plain]

/-- With nothing that lands, nothing changes. -/
theorem State.landAll_nil (s : State) (g : Nat) (c : Ctx) : (s.setCtx g c).landAll g [] = (s.setCtx g c, none) := by
  have e : (c.fl.filter fun f => !([] : List Flight).contains f) = c.fl := List.filter_eq_self.2 fun _ _ => rfl
  simp only [State.landAll, List.filterMap_nil, bestTrap, List.filter_nil, List.append_nil, List.foldl_nil, if_true,
    State.ctx_setCtx_same, State.setCtx_setCtx, e]

/-- Where every result in flight is interlocked or lands later, and no matrix operation is under way, nothing lands. -/
theorem State.landExposed_stay (s : State) (g : Nat) (c : Ctx) (hm : c.mx = [])
    (hf : ∀ f ∈ c.fl, f.ilk = true ∨ c.bseq < f.land) : (s.setCtx g c).landExposed g = (s.setCtx g c, none) := by
  have e : (c.fl.filter fun f => !f.ilk && decide (f.land ≤ c.bseq)) = [] := by
    rw [List.filter_eq_nil_iff]
    intro f hx
    rcases hf f hx with h | h
    · simp [h]
    · simp [Nat.not_le.2 h]
  simp only [State.landExposed, State.ctx_setCtx_same, e, Ctx.statusDue, hm, List.filterMap_nil, List.append_nil, State.landAll_nil]

theorem Ctx.fl_nil (c : Ctx) (h : c.fl = []) : { c with fl := [] } = c := by
  cases c
  simp_all

theorem Ctx.foldl_put (rs : List Res) (c : Ctx) : (rs.foldl Ctx.put c).mx = c.mx ∧ (rs.foldl Ctx.put c).due' = c.due' ∧
    (rs.foldl Ctx.put c).todo = c.todo ∧ (rs.foldl Ctx.put c).run = c.run ∧ (rs.foldl Ctx.put c).chains = c.chains := by
  induction rs generalizing c with
  | nil => exact ⟨rfl, rfl, rfl, rfl, rfl⟩
  | cons r rs ih =>
    obtain ⟨a, b, c', d, e⟩ := ih (c.put r)
    simp only [List.foldl_cons, a, b, c', d, e, Ctx.put_mx, Ctx.put_due', Ctx.put_todo, Ctx.put_run, Ctx.put_chains, and_self]

/-- The results that a bundle leaves land at once: `k` and `c` are the state and the context that its acts make. -/
theorem State.issueAll_land (s k : State) (c : Ctx) (rs : List Res) (h : ∀ e ∈ s.iss.acts, e.2.quiet = true)
    (ht : State.applyActs (({ s with iss := Issue.idle } : State).setCtx s.cur (s.me.begun s.iss.pc s.fallThrough)) s.iss.acts =
      k.setCtx s.cur c)
    (slot : Nat) (hf : c.fl = rs.map (plainFlight c.bseq slot)) (hm : c.mx = []) (hc : ∀ ch ∈ c.chains, ch.closed = false)
    (hd : c.due' = []) (hr : (rs.foldl Ctx.put { c.stepped with fl := [] }).runLimit / 8 < c.run - 1) :
    s.issueAll [] [] [] = k.setCtx s.cur (rs.foldl Ctx.put { c.stepped with fl := [] }) := by
  obtain ⟨i1, i2, i3, i4, i5⟩ := Ctx.foldl_put rs { c.stepped with fl := [] }
  refine State.issueAll_quiet s k c _ h ht ?_ (i1.trans hm) (by rw [i5]; exact hc) (by rw [i4]; exact hr) (i2.trans hd) i3
  have hl : (c.stepped.fl.filter fun f => !f.ilk && decide (f.land ≤ c.stepped.bseq)) = rs.map (plainFlight c.bseq slot) := by
    rw [show c.stepped.fl = c.fl from rfl, hf, List.filter_eq_self]
    intro f hf
    obtain ⟨r, -, rfl⟩ := List.mem_map.1 hf
    simp [plainFlight, Ctx.ended]
  have hst : c.stepped.statusDue = [] := by
    simp only [Ctx.statusDue, show c.stepped.mx = [] from hm, List.filterMap_nil]
  simp only [Ctx.foldLo_nil, State.landExposed, State.ctx_setCtx_same, hl, hst, List.append_nil]
  exact State.landAll_plain k s.cur c.bseq slot c.stepped rs hf

/-- The results that a bundle leaves stay in flight. -/
theorem State.issueAll_stay (s k : State) (c : Ctx) (h : ∀ e ∈ s.iss.acts, e.2.quiet = true)
    (ht : State.applyActs (({ s with iss := Issue.idle } : State).setCtx s.cur (s.me.begun s.iss.pc s.fallThrough)) s.iss.acts =
      k.setCtx s.cur c)
    (hf : ∀ f ∈ c.fl, f.ilk = true ∨ c.bseq + 1 < f.land) (hm : c.mx = []) (hc : ∀ ch ∈ c.chains, ch.closed = false)
    (hd : c.due' = []) (hr : c.runLimit / 8 < c.run - 1) : s.issueAll [] [] [] = k.setCtx s.cur c.stepped := by
  refine State.issueAll_quiet s k c _ h ht ?_ hm hc hr hd rfl
  rw [Ctx.foldLo_nil]
  exact k.landExposed_stay s.cur c.stepped hm hf

/-- Where a bundle of one slot goes: its transfer folded, and the target, if it has one, in the PC. -/
theorem State.applyAct_jump (s : State) (c : Ctx) (slot : Nat) (t : Option Word) (w : Word) :
    (s.setCtx s.cur c).applyAct slot (.jump t w) = s.setCtx s.cur (c.jumped t w) := by
  have e : c.foldHi w = { c with sighi := if 1 ≤ c.pcls then sigFold c.sighi w else c.sighi } := by
    simp only [Ctx.foldHi]
    split <;> rfl
  cases t with
  | none =>
    rw [State.applyAct_pass, State.setCtx_cur, State.ctx_setCtx_same, State.setCtx_setCtx, e]
    rfl
  | some a =>
    rw [State.applyAct_goto, State.setCtx_cur, State.ctx_setCtx_same, State.setCtx_setCtx, e]
    rfl

/-- Results of latency 1 that a slot asks for. -/
theorem flights_plain (b slot : Nat) (rs : List Res) :
    (rs.map (Act.fly 1)).map (Act.flight b slot) = (rs.map (plainFlight b slot)).map some := by
  simp only [List.map_map]
  apply List.map_congr_left
  intro r _
  rfl

/-- Results of latency 1 and at most a transfer, and nothing else asked for: they take effect at once. -/
theorem State.retire_jump (s : State) (rs : List Res) (t : Option Word) (w : Word) (h : s.alone)
    (hr : (rs.foldl Ctx.put ((s.me.passed s.iss.pc s.fallThrough).jumped t w)).runLimit / 8 < s.me.run - 1) :
    s.retire (rs.map (Act.fly 1) ++ [.jump t w]) =
      s.after (rs.foldl Ctx.put ((s.me.passed s.iss.pc s.fallThrough).jumped t w)) := by
  rw [State.retire_last _ _ h.rest]
  simp only [h.acts, List.nil_append]
  have q : ∀ e ∈ ((rs.map (Act.fly 1) ++ [Act.jump t w]).map fun a => (s.iss.slot, a)), e.2.quiet = true := by
    intro e he
    simp only [List.map_append, List.mem_append, List.map_map, List.mem_map, List.map_cons, List.map_nil,
      List.mem_singleton] at he
    rcases he with ⟨r, -, rfl⟩ | rfl <;> rfl
  rw [State.finish_quiet _ q]
  let c1 := s.me.begun s.iss.pc s.fallThrough
  have ht := State.foldl_flights ({ s with iss := Issue.idle } : State) c1 s.iss.slot (rs.map (Act.fly 1))
    (rs.map (plainFlight s.me.bseq s.iss.slot)) (flights_plain _ _ rs)
  simp only [show c1.fl = [] from h.fl, List.nil_append] at ht
  have e : ({ (({ c1 with fl := rs.map (plainFlight s.me.bseq s.iss.slot) } : Ctx).jumped t w).stepped with fl := [] } : Ctx) =
      (s.me.passed s.iss.pc s.fallThrough).jumped t w := Ctx.fl_nil ((s.me.passed s.iss.pc s.fallThrough).jumped t w) h.fl
  refine (State.issueAll_land _ ({ s with iss := Issue.idle } : State)
    (({ c1 with fl := rs.map (plainFlight s.me.bseq s.iss.slot) } : Ctx).jumped t w) rs q ?_ s.iss.slot rfl h.mx h.chains h.due'
    (by rw [e]; exact hr)).trans (by rw [e]; rfl)
  rw [List.map_append, State.applyActs_append]
  refine (congrArg (fun x : State => x.applyActs [(s.iss.slot, .jump t w)]) ht).trans ?_
  exact State.applyAct_jump ({ s with iss := Issue.idle } : State) _ s.iss.slot t w

/-- Results of latency 1, and nothing else asked for: they are written at once. -/
theorem State.retire_land (s : State) (rs : List Res) (h : s.alone)
    (hr : (rs.foldl Ctx.put (s.me.passed s.iss.pc s.fallThrough)).runLimit / 8 < s.me.run - 1) :
    s.retire (rs.map (Act.fly 1)) = s.after (rs.foldl Ctx.put (s.me.passed s.iss.pc s.fallThrough)) := by
  rw [State.retire_last _ _ h.rest]
  simp only [h.acts, List.nil_append]
  have q : ∀ e ∈ ((rs.map (Act.fly 1)).map fun a => (s.iss.slot, a)), e.2.quiet = true := by
    intro e he
    simp only [List.map_map, List.mem_map] at he
    obtain ⟨r, -, rfl⟩ := he
    rfl
  rw [State.finish_quiet _ q]
  let c1 := s.me.begun s.iss.pc s.fallThrough
  have ht := State.foldl_flights ({ s with iss := Issue.idle } : State) c1 s.iss.slot (rs.map (Act.fly 1))
    (rs.map (plainFlight s.me.bseq s.iss.slot)) (flights_plain _ _ rs)
  simp only [show c1.fl = [] from h.fl, List.nil_append] at ht
  have e : ({ ({ c1 with fl := rs.map (plainFlight s.me.bseq s.iss.slot) } : Ctx).stepped with fl := [] } : Ctx) =
      s.me.passed s.iss.pc s.fallThrough := Ctx.fl_nil (s.me.passed s.iss.pc s.fallThrough) h.fl
  refine (State.issueAll_land _ ({ s with iss := Issue.idle } : State)
    ({ c1 with fl := rs.map (plainFlight s.me.bseq s.iss.slot) } : Ctx) rs q ht s.iss.slot rfl h.mx h.chains h.due'
    (by rw [e]; exact hr)).trans (by rw [e]; rfl)

theorem State.alone_run (s : State) (h : s.alone) : (s.me.passed s.iss.pc s.fallThrough).runLimit / 8 < s.me.run - 1 := by
  have h7 := h.run
  have : (s.me.passed s.iss.pc s.fallThrough).runLimit = s.me.runLimit := rfl
  omega

/-- A slot that asks for nothing. -/
theorem State.retire_nil (s : State) (h : s.alone) : s.retire [] = s.skipped := s.retire_land [] h (s.alone_run h)

/-- A register other than a control register changes nothing of the run limit. -/
theorem Ctx.put_runLimit (c : Ctx) (r : Res) (hr : ∀ m x, r ≠ .csr 0x104 m x) : (c.put r).runLimit = c.runLimit := by
  cases r with
  | csr i m x =>
    have : i ≠ 0x104 := by
      intro e
      exact hr m x (by rw [e])
    simp only [Ctx.put, Ctx.putCsr]
    split <;> first | rfl | exact absurd rfl this
  | _ =>
    unfold Ctx.put
    repeat' split
    all_goals first
      | rfl
      | simp_all

/-- A slot that writes one register with latency 1. -/
theorem State.retire_fly (s : State) (r : Res) (h : s.alone) (hr : ∀ m x, r ≠ .csr 0x104 m x) :
    s.retire [.fly 1 r] = s.wrote r := by
  refine s.retire_land [r] h ?_
  have := s.alone_run h
  simp only [List.foldl_cons, List.foldl_nil, Ctx.put_runLimit _ _ hr]
  exact this

/-- An interlocked result of the present bundle and slot that holds no unit yet holds this one. -/
def Flight.takes (b slot u : Nat) (f : Flight) : Flight :=
  if f.ilk && f.bundle == b && f.slot == slot && f.iter.isNone then { f with iter := some u } else f

theorem State.applyAct_useIter (s : State) (c : Ctx) (slot u : Nat) :
    (s.setCtx s.cur c).applyAct slot (.useIter u) =
      (s.busyUnits [u]).setCtx s.cur { c with fl := c.fl.map (Flight.takes c.bseq slot u) } := by
  have e : ∀ d : Ctx, (s.setCtx s.cur c).ctx s.cur = d → (s.setCtx s.cur c).applyAct slot (.useIter u) =
      ((s.setCtx s.cur c).busyUnits [u]).setCtx s.cur { d with fl := d.fl.map (Flight.takes d.bseq slot u) } := by
    rintro d rfl
    rfl
  rw [e c (State.ctx_setCtx_same _ _ _)]
  exact State.setCtx_setCtx (s.busyUnits [u]) s.cur c _

theorem State.busyUnits_cur (s : State) (us : List Nat) : (s.busyUnits us).cur = s.cur := by
  induction us generalizing s with
  | nil => rfl
  | cons u us ih => exact ih (s.busyUnits [u])

theorem State.foldl_useIter (s : State) (c : Ctx) (slot : Nat) (us : List Nat) :
    (s.setCtx s.cur c).applyActs ((us.map Act.useIter).map fun a => (slot, a)) =
      (s.busyUnits us).setCtx s.cur { c with fl := us.foldl (fun l u => l.map (Flight.takes c.bseq slot u)) c.fl } := by
  induction us generalizing s c with
  | nil => rfl
  | cons u us ih =>
    rw [List.map_cons, List.map_cons, State.applyActs_cons, State.applyAct_useIter]
    exact ih (s.busyUnits [u]) { c with fl := c.fl.map (Flight.takes c.bseq slot u) }

/-- A result that holds a unit takes no other. -/
theorem takes_held (b slot : Nat) (us : List Nat) (f : Flight) (h : f.iter.isSome = true) :
    us.foldl (fun l u => l.map (Flight.takes b slot u)) [f] = [f] := by
  have e : ∀ u, [f].map (Flight.takes b slot u) = [f] := by
    intro u
    have : f.iter.isNone = false := by rw [Option.isNone_eq_false_iff]; exact h
    simp [Flight.takes, this]
  induction us with
  | nil => rfl
  | cons u us ih => rw [List.foldl_cons, e, ih]

/-- A slot whose results stay in flight. -/
theorem State.retire_stay (s : State) (as : List Act) (fs : List Flight) (h : s.alone)
    (hm : as.map (Act.flight s.me.bseq s.iss.slot) = fs.map some)
    (hf : ∀ f ∈ fs, f.ilk = true ∨ s.me.bseq + 1 < f.land) : s.retire as = s.launched [] fs := by
  rw [State.retire_last _ _ h.rest]
  simp only [h.acts, List.nil_append]
  have q : ∀ e ∈ (as.map fun a => (s.iss.slot, a)), e.2.quiet = true := by
    intro e he
    obtain ⟨a, ha, rfl⟩ := List.mem_map.1 he
    have : a.flight s.me.bseq s.iss.slot ∈ as.map (Act.flight s.me.bseq s.iss.slot) := List.mem_map_of_mem ha
    rw [hm] at this
    obtain ⟨f, -, hf⟩ := List.mem_map.1 this
    cases a <;> first | rfl | simp [Act.flight] at hf
  rw [State.finish_quiet _ q]
  let c1 := s.me.begun s.iss.pc s.fallThrough
  have ht := State.foldl_flights ({ s with iss := Issue.idle } : State) c1 s.iss.slot as fs hm
  simp only [show c1.fl = [] from h.fl, List.nil_append] at ht
  exact (State.issueAll_stay _ ({ s with iss := Issue.idle } : State) ({ c1 with fl := fs } : Ctx) q ht hf h.mx h.chains h.due'
    (s.alone_run h)).trans rfl

/-- A slot with an interlocked result, which holds the first of the iterative units that the slot makes busy, and with more
interlocked results, which hold none. -/
theorem State.retire_holds (s : State) (a : Act) (f : Flight) (u : Nat) (us : List Nat) (more : List Act) (fs : List Flight)
    (h : s.alone) (hm : a.flight s.me.bseq s.iss.slot = some f) (hi : f.ilk = true) (hb : f.bundle = s.me.bseq)
    (hs : f.slot = s.iss.slot) (hn : f.iter = none) (hmore : more.map (Act.flight s.me.bseq s.iss.slot) = fs.map some)
    (hf : ∀ f ∈ fs, f.ilk = true) :
    s.retire ((a :: (u :: us).map Act.useIter) ++ more) = s.launched (u :: us) ({ f with iter := some u } :: fs) := by
  rw [State.retire_last _ _ h.rest]
  simp only [h.acts, List.nil_append]
  have qf : ∀ x : Act, ∀ y, x.flight s.me.bseq s.iss.slot = some y → x.quiet = true := by
    intro x y hx
    cases x <;> first | rfl | simp [Act.flight] at hx
  have q : ∀ e ∈ (((a :: (u :: us).map Act.useIter) ++ more).map fun a => (s.iss.slot, a)), e.2.quiet = true := by
    intro e he
    rw [List.map_append, List.mem_append, List.map_cons, List.mem_cons] at he
    rcases he with (rfl | he) | he
    · exact qf _ _ hm
    · simp only [List.map_map, List.mem_map] at he
      obtain ⟨x, -, rfl⟩ := he
      rfl
    · obtain ⟨x, hx, rfl⟩ := List.mem_map.1 he
      have : x.flight s.me.bseq s.iss.slot ∈ more.map (Act.flight s.me.bseq s.iss.slot) := List.mem_map_of_mem hx
      rw [hmore] at this
      obtain ⟨y, -, hy⟩ := List.mem_map.1 this
      exact qf x y hy.symm
  rw [State.finish_quiet _ q]
  let k : State := { s with iss := Issue.idle }
  let c1 := s.me.begun s.iss.pc s.fallThrough
  have ht := k.applyAct_flight c1 s.iss.slot a f hm
  have e0 : c1.fl ++ [f] = [f] := by rw [show c1.fl = [] from h.fl]; rfl
  rw [e0] at ht
  have e1 : (u :: us).foldl (fun l v => l.map (Flight.takes s.me.bseq s.iss.slot v)) [f] = [{ f with iter := some u }] := by
    have e2 : [f].map (Flight.takes s.me.bseq s.iss.slot u) = [{ f with iter := some u }] := by
      simp [Flight.takes, hi, hb, hs, hn]
    rw [List.foldl_cons, e2]
    exact takes_held _ _ us _ rfl
  have hu := k.foldl_useIter { c1 with fl := [f] } s.iss.slot (u :: us)
  have hl : ({ c1 with fl := (u :: us).foldl (fun l v => l.map (Flight.takes s.me.bseq s.iss.slot v)) [f] } : Ctx) =
      { c1 with fl := [{ f with iter := some u }] } := by rw [e1]
  have hk := hu.trans (congrArg ((k.busyUnits (u :: us)).setCtx s.cur) hl)
  have hz := (k.busyUnits (u :: us)).foldl_flights { c1 with fl := [{ f with iter := some u }] } s.iss.slot more fs hmore
  rw [State.busyUnits_cur] at hz
  refine (State.issueAll_stay _ (k.busyUnits (u :: us)) ({ c1 with fl := { f with iter := some u } :: fs } : Ctx) q ?_ ?_ h.mx
    h.chains h.due' (s.alone_run h)).trans rfl
  · rw [List.map_append, List.map_cons, State.applyActs_append, State.applyActs_cons]
    refine (congrArg (fun x : State => x.applyActs (more.map fun a => (s.iss.slot, a))) ?_).trans hz
    exact (congrArg (fun x : State => x.applyActs (((u :: us).map Act.useIter).map fun a => (s.iss.slot, a))) ht).trans hk
  · intro x hx
    rcases List.mem_cons.1 hx with rfl | hx
    · exact .inl hi
    · exact .inl (hf x hx)

/-- The operations that do nothing but wait in the buffer until they are released. -/
def EntOp.waits : EntOp → Bool
  | .shadow _ _ => false
  | .cmd m => m.op != .cpyw
  | _ => true

theorem State.scbEnter_waits (s : State) (g : Nat) (e : Entry) (h : e.op.waits = true) :
    s.scbEnter g e = s.setCtx g { s.ctx g with
      scb := (s.ctx g).scb ++ [{ e with
        iv := (s.ctx g).openId, gran := (s.ctx g).granOf { e with iv := (s.ctx g).openId } }] } := by
  obtain ⟨op, iv, gran, bundle, pc, slot, block, path, va⟩ := e
  cases op <;> simp only [EntOp.waits, Bool.false_eq_true] at h <;> try rfl
  rename_i m
  simp only [State.scbEnter]
  split
  · rename_i hm
    simp [hm] at h
  · rfl

theorem orderEntries_one (x : Nat × Entry × List Word) : orderEntries [x] = [x] := by
  cases h : x.2.1.op.returns <;> cases h' : x.2.1.op.fences <;>
    simp [orderEntries, insertSlot, List.filter_cons, List.find?_cons, h, h']

theorem Ctx.openId_eq (c : Ctx) : (c.ivs.getLast?.map (·.id)).getD 0 = c.openId := by
  simp only [Ctx.openId]
  cases c.ivs.getLast? <;> rfl

/-- A bundle of one entry for which there is room takes effect. -/
theorem State.finish_enter (s : State) (slot : Nat) (op : EntOp) (gran : Nat) (block : Option Nat) (path : Nat)
    (folds : List Word) (h : s.iss.acts = [(slot, .enter op gran block path folds)]) (e : Entry)
    (he : e = ⟨op, 0, gran, s.me.bseq, s.iss.pc, slot, block, path, folds.headD 0⟩)
    (hr : s.scbRoom s.cur ((s.ctx s.cur).granOf { e with iv := s.me.openId }) = true) :
    s.finish = s.issueAll [e] [] folds := by
  simp only [State.finish, Issue.pickActs, h, List.filterMap_cons, List.filterMap_nil, bestTrap, List.findSome?_nil,
    State.startX, List.append_nil, orderEntries_one, ← he, List.map_cons, List.map_nil]
  have hf : s.findRoom s.cur [e] = .fits [e] [] := by
    simp only [State.findRoom, State.scbFill, Ctx.openId_eq]
    rw [show (s.ctx s.cur).openId = s.me.openId from rfl, hr]
    simp
  rw [hf]
  simp

/-- A slot that asks for a trap. -/
theorem State.retire_trap (s : State) (t : TrapReq) (h : s.alone) : s.retire [.trap t] = s.trapped t := by
  rw [State.retire_last _ _ h.rest]
  simp only [h.acts, List.nil_append, List.map_cons, List.map_nil, State.finish, Issue.pickActs, List.filterMap_cons,
    List.filterMap_nil, bestTrap, List.foldl_nil]
  rfl

/-- A slot that cannot issue. -/
theorem State.retire_stall (s : State) (w : StallOn) (h : s.alone) : s.retire [.stall w] = s.stalled w := by
  rw [State.retire_last _ _ h.rest]
  simp only [h.acts, List.nil_append, List.map_cons, List.map_nil, State.finish, Issue.pickActs, List.filterMap_cons,
    List.filterMap_nil]
  rfl

/-- A slot that puts one entry into the buffer where there is room. -/
theorem State.retire_enter (s : State) (op : EntOp) (gran : Nat) (block : Option Nat) (path : Nat) (folds : List Word)
    (h : s.alone) (hw : op.waits = true) (hr : s.scbRoom s.cur (s.entry op gran block path folds).gran = true) :
    s.retire [.enter op gran block path folds] = s.entered op gran block path folds := by
  have hrun := s.alone_run h
  rw [State.retire_last _ _ h.rest]
  simp only [h.acts, List.nil_append, List.map_cons, List.map_nil]
  let s1 : State := { s with iss := { s.iss with acts := [(s.iss.slot, .enter op gran block path folds)] } }
  show s1.finish = _
  refine (State.finish_enter s1 s.iss.slot op gran block path folds rfl _ rfl hr).trans ?_
  let c1 := s.me.begun s.iss.pc s.fallThrough
  let c2 := c1.foldLo folds
  have hc2 : c2 = { c1 with siglo := if 1 ≤ c1.pcls then sigFolds c1.siglo folds else c1.siglo } := by
    simp only [c2, Ctx.foldLo]
    split <;> rfl
  let k : State := { s with iss := Issue.idle }
  have hen : ([(⟨op, 0, gran, s.me.bseq, s.iss.pc, s.iss.slot, block, path, folds.headD 0⟩ : Entry)]).foldl
      (fun x e => x.scbEnter s.cur e) ((k.setCtx s.cur c1).setCtx s.cur (((k.setCtx s.cur c1).ctx s.cur).foldLo folds)) =
      k.setCtx s.cur { c2 with scb := c2.scb ++ [s.entry op gran block path folds] } := by
    rw [State.ctx_setCtx_same, State.setCtx_setCtx, List.foldl_cons, List.foldl_nil, State.scbEnter_waits _ _ _ hw,
      State.ctx_setCtx_same, State.setCtx_setCtx]
    have h0 : c2.openId = s.me.openId := by rw [hc2]; rfl
    have h00 : ∀ e, c2.granOf e = s.me.granOf e := by intro e; rw [hc2]; rfl
    show k.setCtx s.cur { c2 with scb := c2.scb ++ [_] } = _
    rw [h0, h00]
    rfl
  let c3 : Ctx := { s.me.passed s.iss.pc s.fallThrough with
    scb := c1.scb ++ [s.entry op gran block path folds]
    siglo := if 1 ≤ c1.pcls then sigFolds c1.siglo folds else c1.siglo }
  have hst : ({ c2 with scb := c2.scb ++ [s.entry op gran block path folds] } : Ctx).stepped = c3 := by
    rw [hc2]
    rfl
  have hx : k.setCtx s.cur c3 = s.entered op gran block path folds := rfl
  rw [← hx]
  refine State.issueAll_calm s1 (k.setCtx s.cur c1) k _ folds _ c3 ?_ (Nat.le_refl _) rfl hen ?_ h.mx h.chains hrun h.due' rfl
  · intro e he
    rw [List.mem_singleton.1 he]
    rfl
  · rw [hst]
    refine k.landExposed_stay s.cur c3 h.mx ?_
    intro f hf
    have : f ∈ s.me.fl := hf
    rw [h.fl] at this
    exact nomatch this

/-- An act that is work for the end of a bundle, or makes it a checkpoint bundle. -/
def Act.slow : Act → Bool
  | .tail _ => true
  | .ckpt _ => true
  | .drainOn => true
  | _ => false

/-- The work among acts. -/
def tailsOf (as : List Act) : List Tail := as.filterMap fun a => match a with | .tail t => some t | _ => none

/-- The checkpoint kind that acts make. -/
def kindOf (as : List Act) : Option Bool :=
  match as.filterMap fun a => match a with | .ckpt r => some r | _ => none with
  | [] => none
  | l => some (l.any fun b => b)

/-- Whether a DRAIN takes effect among acts: a CKPT with a true guard stands there (07 R142). -/
def drainsIn (as : List Act) : Bool := as.any fun a => match a with | .drainOn => true | _ => false

/-- The work among acts that takes effect. -/
def workOf (as : List Act) : List Tail :=
  (tailsOf as).filter fun t => drainsIn as || !(match t with | .drain .. => true | _ => false)

theorem State.applyAct_slow (s : State) (slot : Nat) (a : Act) (h : a.slow = true) : s.applyAct slot a = s := by
  cases a <;> first | rfl | exact nomatch h

theorem State.applyActs_slow (s : State) (slot : Nat) (as : List Act) (h : ∀ a ∈ as, a.slow = true) :
    s.applyActs (as.map fun a => (slot, a)) = s := by
  induction as with
  | nil => rfl
  | cons a r ih =>
    rw [List.map_cons, State.applyActs_cons, State.applyAct_slow _ _ _ (h a (List.mem_cons_self ..))]
    exact ih fun e he => h e (List.mem_cons_of_mem _ he)

/-- A slot of quiet acts whose results stay in flight: `k` and `c` are the state and the context that its acts make. -/
theorem State.retire_quiet (s k : State) (c : Ctx) (as : List Act) (h : s.alone) (q : ∀ a ∈ as, a.quiet = true)
    (ht : State.applyActs (({ s with iss := Issue.idle } : State).setCtx s.cur (s.me.begun s.iss.pc s.fallThrough))
      (as.map fun a => (s.iss.slot, a)) = k.setCtx s.cur c)
    (hf : ∀ f ∈ c.fl, f.ilk = true ∨ c.bseq + 1 < f.land) (hm : c.mx = []) (hc : ∀ ch ∈ c.chains, ch.closed = false)
    (hd : c.due' = []) (hr : c.runLimit / 8 < c.run - 1) : s.retire as = k.setCtx s.cur c.stepped := by
  rw [State.retire_last _ _ h.rest]
  simp only [h.acts, List.nil_append]
  have q' : ∀ e ∈ (as.map fun a => (s.iss.slot, a)), e.2.quiet = true := by
    intro e he
    obtain ⟨a, ha, rfl⟩ := List.mem_map.1 he
    exact q a ha
  rw [State.finish_quiet _ q']
  exact State.issueAll_stay { s with iss := { s.iss with acts := as.map fun a => (s.iss.slot, a) } } k c q' ht hf hm hc hd hr

/-- A slot of quiet acts and a trap, which drops them. -/
theorem State.retire_stop (s : State) (as : List Act) (t : TrapReq) (h : s.alone)
    (q : ∀ a ∈ as, a.quiet = true ∧ ∀ pa, a ≠ .log pa) : s.retire (as ++ [.trap t]) = s.trapped t := by
  rw [State.retire_last _ _ h.rest]
  simp only [h.acts, List.nil_append, List.map_append, List.map_cons, List.map_nil]
  let s1 : State :=
    { s with iss := { s.iss with acts := (as.map fun a => (s.iss.slot, a)) ++ [(s.iss.slot, .trap t)] } }
  have p : ∀ {α : Type} (f : Nat → Act → Option α), (∀ n a, a.quiet = true → (∀ pa, a ≠ .log pa) → f n a = none) →
      s1.iss.pickActs f = (f s.iss.slot (.trap t)).toList := by
    intro α f hf
    have e : (as.map fun a => (s.iss.slot, a)).filterMap (fun e => f e.1 e.2) = [] := by
      rw [List.filterMap_eq_nil_iff]
      intro e he
      obtain ⟨a, ha, rfl⟩ := List.mem_map.1 he
      exact hf _ _ (q a ha).1 (q a ha).2
    simp only [Issue.pickActs, s1, List.filterMap_append, e, List.nil_append, List.filterMap_cons, List.filterMap_nil]
    cases f s.iss.slot (.trap t) <;> rfl
  show s1.finish = _
  simp only [State.finish]
  rw [p]
  · simp only [Option.toList]
    rw [p]
    · simp only [Option.toList, bestTrap]
      rw [p]
      · rw [p]
        · rw [p]
          · rfl
          · intro n a ha _; cases a <;> first | rfl | exact nomatch ha
        · intro n a ha _; cases a <;> first | rfl | exact nomatch ha
      · intro n a ha hl; cases a <;> first | rfl | exact absurd rfl (hl _)
    · intro n a ha _; cases a <;> first | rfl | exact nomatch ha
  · intro n a ha _; cases a <;> first | rfl | exact nomatch ha

/-- The words that acts fold, and the entries that they make, in the order of their slot. -/
def State.madeBy (s : State) (as : List Act) : List (Entry × List Word) :=
  as.filterMap fun a => match a with
    | .enter op gran block path folds =>
      some (⟨op, 0, gran, s.me.bseq, s.iss.pc, s.iss.slot, block, path, folds.headD 0⟩, folds)
    | _ => none

/-- How a bundle of one slot ends that asks for quiet acts, for entries and for work at its end: `k` and `c` are the
state and the context that its acts and its entries make. -/
theorem State.retire_gen (s k : State) (c : Ctx) (as : List Act) (h : s.alone)
    (q : ∀ a ∈ as, a.calm = true ∨ a.slow = true) (hn : (s.madeBy as).length ≤ 1)
    (hord : orderEntries ((s.madeBy as).map fun e => (s.iss.slot, e)) = (s.madeBy as).map fun e => (s.iss.slot, e))
    (hroom : ({ s with iss := { s.iss with acts := as.map fun a => (s.iss.slot, a) } } : State).findRoom s.cur
      ((s.madeBy as).map (·.1)) = .fits ((s.madeBy as).map (·.1)) [])
    (t : State) (ht : State.applyActs (({ s with iss := Issue.idle } : State).setCtx s.cur (s.me.begun s.iss.pc s.fallThrough))
      (as.map fun a => (s.iss.slot, a)) = t)
    (he : ((s.madeBy as).map (·.1)).foldl (fun x e => x.scbEnter s.cur e)
      (t.setCtx s.cur ((t.ctx s.cur).foldLo ((s.madeBy as).flatMap (·.2)))) = k.setCtx s.cur c)
    (hp : ((kindOf as).isSome && (c.pendWhole || (k.setCtx s.cur c).twinSaving s.cur)) = false)
    (hf : ∀ f ∈ c.fl, f.ilk = true ∨ c.bseq + 1 < f.land) (hm : c.mx = []) (hc : ∀ ch ∈ c.chains, ch.closed = false)
    (hd : c.due' = []) (hu : c.due = false) (h1 : 1 < c.run) (hr : c.runLimit / 8 < c.run - 1) :
    s.retire as = (k.setCtx s.cur (c.ended (tailOrder s.iss.pc (kindOf as) [] (workOf as) false))).settle s.cur := by
  rw [State.retire_last _ _ h.rest]
  simp only [h.acts, List.nil_append]
  let s0 : State := { s with iss := { s.iss with acts := as.map fun a => (s.iss.slot, a) } }
  have p : ∀ {α : Type} (f : Nat → Act → Option α), (∀ n a, a.calm = true ∨ a.slow = true → f n a = none) →
      s0.iss.pickActs f = [] := by
    intro α f hf
    simp only [Issue.pickActs]
    rw [List.filterMap_eq_nil_iff]
    intro e he
    obtain ⟨a, ha, rfl⟩ := List.mem_map.1 he
    exact hf _ _ (q a ha)
  have pm : s0.iss.pickActs (fun sl a => match a with
      | .enter op gran block path folds =>
        some (sl, (⟨op, 0, gran, s.me.bseq, s.iss.pc, sl, block, path, folds.headD 0⟩ : Entry), folds)
      | _ => none) = (s.madeBy as).map fun e => (s.iss.slot, e) := by
    simp only [Issue.pickActs, s0, List.filterMap_map, State.madeBy, List.map_filterMap]
    congr 1
    funext a
    cases a <;> rfl
  show s0.finish = _
  have hfin : s0.finish = s0.issueAll ((s.madeBy as).map (·.1)) [] ((s.madeBy as).flatMap (·.2)) := by
    unfold State.finish
    extract_lets i g logged xs made
    have hx : xs = [] := by
      refine p (fun sl a => match a with | .mx r => if r.stores then some (sl, r) else none | _ => none) ?_
      intro n a ha; rcases ha with ha | ha <;> cases a <;> first | rfl | exact nomatch ha
    have hm : made = (s.madeBy as).map fun e => (s.iss.slot, e) := pm
    clear_value xs made
    subst hx hm
    rw [p]
    · dsimp -zeta only
      rw [p]
      · have ex : s0.startX i.pc [] = (s0, []) := rfl
        have e1 : (fun x : Nat × Entry × List Word => x.2.1) ∘ (fun e : Entry × List Word => (s.iss.slot, e)) = fun e => e.1 := rfl
        simp only [bestTrap, ex, List.append_nil, hord, List.map_map, e1]
        have hroom' : s0.findRoom g ((s.madeBy as).map fun e => e.1) = .fits ((s.madeBy as).map fun e => e.1) [] := hroom
        rw [hroom']
        simp only [List.any_nil, Bool.false_and, Bool.false_eq_true, if_false, List.append_nil, List.flatMap_map]
      · intro n a ha; rcases ha with ha | ha <;> cases a <;> first | rfl | exact nomatch ha
    · intro n a ha; rcases ha with ha | ha <;> cases a <;> first | rfl | exact nomatch ha
  have hk : s0.iss.ckptKind = kindOf as := by
    simp only [Issue.ckptKind, kindOf, Issue.pickActs, s0, List.filterMap_map]
    rfl
  have hdr : s0.iss.drainOn = drainsIn as := by
    simp only [Issue.drainOn, drainsIn, s0, List.any_map]
    rfl
  obtain ⟨f1, f2⟩ := filter_mx s0.iss.acts (by
    intro e he
    obtain ⟨a, ha, rfl⟩ := List.mem_map.1 he
    rcases q a ha with ha | ha <;> cases a <;> first | rfl | exact nomatch ha)
  rw [hfin]
  unfold State.issueAll
  extract_lets i g c0 kind0 s1 s2 s3 old s4 s5 c5 isDrain ts0 pend kind1 todo
  have e2 : s2 = t := by
    show s1.applyActs (s0.iss.acts.filter fun e => !e.2.isMx) = t
    rw [f1]
    exact ht
  have hk0 : keepEntries old [] = [] := by simp [keepEntries]
  have e5 : s5 = k.setCtx s.cur c := by
    show (s4.awaiting s.cur (keepEntries old [])).applyActs (s0.iss.acts.filter fun e => e.2.isMx) = _
    rw [f2, hk0]
    show (keepEntries old ((s.madeBy as).map (·.1))).foldl (fun x e => x.scbEnter s.cur e) s3 = _
    rw [show keepEntries old ((s.madeBy as).map (·.1)) = (s.madeBy as).map (·.1) by
      rw [show old = s3.tstOld s.cur ((s.madeBy as).map (·.1)) from congrArg (s3.tstOld s.cur) (List.append_nil _)]
      exact keepEntries_one s3 s.cur _ (by simpa using hn)]
    show ((s.madeBy as).map (·.1)).foldl (fun x e => x.scbEnter s.cur e) (s2.setCtx s.cur ((s2.ctx s.cur).foldLo ((s.madeBy as).flatMap (·.2)))) = _
    rw [e2]
    exact he
  have ec : c5 = c := by
    show s5.ctx s.cur = _
    rw [e5, State.ctx_setCtx_same]
  have ek : kind0 = kindOf as := by
    show (match s0.iss.ckptKind with | some r => some r | none => if ([] : List Entry) = [] then none else some false) = kindOf as
    rw [hk]
    cases kindOf as <;> rfl
  have ets : ts0 = workOf as := by
    show (s0.iss.pickActs _).filter _ = workOf as
    simp only [workOf, ← hdr]
    simp only [Issue.pickActs, s0, List.filterMap_map, tailsOf]
    rfl
  have ep : pend = false := by
    show (kind0.isSome && s5.saveHere s.cur && _) = false
    have hs : (kind0.isSome && s5.saveHere s.cur) = false := by
      rw [State.saveHere, show s5.ctx s.cur = c5 from rfl, ← Bool.and_assoc, ek, ec, e5, hp, Bool.false_and]
    rw [hs, Bool.false_and]
  have ek1 : kind1 = kindOf as := by
    show (if pend = true then some true else kind0) = kindOf as
    rw [ep, ek]
    rfl
  have hdue : (c.due || decide (c.run ≤ 1)) = false := by
    rw [hu]
    simp only [Bool.false_or, decide_eq_false_iff_not]
    omega
  have et : todo = tailOrder s.iss.pc (kindOf as) [] (workOf as) false := by
    show tailOrder s.iss.pc kind1 (keepEntries old []) (ts0 ++ if pend = true then [Tail.save none] else []) (c5.due || decide (c5.run ≤ 1)) = _
    rw [hk0, ek1, ets, ep, ec, hdue]
    simp
  rw [et, ec, e5]
  show ((k.setCtx s.cur c).setCtx s.cur (c.ended _)).bundleEnds s.cur _ _ = _
  rw [State.setCtx_setCtx]
  exact State.bundleEnds_lands _ k s.cur _ _ _ (k.landExposed_stay s.cur _ hm hf) hm hc hr hd

/-- A save neither due nor under way is none at the end of a bundle. -/
theorem State.noSave_begun (s : State) (kind : Option Bool) (hp : kind.isSome = true → s.noSave) (c : Ctx)
    (h1 : c.pendWhole = s.me.pendWhole) (h2 : c.twin = s.me.twin) :
    (kind.isSome && (c.pendWhole || (({ s with iss := Issue.idle } : State).setCtx s.cur c).twinSaving s.cur)) = false := by
  cases hs : kind.isSome with
  | false => rfl
  | true =>
    obtain ⟨x, y, z⟩ := hp hs
    have e : (({ s with iss := Issue.idle } : State).setCtx s.cur c).twinSaving s.cur = false := by
      simp only [State.twinSaving, State.ctx_setCtx_same] at z ⊢
      rw [h2]
      cases hw : s.me.twin with
      | none => rfl
      | some t =>
        have hne : t ≠ s.cur := by
          intro e
          rw [hw, e] at y
          exact y rfl
        show ((({ s with iss := Issue.idle } : State).setCtx s.cur c).ctx t).savingNow = false
        rw [State.ctx_setCtx_ne _ _ hne]
        have : (s.ctx s.cur).twin = some t := hw
        rw [this] at z
        exact z
    rw [e, h1, x]
    rfl

/-- A slot that leaves work for the end of its bundle, or makes it a checkpoint bundle. -/
theorem State.retire_tails (s : State) (as : List Act) (h : s.alone) (hs : ∀ a ∈ as, a.slow = true)
    (hp : (kindOf as).isSome = true → s.noSave) :
    s.retire as = s.endsWith (tailOrder s.iss.pc (kindOf as) [] (workOf as) false) := by
  have hm : s.madeBy as = [] := by
    simp only [State.madeBy]
    rw [List.filterMap_eq_nil_iff]
    intro a ha
    have := hs a ha
    cases a <;> first | rfl | exact nomatch this
  have hrun := h.run
  let k : State := { s with iss := Issue.idle }
  refine (State.retire_gen s k (s.me.begun s.iss.pc s.fallThrough) as h (fun a ha => .inr (hs a ha))
    (by rw [hm]; exact Nat.zero_le _) ?_ ?_ _
    (State.applyActs_slow _ s.iss.slot as hs) ?_ ?_ ?_ h.mx h.chains h.due' h.due ?_ ?_).trans rfl
  · rw [hm]
    rfl
  · rw [hm]
    rfl
  · rw [hm]
    simp only [List.map_nil, List.flatMap_nil, List.foldl_nil, State.ctx_setCtx_same, Ctx.foldLo_nil, State.setCtx_setCtx]
    rfl
  · exact s.noSave_begun _ hp _ rfl rfl
  · intro f hf
    have : f ∈ s.me.fl := hf
    rw [h.fl] at this
    exact nomatch this
  · show 1 < s.me.run
    omega
  · show s.me.runLimit / 8 < s.me.run - 1
    omega

/-- A slot that puts one entry into the buffer where there is room, and leaves work for the end of its bundle. -/
theorem State.retire_enter_ends (s : State) (op : EntOp) (gran : Nat) (block : Option Nat) (path : Nat)
    (folds : List Word) (pre : List Act) (h : s.alone) (hw : op.waits = true)
    (hr : s.roomFor op gran block path folds) (hs : ∀ a ∈ pre, a.slow = true)
    (hp : (kindOf pre).isSome = true → s.noSave) :
    s.retire (pre ++ [.enter op gran block path folds]) =
      s.enteredEnds op gran block path folds (tailOrder s.iss.pc (kindOf pre) [] (workOf pre) false) := by
  have hm : s.madeBy (pre ++ [.enter op gran block path folds]) =
      [(⟨op, 0, gran, s.me.bseq, s.iss.pc, s.iss.slot, block, path, folds.headD 0⟩, folds)] := by
    have : s.madeBy pre = [] := by
      simp only [State.madeBy]
      rw [List.filterMap_eq_nil_iff]
      intro a ha
      have := hs a ha
      cases a <;> first | rfl | exact nomatch this
    simp only [State.madeBy, List.filterMap_append, List.filterMap_cons, List.filterMap_nil] at this ⊢
    rw [this]
    rfl
  have hk : kindOf (pre ++ [.enter op gran block path folds]) = kindOf pre := by
    simp only [kindOf, List.filterMap_append, List.filterMap_cons, List.filterMap_nil, List.append_nil]
  have hrun := h.run
  let k : State := { s with iss := Issue.idle }
  let c1 := s.me.begun s.iss.pc s.fallThrough
  let c2 := c1.foldLo folds
  have hc2 : c2 = { c1 with siglo := if 1 ≤ c1.pcls then sigFolds c1.siglo folds else c1.siglo } := by
    simp only [c2, Ctx.foldLo]
    split <;> rfl
  have hf : (k.setCtx s.cur c1).applyActs ((pre ++ [Act.enter op gran block path folds]).map fun a => (s.iss.slot, a)) =
      k.setCtx s.cur c1 := by
    rw [List.map_append, State.applyActs_append, State.applyActs_slow _ _ _ hs]
    rfl
  have hwk : workOf (pre ++ [.enter op gran block path folds]) = workOf pre := by
    simp only [workOf, tailsOf, drainsIn, List.filterMap_append, List.filterMap_cons, List.filterMap_nil, List.append_nil,
      List.any_append, List.any_cons, List.any_nil, Bool.or_false]
  have hen : ([(⟨op, 0, gran, s.me.bseq, s.iss.pc, s.iss.slot, block, path, folds.headD 0⟩ : Entry)]).foldl
      (fun x e => x.scbEnter s.cur e) ((k.setCtx s.cur c1).setCtx s.cur (((k.setCtx s.cur c1).ctx s.cur).foldLo folds)) =
      k.setCtx s.cur { c2 with scb := c2.scb ++ [s.entry op gran block path folds] } := by
    rw [State.ctx_setCtx_same, State.setCtx_setCtx, List.foldl_cons, List.foldl_nil, State.scbEnter_waits _ _ _ hw,
      State.ctx_setCtx_same, State.setCtx_setCtx]
    have h0 : c2.openId = s.me.openId := by rw [hc2]; rfl
    have h00 : ∀ e, c2.granOf e = s.me.granOf e := by intro e; rw [hc2]; rfl
    show k.setCtx s.cur { c2 with scb := c2.scb ++ [_] } = _
    rw [h0, h00]
    rfl
  have hfin := State.retire_gen s k { c2 with scb := c2.scb ++ [s.entry op gran block path folds] }
    (pre ++ [.enter op gran block path folds]) h (by
      intro a ha
      rcases List.mem_append.1 ha with ha | ha
      · exact .inr (hs a ha)
      · rw [List.mem_singleton.1 ha]
        exact .inl rfl) (by rw [hm]; exact Nat.le_refl _) ?_ ?_ _ hf ?_ ?_ ?_ ?_ ?_ ?_ ?_ ?_ ?_
  · refine hfin.trans ?_
    rw [hk, hwk, hc2]
    rfl
  · rw [hm]
    exact orderEntries_one _
  · rw [hm]
    simp only [List.map_cons, List.map_nil, State.findRoom, State.scbFill, Ctx.openId_eq]
    have hr' : s.scbRoom s.cur (s.entry op gran block path folds).gran = true := hr
    exact if_pos hr' ▸ rfl
  · rw [hm]
    simpa only [List.map_cons, List.map_nil, List.flatMap_cons, List.flatMap_nil, List.append_nil] using hen
  · rw [hk]
    exact s.noSave_begun _ hp _ (by rw [hc2]; rfl) (by rw [hc2]; rfl)
  · intro f hf
    have : f ∈ s.me.fl := by
      rw [hc2] at hf
      exact hf
    rw [h.fl] at this
    exact nomatch this
  · rw [hc2]; exact h.mx
  · rw [hc2]; exact h.chains
  · rw [hc2]; exact h.due'
  · rw [hc2]; exact h.due
  · rw [hc2]; show 1 < s.me.run; omega
  · rw [hc2]; show s.me.runLimit / 8 < s.me.run - 1; omega

end Sys2Proof.Machine
end

