-- ==== Sys2Proof/Laws/Exec.lean ====
section
/-! SUPPORT. The meaning that each instruction runs, one lemma for each arm of `exec`. -/

namespace Sys2Proof.Machine

@[simp] theorem exec_nopC (s : State) : exec (.nopC) s = execNopC s := rfl
@[simp] theorem exec_nopS (s : State) : exec (.nopS) s = execNopS s := rfl
@[simp] theorem exec_nopM (s : State) : exec (.nopM) s = execNopM s := rfl
@[simp] theorem exec_nopV (s : State) : exec (.nopV) s = execNopV s := rfl
@[simp] theorem exec_nopX (s : State) : exec (.nopX) s = execNopX s := rfl
@[simp] theorem exec_nopQ (s : State) : exec (.nopQ) s = execNopQ s := rfl
@[simp] theorem exec_nopG (s : State) : exec (.nopG) s = execNopG s := rfl
@[simp] theorem exec_br (h : Head) (i : BitVec 17) (ks : List (BitVec 28)) (s : State) : exec (.br h i ks) s = execBr h i ks s := rfl
@[simp] theorem exec_bri (h : Head) (a : BitVec 5) (i : BitVec 7) (s : State) : exec (.bri h a i) s = execBri h a i s := rfl
@[simp] theorem exec_call (h : Head) (i : BitVec 17) (ks : List (BitVec 28)) (s : State) : exec (.call h i ks) s = execCall h i ks s := rfl
@[simp] theorem exec_calli (h : Head) (a : BitVec 5) (i : BitVec 7) (s : State) : exec (.calli h a i) s = execCalli h a i s := rfl
@[simp] theorem exec_ret (h : Head) (s : State) : exec (.ret h) s = execRet h s := rfl
@[simp] theorem exec_loopi (h : Head) (d : BitVec 5) (a : BitVec 5) (i : BitVec 7) (s : State) : exec (.loopi h d a i) s = execLoopi h d a i s := rfl
@[simp] theorem exec_loopb (h : Head) (d : BitVec 5) (i : BitVec 7) (ks : List (BitVec 28)) (s : State) : exec (.loopb h d i ks) s = execLoopb h d i ks s := rfl
@[simp] theorem exec_yield (h : Head) (s : State) : exec (.yield h) s = execYield h s := rfl
@[simp] theorem exec_waitf (h : Head) (l : BitVec 1) (k : BitVec 16) (s : State) : exec (.waitf h l k) s = execWaitf h l k s := rfl
@[simp] theorem exec_tend (h : Head) (s : State) : exec (.tend h) s = execTend h s := rfl
@[simp] theorem exec_trap (h : Head) (i : BitVec 12) (s : State) : exec (.trap h i) s = execTrap h i s := rfl
@[simp] theorem exec_add (h : Head) (d : BitVec 5) (a : BitVec 5) (b : BitVec 5) (s : State) : exec (.add h d a b) s = execAdd h d a b s := rfl
@[simp] theorem exec_sub (h : Head) (d : BitVec 5) (a : BitVec 5) (b : BitVec 5) (s : State) : exec (.sub h d a b) s = execSub h d a b s := rfl
@[simp] theorem exec_addi (h : Head) (d : BitVec 5) (a : BitVec 5) (i : BitVec 7) (ks : List (BitVec 28)) (s : State) : exec (.addi h d a i ks) s = execAddi h d a i ks s := rfl
@[simp] theorem exec_mul (h : Head) (d : BitVec 5) (a : BitVec 5) (b : BitVec 5) (s : State) : exec (.mul h d a b) s = execMul h d a b s := rfl
@[simp] theorem exec_mulh (h : Head) (d : BitVec 5) (a : BitVec 5) (b : BitVec 5) (s : State) : exec (.mulh h d a b) s = execMulh h d a b s := rfl
@[simp] theorem exec_mulhn (h : Head) (d : BitVec 5) (a : BitVec 5) (b : BitVec 5) (s : State) : exec (.mulhn h d a b) s = execMulhn h d a b s := rfl
@[simp] theorem exec_div (h : Head) (d : BitVec 5) (a : BitVec 5) (b : BitVec 5) (s : State) : exec (.div h d a b) s = execDiv h d a b s := rfl
@[simp] theorem exec_divn (h : Head) (d : BitVec 5) (a : BitVec 5) (b : BitVec 5) (s : State) : exec (.divn h d a b) s = execDivn h d a b s := rfl
@[simp] theorem exec_rem (h : Head) (d : BitVec 5) (a : BitVec 5) (b : BitVec 5) (s : State) : exec (.rem h d a b) s = execRem h d a b s := rfl
@[simp] theorem exec_remn (h : Head) (d : BitVec 5) (a : BitVec 5) (b : BitVec 5) (s : State) : exec (.remn h d a b) s = execRemn h d a b s := rfl
@[simp] theorem exec_and (h : Head) (d : BitVec 5) (a : BitVec 5) (b : BitVec 5) (s : State) : exec (.and h d a b) s = execAnd h d a b s := rfl
@[simp] theorem exec_or (h : Head) (d : BitVec 5) (a : BitVec 5) (b : BitVec 5) (s : State) : exec (.or h d a b) s = execOr h d a b s := rfl
@[simp] theorem exec_xor (h : Head) (d : BitVec 5) (a : BitVec 5) (b : BitVec 5) (s : State) : exec (.xor h d a b) s = execXor h d a b s := rfl
@[simp] theorem exec_andn (h : Head) (d : BitVec 5) (a : BitVec 5) (b : BitVec 5) (s : State) : exec (.andn h d a b) s = execAndn h d a b s := rfl
@[simp] theorem exec_andi (h : Head) (d : BitVec 5) (a : BitVec 5) (i : BitVec 7) (ks : List (BitVec 28)) (s : State) : exec (.andi h d a i ks) s = execAndi h d a i ks s := rfl
@[simp] theorem exec_ori (h : Head) (d : BitVec 5) (a : BitVec 5) (i : BitVec 7) (ks : List (BitVec 28)) (s : State) : exec (.ori h d a i ks) s = execOri h d a i ks s := rfl
@[simp] theorem exec_xori (h : Head) (d : BitVec 5) (a : BitVec 5) (i : BitVec 7) (ks : List (BitVec 28)) (s : State) : exec (.xori h d a i ks) s = execXori h d a i ks s := rfl
@[simp] theorem exec_shl (h : Head) (d : BitVec 5) (a : BitVec 5) (b : BitVec 5) (s : State) : exec (.shl h d a b) s = execShl h d a b s := rfl
@[simp] theorem exec_shr (h : Head) (d : BitVec 5) (a : BitVec 5) (b : BitVec 5) (s : State) : exec (.shr h d a b) s = execShr h d a b s := rfl
@[simp] theorem exec_sra (h : Head) (d : BitVec 5) (a : BitVec 5) (b : BitVec 5) (s : State) : exec (.sra h d a b) s = execSra h d a b s := rfl
@[simp] theorem exec_shli (h : Head) (d : BitVec 5) (a : BitVec 5) (i : BitVec 7) (s : State) : exec (.shli h d a i) s = execShli h d a i s := rfl
@[simp] theorem exec_shri (h : Head) (d : BitVec 5) (a : BitVec 5) (i : BitVec 7) (s : State) : exec (.shri h d a i) s = execShri h d a i s := rfl
@[simp] theorem exec_srai (h : Head) (d : BitVec 5) (a : BitVec 5) (i : BitVec 7) (s : State) : exec (.srai h d a i) s = execSrai h d a i s := rfl
@[simp] theorem exec_rotl (h : Head) (d : BitVec 5) (a : BitVec 5) (b : BitVec 5) (s : State) : exec (.rotl h d a b) s = execRotl h d a b s := rfl
@[simp] theorem exec_clz (h : Head) (d : BitVec 5) (a : BitVec 5) (s : State) : exec (.clz h d a) s = execClz h d a s := rfl
@[simp] theorem exec_ctz (h : Head) (d : BitVec 5) (a : BitVec 5) (s : State) : exec (.ctz h d a) s = execCtz h d a s := rfl
@[simp] theorem exec_popc (h : Head) (d : BitVec 5) (a : BitVec 5) (s : State) : exec (.popc h d a) s = execPopc h d a s := rfl
@[simp] theorem exec_min (h : Head) (d : BitVec 5) (a : BitVec 5) (b : BitVec 5) (s : State) : exec (.min h d a b) s = execMin h d a b s := rfl
@[simp] theorem exec_max (h : Head) (d : BitVec 5) (a : BitVec 5) (b : BitVec 5) (s : State) : exec (.max h d a b) s = execMax h d a b s := rfl
@[simp] theorem exec_minn (h : Head) (d : BitVec 5) (a : BitVec 5) (b : BitVec 5) (s : State) : exec (.minn h d a b) s = execMinn h d a b s := rfl
@[simp] theorem exec_maxn (h : Head) (d : BitVec 5) (a : BitVec 5) (b : BitVec 5) (s : State) : exec (.maxn h d a b) s = execMaxn h d a b s := rfl
@[simp] theorem exec_sel (h : Head) (d : BitVec 5) (a : BitVec 5) (b : BitVec 5) (m : BitVec 2) (s : State) : exec (.sel h d a b m) s = execSel h d a b m s := rfl
@[simp] theorem exec_cmpeq (h : Head) (d : BitVec 5) (a : BitVec 5) (b : BitVec 5) (m : BitVec 2) (s : State) : exec (.cmpeq h d a b m) s = execCmpeq h d a b m s := rfl
@[simp] theorem exec_cmpne (h : Head) (d : BitVec 5) (a : BitVec 5) (b : BitVec 5) (m : BitVec 2) (s : State) : exec (.cmpne h d a b m) s = execCmpne h d a b m s := rfl
@[simp] theorem exec_cmplt (h : Head) (d : BitVec 5) (a : BitVec 5) (b : BitVec 5) (m : BitVec 2) (s : State) : exec (.cmplt h d a b m) s = execCmplt h d a b m s := rfl
@[simp] theorem exec_cmpltn (h : Head) (d : BitVec 5) (a : BitVec 5) (b : BitVec 5) (m : BitVec 2) (s : State) : exec (.cmpltn h d a b m) s = execCmpltn h d a b m s := rfl
@[simp] theorem exec_cmpge (h : Head) (d : BitVec 5) (a : BitVec 5) (b : BitVec 5) (m : BitVec 2) (s : State) : exec (.cmpge h d a b m) s = execCmpge h d a b m s := rfl
@[simp] theorem exec_cmpgen (h : Head) (d : BitVec 5) (a : BitVec 5) (b : BitVec 5) (m : BitVec 2) (s : State) : exec (.cmpgen h d a b m) s = execCmpgen h d a b m s := rfl
@[simp] theorem exec_cmpeqi (h : Head) (d : BitVec 5) (a : BitVec 5) (i : BitVec 7) (ks : List (BitVec 28)) (s : State) : exec (.cmpeqi h d a i ks) s = execCmpeqi h d a i ks s := rfl
@[simp] theorem exec_cmplti (h : Head) (d : BitVec 5) (a : BitVec 5) (i : BitVec 7) (ks : List (BitVec 28)) (s : State) : exec (.cmplti h d a i ks) s = execCmplti h d a i ks s := rfl
@[simp] theorem exec_movi (h : Head) (d : BitVec 5) (i : BitVec 12) (ks : List (BitVec 28)) (s : State) : exec (.movi h d i ks) s = execMovi h d i ks s := rfl
@[simp] theorem exec_movhi (h : Head) (d : BitVec 5) (i : BitVec 12) (ks : List (BitVec 28)) (s : State) : exec (.movhi h d i ks) s = execMovhi h d i ks s := rfl
@[simp] theorem exec_madd (h : Head) (d : BitVec 5) (a : BitVec 5) (b : BitVec 5) (s : State) : exec (.madd h d a b) s = execMadd h d a b s := rfl
@[simp] theorem exec_bfx (h : Head) (d : BitVec 5) (a : BitVec 5) (b : BitVec 5) (m : BitVec 2) (s : State) : exec (.bfx h d a b m) s = execBfx h d a b m s := rfl
@[simp] theorem exec_bfi (h : Head) (d : BitVec 5) (a : BitVec 5) (b : BitVec 5) (s : State) : exec (.bfi h d a b) s = execBfi h d a b s := rfl
@[simp] theorem exec_sext (h : Head) (d : BitVec 5) (a : BitVec 5) (i : BitVec 7) (s : State) : exec (.sext h d a i) s = execSext h d a i s := rfl
@[simp] theorem exec_zext (h : Head) (d : BitVec 5) (a : BitVec 5) (i : BitVec 7) (s : State) : exec (.zext h d a i) s = execZext h d a i s := rfl
@[simp] theorem exec_pand (h : Head) (d : BitVec 5) (a : BitVec 5) (b : BitVec 5) (s : State) : exec (.pand h d a b) s = execPand h d a b s := rfl
@[simp] theorem exec_por (h : Head) (d : BitVec 5) (a : BitVec 5) (b : BitVec 5) (s : State) : exec (.por h d a b) s = execPor h d a b s := rfl
@[simp] theorem exec_pxor (h : Head) (d : BitVec 5) (a : BitVec 5) (b : BitVec 5) (s : State) : exec (.pxor h d a b) s = execPxor h d a b s := rfl
@[simp] theorem exec_pandn (h : Head) (d : BitVec 5) (a : BitVec 5) (b : BitVec 5) (s : State) : exec (.pandn h d a b) s = execPandn h d a b s := rfl
@[simp] theorem exec_pmov (h : Head) (d : BitVec 5) (a : BitVec 5) (m : BitVec 2) (s : State) : exec (.pmov h d a m) s = execPmov h d a m s := rfl
@[simp] theorem exec_nset (h : Head) (d : BitVec 5) (a : BitVec 5) (i : BitVec 7) (s : State) : exec (.nset h d a i) s = execNset h d a i s := rfl
@[simp] theorem exec_nadv (h : Head) (d : BitVec 5) (a : BitVec 5) (i : BitVec 7) (s : State) : exec (.nadv h d a i) s = execNadv h d a i s := rfl
@[simp] theorem exec_nget (h : Head) (d : BitVec 5) (a : BitVec 5) (i : BitVec 7) (s : State) : exec (.nget h d a i) s = execNget h d a i s := rfl
@[simp] theorem exec_cntrd (h : Head) (d : BitVec 5) (i : BitVec 7) (s : State) : exec (.cntrd h d i) s = execCntrd h d i s := rfl
@[simp] theorem exec_movsSFromF (h : Head) (d : BitVec 5) (s : State) : exec (.movsSFromF h d) s = execMovsSFromF h d s := rfl
@[simp] theorem exec_movsFFromS (h : Head) (a : BitVec 5) (s : State) : exec (.movsFFromS h a) s = execMovsFFromS h a s := rfl
@[simp] theorem exec_movsSFromP (h : Head) (d : BitVec 5) (s : State) : exec (.movsSFromP h d) s = execMovsSFromP h d s := rfl
@[simp] theorem exec_movsPFromS (h : Head) (a : BitVec 5) (s : State) : exec (.movsPFromS h a) s = execMovsPFromS h a s := rfl
@[simp] theorem exec_movsSFromLLo (h : Head) (d : BitVec 5) (a : BitVec 5) (s : State) : exec (.movsSFromLLo h d a) s = execMovsSFromLLo h d a s := rfl
@[simp] theorem exec_movsSFromLHi (h : Head) (d : BitVec 5) (a : BitVec 5) (s : State) : exec (.movsSFromLHi h d a) s = execMovsSFromLHi h d a s := rfl
@[simp] theorem exec_movsLLoFromS (h : Head) (d : BitVec 5) (a : BitVec 5) (s : State) : exec (.movsLLoFromS h d a) s = execMovsLLoFromS h d a s := rfl
@[simp] theorem exec_movsLHiFromS (h : Head) (d : BitVec 5) (a : BitVec 5) (s : State) : exec (.movsLHiFromS h d a) s = execMovsLHiFromS h d a s := rfl
@[simp] theorem exec_ldb (h : Head) (d : BitVec 5) (a : BitVec 5) (i : BitVec 7) (ks : List (BitVec 28)) (s : State) : exec (.ldb h d a i ks) s = execLdb h d a i ks s := rfl
@[simp] theorem exec_ldh (h : Head) (d : BitVec 5) (a : BitVec 5) (i : BitVec 7) (ks : List (BitVec 28)) (s : State) : exec (.ldh h d a i ks) s = execLdh h d a i ks s := rfl
@[simp] theorem exec_ldw (h : Head) (d : BitVec 5) (a : BitVec 5) (i : BitVec 7) (ks : List (BitVec 28)) (s : State) : exec (.ldw h d a i ks) s = execLdw h d a i ks s := rfl
@[simp] theorem exec_ldd (h : Head) (d : BitVec 5) (a : BitVec 5) (i : BitVec 7) (ks : List (BitVec 28)) (s : State) : exec (.ldd h d a i ks) s = execLdd h d a i ks s := rfl
@[simp] theorem exec_stb (h : Head) (d : BitVec 5) (a : BitVec 5) (i : BitVec 7) (ks : List (BitVec 28)) (s : State) : exec (.stb h d a i ks) s = execStb h d a i ks s := rfl
@[simp] theorem exec_sth (h : Head) (d : BitVec 5) (a : BitVec 5) (i : BitVec 7) (ks : List (BitVec 28)) (s : State) : exec (.sth h d a i ks) s = execSth h d a i ks s := rfl
@[simp] theorem exec_stw (h : Head) (d : BitVec 5) (a : BitVec 5) (i : BitVec 7) (ks : List (BitVec 28)) (s : State) : exec (.stw h d a i ks) s = execStw h d a i ks s := rfl
@[simp] theorem exec_std (h : Head) (d : BitVec 5) (a : BitVec 5) (i : BitVec 7) (ks : List (BitVec 28)) (s : State) : exec (.std h d a i ks) s = execStd h d a i ks s := rfl
@[simp] theorem exec_ldv (h : Head) (d : BitVec 5) (a : BitVec 5) (i : BitVec 7) (md : Option (BitVec 28)) (s : State) : exec (.ldv h d a i md) s = execLdv h d a i md s := rfl
@[simp] theorem exec_stv (h : Head) (d : BitVec 5) (a : BitVec 5) (i : BitVec 7) (md : Option (BitVec 28)) (s : State) : exec (.stv h d a i md) s = execStv h d a i md s := rfl
@[simp] theorem exec_ldvs (h : Head) (d : BitVec 5) (a : BitVec 5) (b : BitVec 5) (m : BitVec 2) (md : Option (BitVec 28)) (s : State) : exec (.ldvs h d a b m md) s = execLdvs h d a b m md s := rfl
@[simp] theorem exec_stvs (h : Head) (d : BitVec 5) (a : BitVec 5) (b : BitVec 5) (m : BitVec 2) (md : Option (BitVec 28)) (s : State) : exec (.stvs h d a b m md) s = execStvs h d a b m md s := rfl
@[simp] theorem exec_ldvg (h : Head) (d : BitVec 5) (a : BitVec 5) (b : BitVec 5) (m : BitVec 2) (md : Option (BitVec 28)) (s : State) : exec (.ldvg h d a b m md) s = execLdvg h d a b m md s := rfl
@[simp] theorem exec_stvg (h : Head) (d : BitVec 5) (a : BitVec 5) (b : BitVec 5) (m : BitVec 2) (md : Option (BitVec 28)) (s : State) : exec (.stvg h d a b m md) s = execStvg h d a b m md s := rfl
@[simp] theorem exec_ldq (h : Head) (d : BitVec 5) (a : BitVec 5) (i : BitVec 7) (s : State) : exec (.ldq h d a i) s = execLdq h d a i s := rfl
@[simp] theorem exec_tld (h : Head) (d : BitVec 5) (a : BitVec 5) (md : Option (BitVec 28)) (s : State) : exec (.tld h d a md) s = execTld h d a md s := rfl
@[simp] theorem exec_tst (h : Head) (d : BitVec 5) (a : BitVec 5) (md : Option (BitVec 28)) (s : State) : exec (.tst h d a md) s = execTst h d a md s := rfl
@[simp] theorem exec_prefAddress (h : Head) (a : BitVec 5) (i : BitVec 7) (ks : List (BitVec 28)) (s : State) : exec (.prefAddress h a i ks) s = execPrefAddress h a i ks s := rfl
@[simp] theorem exec_prefHandle (h : Head) (a : BitVec 5) (s : State) : exec (.prefHandle h a) s = execPrefHandle h a s := rfl
@[simp] theorem exec_fence (h : Head) (b : BitVec 6) (f : BitVec 6) (s : State) : exec (.fence h b f) s = execFence h b f s := rfl
@[simp] theorem exec_drain (h : Head) (p : BitVec 6) (sc : BitVec 3) (s : State) : exec (.drain h p sc) s = execDrain h p sc s := rfl
@[simp] theorem exec_aadd (h : Head) (d : BitVec 5) (a : BitVec 5) (b : BitVec 5) (m : BitVec 2) (s : State) : exec (.aadd h d a b m) s = execAadd h d a b m s := rfl
@[simp] theorem exec_aand (h : Head) (d : BitVec 5) (a : BitVec 5) (b : BitVec 5) (m : BitVec 2) (s : State) : exec (.aand h d a b m) s = execAand h d a b m s := rfl
@[simp] theorem exec_aor (h : Head) (d : BitVec 5) (a : BitVec 5) (b : BitVec 5) (m : BitVec 2) (s : State) : exec (.aor h d a b m) s = execAor h d a b m s := rfl
@[simp] theorem exec_axor (h : Head) (d : BitVec 5) (a : BitVec 5) (b : BitVec 5) (m : BitVec 2) (s : State) : exec (.axor h d a b m) s = execAxor h d a b m s := rfl
@[simp] theorem exec_amin (h : Head) (d : BitVec 5) (a : BitVec 5) (b : BitVec 5) (m : BitVec 2) (s : State) : exec (.amin h d a b m) s = execAmin h d a b m s := rfl
@[simp] theorem exec_amax (h : Head) (d : BitVec 5) (a : BitVec 5) (b : BitVec 5) (m : BitVec 2) (s : State) : exec (.amax h d a b m) s = execAmax h d a b m s := rfl
@[simp] theorem exec_aminn (h : Head) (d : BitVec 5) (a : BitVec 5) (b : BitVec 5) (m : BitVec 2) (s : State) : exec (.aminn h d a b m) s = execAminn h d a b m s := rfl
@[simp] theorem exec_amaxn (h : Head) (d : BitVec 5) (a : BitVec 5) (b : BitVec 5) (m : BitVec 2) (s : State) : exec (.amaxn h d a b m) s = execAmaxn h d a b m s := rfl
@[simp] theorem exec_axchg (h : Head) (d : BitVec 5) (a : BitVec 5) (b : BitVec 5) (m : BitVec 2) (s : State) : exec (.axchg h d a b m) s = execAxchg h d a b m s := rfl
@[simp] theorem exec_acas (h : Head) (d : BitVec 5) (a : BitVec 5) (b : BitVec 5) (m : BitVec 2) (s : State) : exec (.acas h d a b m) s = execAcas h d a b m s := rfl
@[simp] theorem exec_vaadd (h : Head) (d : BitVec 5) (a : BitVec 5) (b : BitVec 5) (m : BitVec 2) (md : Option (BitVec 28)) (s : State) : exec (.vaadd h d a b m md) s = execVaadd h d a b m md s := rfl
@[simp] theorem exec_vaor (h : Head) (d : BitVec 5) (a : BitVec 5) (b : BitVec 5) (m : BitVec 2) (md : Option (BitVec 28)) (s : State) : exec (.vaor h d a b m md) s = execVaor h d a b m md s := rfl
@[simp] theorem exec_vamax (h : Head) (d : BitVec 5) (a : BitVec 5) (b : BitVec 5) (m : BitVec 2) (md : Option (BitVec 28)) (s : State) : exec (.vamax h d a b m md) s = execVamax h d a b m md s := rfl
@[simp] theorem exec_cadd (h : Head) (a : BitVec 5) (b : BitVec 5) (s : State) : exec (.cadd h a b) s = execCadd h a b s := rfl
@[simp] theorem exec_waitge (h : Head) (d : BitVec 5) (a : BitVec 5) (b : BitVec 5) (s : State) : exec (.waitge h d a b) s = execWaitge h d a b s := rfl
@[simp] theorem exec_binit (h : Head) (a : BitVec 5) (b : BitVec 5) (s : State) : exec (.binit h a b) s = execBinit h a b s := rfl
@[simp] theorem exec_barv (h : Head) (d : BitVec 5) (a : BitVec 5) (i : BitVec 7) (s : State) : exec (.barv h d a i) s = execBarv h d a i s := rfl
@[simp] theorem exec_bwait (h : Head) (d : BitVec 5) (a : BitVec 5) (b : BitVec 5) (s : State) : exec (.bwait h d a b) s = execBwait h d a b s := rfl
@[simp] theorem exec_obrkBarrier (h : Head) (a : BitVec 5) (s : State) : exec (.obrkBarrier h a) s = execObrkBarrier h a s := rfl
@[simp] theorem exec_obrkRing (h : Head) (a : BitVec 5) (s : State) : exec (.obrkRing h a) s = execObrkRing h a s := rfl
@[simp] theorem exec_lkreq (h : Head) (d : BitVec 5) (a : BitVec 5) (b : BitVec 5) (s : State) : exec (.lkreq h d a b) s = execLkreq h d a b s := rfl
@[simp] theorem exec_lktry (h : Head) (d : BitVec 5) (a : BitVec 5) (b : BitVec 5) (s : State) : exec (.lktry h d a b) s = execLktry h d a b s := rfl
@[simp] theorem exec_lkesc (h : Head) (d : BitVec 5) (a : BitVec 5) (b : BitVec 5) (s : State) : exec (.lkesc h d a b) s = execLkesc h d a b s := rfl
@[simp] theorem exec_lkdwn (h : Head) (a : BitVec 5) (b : BitVec 5) (s : State) : exec (.lkdwn h a b) s = execLkdwn h a b s := rfl
@[simp] theorem exec_lkrel (h : Head) (a : BitVec 5) (b : BitVec 5) (s : State) : exec (.lkrel h a b) s = execLkrel h a b s := rfl
@[simp] theorem exec_lkrelAll (h : Head) (s : State) : exec (.lkrelAll h) s = execLkrelAll h s := rfl
@[simp] theorem exec_lkqry (h : Head) (d : BitVec 5) (a : BitVec 5) (b : BitVec 5) (s : State) : exec (.lkqry h d a b) s = execLkqry h d a b s := rfl
@[simp] theorem exec_vadd (h : Head) (d : BitVec 5) (a : BitVec 5) (b : BitVec 5) (m : BitVec 2) (md : Option (BitVec 28)) (s : State) : exec (.vadd h d a b m md) s = execVadd h d a b m md s := rfl
@[simp] theorem exec_vsub (h : Head) (d : BitVec 5) (a : BitVec 5) (b : BitVec 5) (m : BitVec 2) (md : Option (BitVec 28)) (s : State) : exec (.vsub h d a b m md) s = execVsub h d a b m md s := rfl
@[simp] theorem exec_vmul (h : Head) (d : BitVec 5) (a : BitVec 5) (b : BitVec 5) (m : BitVec 2) (md : Option (BitVec 28)) (s : State) : exec (.vmul h d a b m md) s = execVmul h d a b m md s := rfl
@[simp] theorem exec_vfma (h : Head) (d : BitVec 5) (a : BitVec 5) (b : BitVec 5) (m : BitVec 2) (md : Option (BitVec 28)) (s : State) : exec (.vfma h d a b m md) s = execVfma h d a b m md s := rfl
@[simp] theorem exec_vfms (h : Head) (d : BitVec 5) (a : BitVec 5) (b : BitVec 5) (m : BitVec 2) (md : Option (BitVec 28)) (s : State) : exec (.vfms h d a b m md) s = execVfms h d a b m md s := rfl
@[simp] theorem exec_vfnma (h : Head) (d : BitVec 5) (a : BitVec 5) (b : BitVec 5) (m : BitVec 2) (md : Option (BitVec 28)) (s : State) : exec (.vfnma h d a b m md) s = execVfnma h d a b m md s := rfl
@[simp] theorem exec_vmin (h : Head) (d : BitVec 5) (a : BitVec 5) (b : BitVec 5) (m : BitVec 2) (md : Option (BitVec 28)) (s : State) : exec (.vmin h d a b m md) s = execVmin h d a b m md s := rfl
@[simp] theorem exec_vmax (h : Head) (d : BitVec 5) (a : BitVec 5) (b : BitVec 5) (m : BitVec 2) (md : Option (BitVec 28)) (s : State) : exec (.vmax h d a b m md) s = execVmax h d a b m md s := rfl
@[simp] theorem exec_vabs (h : Head) (d : BitVec 5) (a : BitVec 5) (m : BitVec 2) (md : Option (BitVec 28)) (s : State) : exec (.vabs h d a m md) s = execVabs h d a m md s := rfl
@[simp] theorem exec_vneg (h : Head) (d : BitVec 5) (a : BitVec 5) (m : BitVec 2) (md : Option (BitVec 28)) (s : State) : exec (.vneg h d a m md) s = execVneg h d a m md s := rfl
@[simp] theorem exec_vdiv (h : Head) (d : BitVec 5) (a : BitVec 5) (b : BitVec 5) (m : BitVec 2) (md : Option (BitVec 28)) (s : State) : exec (.vdiv h d a b m md) s = execVdiv h d a b m md s := rfl
@[simp] theorem exec_vsqrt (h : Head) (d : BitVec 5) (a : BitVec 5) (m : BitVec 2) (md : Option (BitVec 28)) (s : State) : exec (.vsqrt h d a m md) s = execVsqrt h d a m md s := rfl
@[simp] theorem exec_vrcp (h : Head) (d : BitVec 5) (a : BitVec 5) (m : BitVec 2) (md : Option (BitVec 28)) (s : State) : exec (.vrcp h d a m md) s = execVrcp h d a m md s := rfl
@[simp] theorem exec_vrsq (h : Head) (d : BitVec 5) (a : BitVec 5) (m : BitVec 2) (md : Option (BitVec 28)) (s : State) : exec (.vrsq h d a m md) s = execVrsq h d a m md s := rfl
@[simp] theorem exec_vexp (h : Head) (d : BitVec 5) (a : BitVec 5) (m : BitVec 2) (md : Option (BitVec 28)) (s : State) : exec (.vexp h d a m md) s = execVexp h d a m md s := rfl
@[simp] theorem exec_vlog (h : Head) (d : BitVec 5) (a : BitVec 5) (m : BitVec 2) (md : Option (BitVec 28)) (s : State) : exec (.vlog h d a m md) s = execVlog h d a m md s := rfl
@[simp] theorem exec_vtanh (h : Head) (d : BitVec 5) (a : BitVec 5) (m : BitVec 2) (md : Option (BitVec 28)) (s : State) : exec (.vtanh h d a m md) s = execVtanh h d a m md s := rfl
@[simp] theorem exec_vcvt (h : Head) (d : BitVec 5) (a : BitVec 5) (x : BitVec 4) (p : BitVec 2) (r : BitVec 1) (md : Option (BitVec 28)) (s : State) : exec (.vcvt h d a x p r md) s = execVcvt h d a x p r md s := rfl
@[simp] theorem exec_vcmp (h : Head) (c : BitVec 3) (f : BitVec 1) (a : BitVec 5) (b : BitVec 5) (m : BitVec 2) (md : BitVec 28) (s : State) : exec (.vcmp h c f a b m md) s = execVcmp h c f a b m md s := rfl
@[simp] theorem exec_vsel (h : Head) (d : BitVec 5) (a : BitVec 5) (b : BitVec 5) (md : Option (BitVec 28)) (s : State) : exec (.vsel h d a b md) s = execVsel h d a b md s := rfl
@[simp] theorem exec_viadd (h : Head) (d : BitVec 5) (a : BitVec 5) (b : BitVec 5) (m : BitVec 2) (md : Option (BitVec 28)) (s : State) : exec (.viadd h d a b m md) s = execViadd h d a b m md s := rfl
@[simp] theorem exec_visub (h : Head) (d : BitVec 5) (a : BitVec 5) (b : BitVec 5) (m : BitVec 2) (md : Option (BitVec 28)) (s : State) : exec (.visub h d a b m md) s = execVisub h d a b m md s := rfl
@[simp] theorem exec_vimul (h : Head) (d : BitVec 5) (a : BitVec 5) (b : BitVec 5) (m : BitVec 2) (md : Option (BitVec 28)) (s : State) : exec (.vimul h d a b m md) s = execVimul h d a b m md s := rfl
@[simp] theorem exec_vimulh (h : Head) (d : BitVec 5) (a : BitVec 5) (b : BitVec 5) (m : BitVec 2) (md : Option (BitVec 28)) (s : State) : exec (.vimulh h d a b m md) s = execVimulh h d a b m md s := rfl
@[simp] theorem exec_vand (h : Head) (d : BitVec 5) (a : BitVec 5) (b : BitVec 5) (md : Option (BitVec 28)) (s : State) : exec (.vand h d a b md) s = execVand h d a b md s := rfl
@[simp] theorem exec_vor (h : Head) (d : BitVec 5) (a : BitVec 5) (b : BitVec 5) (md : Option (BitVec 28)) (s : State) : exec (.vor h d a b md) s = execVor h d a b md s := rfl
@[simp] theorem exec_vxor (h : Head) (d : BitVec 5) (a : BitVec 5) (b : BitVec 5) (md : Option (BitVec 28)) (s : State) : exec (.vxor h d a b md) s = execVxor h d a b md s := rfl
@[simp] theorem exec_vshl (h : Head) (d : BitVec 5) (a : BitVec 5) (b : BitVec 5) (m : BitVec 2) (md : Option (BitVec 28)) (s : State) : exec (.vshl h d a b m md) s = execVshl h d a b m md s := rfl
@[simp] theorem exec_vshr (h : Head) (d : BitVec 5) (a : BitVec 5) (b : BitVec 5) (m : BitVec 2) (md : Option (BitVec 28)) (s : State) : exec (.vshr h d a b m md) s = execVshr h d a b m md s := rfl
@[simp] theorem exec_vsra (h : Head) (d : BitVec 5) (a : BitVec 5) (b : BitVec 5) (m : BitVec 2) (md : Option (BitVec 28)) (s : State) : exec (.vsra h d a b m md) s = execVsra h d a b m md s := rfl
@[simp] theorem exec_vimin (h : Head) (d : BitVec 5) (a : BitVec 5) (b : BitVec 5) (m : BitVec 2) (md : Option (BitVec 28)) (s : State) : exec (.vimin h d a b m md) s = execVimin h d a b m md s := rfl
@[simp] theorem exec_vimax (h : Head) (d : BitVec 5) (a : BitVec 5) (b : BitVec 5) (m : BitVec 2) (md : Option (BitVec 28)) (s : State) : exec (.vimax h d a b m md) s = execVimax h d a b m md s := rfl
@[simp] theorem exec_vpopc (h : Head) (d : BitVec 5) (a : BitVec 5) (m : BitVec 2) (md : Option (BitVec 28)) (s : State) : exec (.vpopc h d a m md) s = execVpopc h d a m md s := rfl
@[simp] theorem exec_vclz (h : Head) (d : BitVec 5) (a : BitVec 5) (m : BitVec 2) (md : Option (BitVec 28)) (s : State) : exec (.vclz h d a m md) s = execVclz h d a m md s := rfl
@[simp] theorem exec_vperm (h : Head) (d : BitVec 5) (a : BitVec 5) (b : BitVec 5) (m : BitVec 2) (md : Option (BitVec 28)) (s : State) : exec (.vperm h d a b m md) s = execVperm h d a b m md s := rfl
@[simp] theorem exec_vbcast (h : Head) (d : BitVec 5) (a : BitVec 5) (m : BitVec 2) (md : Option (BitVec 28)) (s : State) : exec (.vbcast h d a m md) s = execVbcast h d a m md s := rfl
@[simp] theorem exec_vext (h : Head) (d : BitVec 5) (a : BitVec 5) (b : BitVec 5) (m : BitVec 2) (s : State) : exec (.vext h d a b m) s = execVext h d a b m s := rfl
@[simp] theorem exec_vins (h : Head) (d : BitVec 5) (a : BitVec 5) (b : BitVec 5) (m : BitVec 2) (s : State) : exec (.vins h d a b m) s = execVins h d a b m s := rfl
@[simp] theorem exec_viota (h : Head) (d : BitVec 5) (a : BitVec 5) (b : BitVec 5) (m : BitVec 2) (md : Option (BitVec 28)) (s : State) : exec (.viota h d a b m md) s = execViota h d a b m md s := rfl
@[simp] theorem exec_vslide (h : Head) (d : BitVec 5) (a : BitVec 5) (i : BitVec 7) (md : Option (BitVec 28)) (s : State) : exec (.vslide h d a i md) s = execVslide h d a i md s := rfl
@[simp] theorem exec_vred (h : Head) (d : BitVec 5) (a : BitVec 5) (b : BitVec 5) (m : BitVec 2) (md : Option (BitVec 28)) (s : State) : exec (.vred h d a b m md) s = execVred h d a b m md s := rfl
@[simp] theorem exec_vscan (h : Head) (d : BitVec 5) (a : BitVec 5) (b : BitVec 5) (m : BitVec 2) (md : Option (BitVec 28)) (s : State) : exec (.vscan h d a b m md) s = execVscan h d a b m md s := rfl
@[simp] theorem exec_vmov (h : Head) (d : BitVec 5) (a : BitVec 5) (m : BitVec 2) (md : Option (BitVec 28)) (s : State) : exec (.vmov h d a m md) s = execVmov h d a m md s := rfl
@[simp] theorem exec_vcomp (h : Head) (d : BitVec 5) (a : BitVec 5) (m : BitVec 2) (md : Option (BitVec 28)) (s : State) : exec (.vcomp h d a m md) s = execVcomp h d a m md s := rfl
@[simp] theorem exec_lmand (h : Head) (d : BitVec 5) (a : BitVec 5) (b : BitVec 5) (s : State) : exec (.lmand h d a b) s = execLmand h d a b s := rfl
@[simp] theorem exec_lmor (h : Head) (d : BitVec 5) (a : BitVec 5) (b : BitVec 5) (s : State) : exec (.lmor h d a b) s = execLmor h d a b s := rfl
@[simp] theorem exec_lmnot (h : Head) (d : BitVec 5) (a : BitVec 5) (s : State) : exec (.lmnot h d a) s = execLmnot h d a s := rfl
@[simp] theorem exec_lmpop (h : Head) (d : BitVec 5) (a : BitVec 5) (s : State) : exec (.lmpop h d a) s = execLmpop h d a s := rfl
@[simp] theorem exec_vsig (h : Head) (d : BitVec 5) (a : BitVec 5) (s : State) : exec (.vsig h d a) s = execVsig h d a s := rfl
@[simp] theorem exec_lxadd (h : Head) (d : BitVec 5) (a : BitVec 5) (b : BitVec 5) (m : BitVec 2) (md : Option (BitVec 28)) (s : State) : exec (.lxadd h d a b m md) s = execLxadd h d a b m md s := rfl
@[simp] theorem exec_lxsub (h : Head) (d : BitVec 5) (a : BitVec 5) (b : BitVec 5) (m : BitVec 2) (md : Option (BitVec 28)) (s : State) : exec (.lxsub h d a b m md) s = execLxsub h d a b m md s := rfl
@[simp] theorem exec_lxmul (h : Head) (d : BitVec 5) (a : BitVec 5) (b : BitVec 5) (m : BitVec 2) (md : Option (BitVec 28)) (s : State) : exec (.lxmul h d a b m md) s = execLxmul h d a b m md s := rfl
@[simp] theorem exec_lxdiv (h : Head) (d : BitVec 5) (a : BitVec 5) (b : BitVec 5) (m : BitVec 2) (md : Option (BitVec 28)) (s : State) : exec (.lxdiv h d a b m md) s = execLxdiv h d a b m md s := rfl
@[simp] theorem exec_lxcvt (h : Head) (d : BitVec 5) (a : BitVec 5) (x : BitVec 4) (w : BitVec 1) (r : BitVec 1) (md : Option (BitVec 28)) (s : State) : exec (.lxcvt h d a x w r md) s = execLxcvt h d a x w r md s := rfl
@[simp] theorem exec_lxcmp (h : Head) (c : BitVec 3) (a : BitVec 5) (b : BitVec 5) (m : BitVec 2) (md : BitVec 28) (s : State) : exec (.lxcmp h c a b m md) s = execLxcmp h c a b m md s := rfl
@[simp] theorem exec_lxsum (h : Head) (d : BitVec 5) (a : BitVec 5) (m : BitVec 2) (md : Option (BitVec 28)) (s : State) : exec (.lxsum h d a m md) s = execLxsum h d a m md s := rfl
@[simp] theorem exec_lxln (h : Head) (d : BitVec 5) (a : BitVec 5) (m : BitVec 2) (md : Option (BitVec 28)) (s : State) : exec (.lxln h d a m md) s = execLxln h d a m md s := rfl
@[simp] theorem exec_xwld (h : Head) (a : BitVec 5) (b : BitVec 5) (m : BitVec 2) (s : State) : exec (.xwld h a b m) s = execXwld h a b m s := rfl
@[simp] theorem exec_xmac (h : Head) (a : BitVec 5) (ds : BitVec 28) (s : State) : exec (.xmac h a ds) s = execXmac h a ds s := rfl
@[simp] theorem exec_xmacz (h : Head) (a : BitVec 5) (ds : BitVec 28) (s : State) : exec (.xmacz h a ds) s = execXmacz h a ds s := rfl
@[simp] theorem exec_xbegin (h : Head) (s : State) : exec (.xbegin h) s = execXbegin h s := rfl
@[simp] theorem exec_xend (h : Head) (s : State) : exec (.xend h) s = execXend h s := rfl
@[simp] theorem exec_xepi (h : Head) (a : BitVec 5) (b : BitVec 5) (ds : BitVec 28) (s : State) : exec (.xepi h a b ds) s = execXepi h a b ds s := rfl
@[simp] theorem exec_xaccld (h : Head) (a : BitVec 5) (b : BitVec 5) (ds : BitVec 28) (s : State) : exec (.xaccld h a b ds) s = execXaccld h a b ds s := rfl
@[simp] theorem exec_xaccst (h : Head) (a : BitVec 5) (b : BitVec 5) (ds : BitVec 28) (s : State) : exec (.xaccst h a b ds) s = execXaccst h a b ds s := rfl
@[simp] theorem exec_xchk (h : Head) (d : BitVec 5) (ds : BitVec 28) (s : State) : exec (.xchk h d ds) s = execXchk h d ds s := rfl
@[simp] theorem exec_xfix (h : Head) (d : BitVec 5) (a : BitVec 5) (s : State) : exec (.xfix h d a) s = execXfix h d a s := rfl
@[simp] theorem exec_xclr (h : Head) (ds : BitVec 28) (s : State) : exec (.xclr h ds) s = execXclr h ds s := rfl
@[simp] theorem exec_xcfg (h : Head) (a : BitVec 5) (s : State) : exec (.xcfg h a) s = execXcfg h a s := rfl
@[simp] theorem exec_cpyHandle (h : Head) (d : BitVec 5) (a : BitVec 5) (b : BitVec 5) (s : State) : exec (.cpyHandle h d a b) s = execCpyHandle h d a b s := rfl
@[simp] theorem exec_cpyAddress (h : Head) (d : BitVec 5) (a : BitVec 5) (b : BitVec 5) (s : State) : exec (.cpyAddress h d a b) s = execCpyAddress h d a b s := rfl
@[simp] theorem exec_cpypHandle (h : Head) (d : BitVec 5) (a : BitVec 5) (b : BitVec 5) (s : State) : exec (.cpypHandle h d a b) s = execCpypHandle h d a b s := rfl
@[simp] theorem exec_cpypAddress (h : Head) (d : BitVec 5) (a : BitVec 5) (b : BitVec 5) (s : State) : exec (.cpypAddress h d a b) s = execCpypAddress h d a b s := rfl
@[simp] theorem exec_cpyw (h : Head) (a : BitVec 5) (b : BitVec 5) (s : State) : exec (.cpyw h a b) s = execCpyw h a b s := rfl
@[simp] theorem exec_subsLoad (h : Head) (d : BitVec 5) (a : BitVec 5) (b : BitVec 5) (s : State) : exec (.subsLoad h d a b) s = execSubsLoad h d a b s := rfl
@[simp] theorem exec_subsStore (h : Head) (d : BitVec 5) (a : BitVec 5) (b : BitVec 5) (s : State) : exec (.subsStore h d a b) s = execSubsStore h d a b s := rfl
@[simp] theorem exec_sube (h : Head) (d : BitVec 5) (s : State) : exec (.sube h d) s = execSube h d s := rfl
@[simp] theorem exec_hset (h : Head) (d : BitVec 5) (a : BitVec 5) (s : State) : exec (.hset h d a) s = execHset h d a s := rfl
@[simp] theorem exec_hwait (h : Head) (d : BitVec 5) (a : BitVec 5) (i : BitVec 7) (s : State) : exec (.hwait h d a i) s = execHwait h d a i s := rfl
@[simp] theorem exec_hadv (h : Head) (a : BitVec 5) (i : BitVec 7) (s : State) : exec (.hadv h a i) s = execHadv h a i s := rfl
@[simp] theorem exec_tspawn (h : Head) (d : BitVec 5) (a : BitVec 5) (b : BitVec 5) (s : State) : exec (.tspawn h d a b) s = execTspawn h d a b s := rfl
@[simp] theorem exec_klaunch (h : Head) (a : BitVec 5) (s : State) : exec (.klaunch h a) s = execKlaunch h a s := rfl
@[simp] theorem exec_coll (h : Head) (d : BitVec 5) (a : BitVec 5) (b : BitVec 5) (s : State) : exec (.coll h d a b) s = execColl h d a b s := rfl
@[simp] theorem exec_fput (h : Head) (d : BitVec 5) (a : BitVec 5) (b : BitVec 5) (s : State) : exec (.fput h d a b) s = execFput h d a b s := rfl
@[simp] theorem exec_qstat (h : Head) (d : BitVec 5) (a : BitVec 5) (i : BitVec 7) (s : State) : exec (.qstat h d a i) s = execQstat h d a i s := rfl
@[simp] theorem exec_ckpt (h : Head) (s : State) : exec (.ckpt h) s = execCkpt h s := rfl
@[simp] theorem exec_cmpt (h : Head) (a : BitVec 5) (b : BitVec 5) (m : BitVec 2) (s : State) : exec (.cmpt h a b m) s = execCmpt h a b m s := rfl
@[simp] theorem exec_sigrd (h : Head) (d : BitVec 5) (m : BitVec 2) (s : State) : exec (.sigrd h d m) s = execSigrd h d m s := rfl
@[simp] theorem exec_phint (h : Head) (i : BitVec 12) (k1 : BitVec 28) (k2 : BitVec 28) (s : State) : exec (.phint h i k1 k2) s = execPhint h i k1 k2 s := rfl
@[simp] theorem exec_csrr (h : Head) (d : BitVec 5) (i : BitVec 12) (s : State) : exec (.csrr h d i) s = execCsrr h d i s := rfl
@[simp] theorem exec_csrw (h : Head) (d : BitVec 5) (i : BitVec 12) (s : State) : exec (.csrw h d i) s = execCsrw h d i s := rfl
@[simp] theorem exec_csrs (h : Head) (d : BitVec 5) (i : BitVec 12) (s : State) : exec (.csrs h d i) s = execCsrs h d i s := rfl
@[simp] theorem exec_csrc (h : Head) (d : BitVec 5) (i : BitVec 12) (s : State) : exec (.csrc h d i) s = execCsrc h d i s := rfl
@[simp] theorem exec_eretRestore (h : Head) (s : State) : exec (.eretRestore h) s = execEretRestore h s := rfl
@[simp] theorem exec_eretContinue (h : Head) (a : BitVec 5) (s : State) : exec (.eretContinue h a) s = execEretContinue h a s := rfl
@[simp] theorem exec_sysc (h : Head) (i : BitVec 12) (s : State) : exec (.sysc h i) s = execSysc h i s := rfl
@[simp] theorem exec_step (h : Head) (a : BitVec 5) (s : State) : exec (.step h a) s = execStep h a s := rfl
@[simp] theorem exec_abort (h : Head) (a : BitVec 5) (s : State) : exec (.abort h a) s = execAbort h a s := rfl
@[simp] theorem exec_ttinvTile (h : Head) (a : BitVec 5) (b : BitVec 5) (s : State) : exec (.ttinvTile h a b) s = execTtinvTile h a b s := rfl
@[simp] theorem exec_ttinvTensor (h : Head) (a : BitVec 5) (s : State) : exec (.ttinvTensor h a) s = execTtinvTensor h a s := rfl
@[simp] theorem exec_ttinvAsid (h : Head) (s : State) : exec (.ttinvAsid h) s = execTtinvAsid h s := rfl
@[simp] theorem exec_ttinvAll (h : Head) (s : State) : exec (.ttinvAll h) s = execTtinvAll h s := rfl
@[simp] theorem exec_icinvCore (h : Head) (a : BitVec 5) (b : BitVec 5) (s : State) : exec (.icinvCore h a b) s = execIcinvCore h a b s := rfl
@[simp] theorem exec_icinvPkg (h : Head) (a : BitVec 5) (b : BitVec 5) (s : State) : exec (.icinvPkg h a b) s = execIcinvPkg h a b s := rfl
@[simp] theorem exec_attq (h : Head) (d : BitVec 5) (a : BitVec 5) (b : BitVec 5) (s : State) : exec (.attq h d a b) s = execAttq h d a b s := rfl
@[simp] theorem exec_clockRestart (core : Nat) (s : State) : exec (.clockRestart core) s = execClockRestart core s := rfl
@[simp] theorem exec_runLimitDue (g : Nat) (s : State) : exec (.runLimitDue g) s = execRunLimitDue g s := rfl
@[simp] theorem exec_runLimitExpiry (g : Nat) (s : State) : exec (.runLimitExpiry g) s = execRunLimitExpiry g s := rfl
@[simp] theorem exec_exposedResultLand (g : Nat) (s : State) : exec (.exposedResultLand g) s = execExposedResultLand g s := rfl
@[simp] theorem exec_interlockedResultLand (g : Nat) (k : Nat) (s : State) : exec (.interlockedResultLand g k) s = execInterlockedResultLand g k s := rfl
@[simp] theorem exec_waitWake (g : Nat) (s : State) : exec (.waitWake g) s = execWaitWake g s := rfl
@[simp] theorem exec_returningOpComplete (g : Nat) (s : State) : exec (.returningOpComplete g) s = execReturningOpComplete g s := rfl
@[simp] theorem exec_drainComplete (g : Nat) (s : State) : exec (.drainComplete g) s = execDrainComplete g s := rfl
@[simp] theorem exec_ttinvAcknowledge (g : Nat) (s : State) : exec (.ttinvAcknowledge g) s = execTtinvAcknowledge g s := rfl
@[simp] theorem exec_icinvAcknowledge (g : Nat) (s : State) : exec (.icinvAcknowledge g) s = execIcinvAcknowledge g s := rfl
@[simp] theorem exec_lockAnswer (g : Nat) (s : State) : exec (.lockAnswer g) s = execLockAnswer g s := rfl
@[simp] theorem exec_grantCacheRefill (g : Nat) (s : State) : exec (.grantCacheRefill g) s = execGrantCacheRefill g s := rfl
@[simp] theorem exec_migrationWalkRetry (g : Nat) (s : State) : exec (.migrationWalkRetry g) s = execMigrationWalkRetry g s := rfl
@[simp] theorem exec_weightBufferCurrent (core : Nat) (k : Nat) (s : State) : exec (.weightBufferCurrent core k) s = execWeightBufferCurrent core k s := rfl
@[simp] theorem exec_matrixRowsLand (core : Nat) (k : Nat) (s : State) : exec (.matrixRowsLand core k) s = execMatrixRowsLand core k s := rfl
@[simp] theorem exec_xaccldRowsArrive (core : Nat) (k : Nat) (s : State) : exec (.xaccldRowsArrive core k) s = execXaccldRowsArrive core k s := rfl
@[simp] theorem exec_xchkComplete (core : Nat) (k : Nat) (s : State) : exec (.xchkComplete core k) s = execXchkComplete core k s := rfl
@[simp] theorem exec_xfixComplete (core : Nat) (k : Nat) (s : State) : exec (.xfixComplete core k) s = execXfixComplete core k s := rfl
@[simp] theorem exec_xepiCheck (core : Nat) (k : Nat) (s : State) : exec (.xepiCheck core k) s = execXepiCheck core k s := rfl
@[simp] theorem exec_outputStageComplete (c : Nat) (s : State) : exec (.outputStageComplete c) s = execOutputStageComplete c s := rfl
@[simp] theorem exec_scbRelease (g : Nat) (s : State) : exec (.scbRelease g) s = execScbRelease g s := rfl
@[simp] theorem exec_intervalAgreement (g : Nat) (s : State) : exec (.intervalAgreement g) s = execIntervalAgreement g s := rfl
@[simp] theorem exec_signatureArrival (g : Nat) (s : State) : exec (.signatureArrival g) s = execSignatureArrival g s := rfl
@[simp] theorem exec_twinSkewExpiry (g : Nat) (s : State) : exec (.twinSkewExpiry g) s = execTwinSkewExpiry g s := rfl
@[simp] theorem exec_reExecutionStart (g : Nat) (s : State) : exec (.reExecutionStart g) s = execReExecutionStart g s := rfl
@[simp] theorem exec_vote (g : Nat) (s : State) : exec (.vote g) s = execVote g s := rfl
@[simp] theorem exec_scoreHalving (s : State) : exec (.scoreHalving) s = execScoreHalving s := rfl
@[simp] theorem exec_leaseExpiry (lkm : Nat) (k : Nat) (s : State) : exec (.leaseExpiry lkm k) s = execLeaseExpiry lkm k s := rfl
@[simp] theorem exec_bwaitBoundExpiry (g : Nat) (s : State) : exec (.bwaitBoundExpiry g) s = execBwaitBoundExpiry g s := rfl
@[simp] theorem exec_absentTileRewalk (c : Nat) (s : State) : exec (.absentTileRewalk c) s = execAbsentTileRewalk c s := rfl
@[simp] theorem exec_copyComplete (c : Nat) (s : State) : exec (.copyComplete c) s = execCopyComplete c s := rfl
@[simp] theorem exec_cpywComplete (c : Nat) (s : State) : exec (.cpywComplete c) s = execCpywComplete c s := rfl
@[simp] theorem exec_loaderSlotStep (c : Nat) (s : State) : exec (.loaderSlotStep c) s = execLoaderSlotStep c s := rfl
@[simp] theorem exec_storerSlotStep (c : Nat) (s : State) : exec (.storerSlotStep c) s = execStorerSlotStep c s := rfl
@[simp] theorem exec_klaunchPacketRead (c : Nat) (s : State) : exec (.klaunchPacketRead c) s = execKlaunchPacketRead c s := rfl
@[simp] theorem exec_collComplete (c : Nat) (s : State) : exec (.collComplete c) s = execCollComplete c s := rfl
@[simp] theorem exec_collFlitReceive (grp : Nat) (rank : Nat) (seq : Nat) (gsize : Nat) (check : Nat) (op : Nat) (data : List Byte) (s : State) : exec (.collFlitReceive grp rank seq gsize check op data) s = execCollFlitReceive grp rank seq gsize check op data s := rfl
@[simp] theorem exec_fputComplete (c : Nat) (s : State) : exec (.fputComplete c) s = execFputComplete c s := rfl
@[simp] theorem exec_quoteComplete (s : State) : exec (.quoteComplete) s = execQuoteComplete s := rfl
@[simp] theorem exec_doorbellWrite (u : Nat) (wc : Word) (s : State) : exec (.doorbellWrite u wc) s = execDoorbellWrite u wc s := rfl
@[simp] theorem exec_slotIdleTimeout (n : Nat) (s : State) : exec (.slotIdleTimeout n) s = execSlotIdleTimeout n s := rfl
@[simp] theorem exec_qschTurnEnd (ioc : Nat) (s : State) : exec (.qschTurnEnd ioc) s = execQschTurnEnd ioc s := rfl
@[simp] theorem exec_packetLaunch (n : Nat) (s : State) : exec (.packetLaunch n) s = execPacketLaunch n s := rfl
@[simp] theorem exec_packetWait (n : Nat) (s : State) : exec (.packetWait n) s = execPacketWait n s := rfl
@[simp] theorem exec_packetSignal (n : Nat) (s : State) : exec (.packetSignal n) s = execPacketSignal n s := rfl
@[simp] theorem exec_packetMarker (n : Nat) (s : State) : exec (.packetMarker n) s = execPacketMarker n s := rfl
@[simp] theorem exec_qschWaitSatisfied (n : Nat) (s : State) : exec (.qschWaitSatisfied n) s = execQschWaitSatisfied n s := rfl
@[simp] theorem exec_markerEffect (n : Nat) (s : State) : exec (.markerEffect n) s = execMarkerEffect n s := rfl
@[simp] theorem exec_kernelPlacement (n : Nat) (s : State) : exec (.kernelPlacement n) s = execKernelPlacement n s := rfl
@[simp] theorem exec_kernelComplete (k : Nat) (s : State) : exec (.kernelComplete k) s = execKernelComplete k s := rfl
@[simp] theorem exec_queueReset (n : Nat) (s : State) : exec (.queueReset n) s = execQueueReset n s := rfl
@[simp] theorem exec_queueResetUnmap (n : Nat) (s : State) : exec (.queueResetUnmap n) s = execQueueResetUnmap n s := rfl
@[simp] theorem exec_taskDispatch (cl : Nat) (s : State) : exec (.taskDispatch cl) s = execTaskDispatch cl s := rfl
@[simp] theorem exec_dependenceRelease (cl : Nat) (k : Nat) (s : State) : exec (.dependenceRelease cl k) s = execDependenceRelease cl k s := rfl
@[simp] theorem exec_spillBufferDrain (k : Nat) (s : State) : exec (.spillBufferDrain k) s = execSpillBufferDrain k s := rfl
@[simp] theorem exec_gangInstant (ioc : Nat) (i : Nat) (s : State) : exec (.gangInstant ioc i) s = execGangInstant ioc i s := rfl
@[simp] theorem exec_prqGo (ioc : Nat) (g : Nat) (s : State) : exec (.prqGo ioc g) s = execPrqGo ioc g s := rfl
@[simp] theorem exec_preemptDeadlineFirst (g : Nat) (s : State) : exec (.preemptDeadlineFirst g) s = execPreemptDeadlineFirst g s := rfl
@[simp] theorem exec_preemptDeadlineSecond (g : Nat) (s : State) : exec (.preemptDeadlineSecond g) s = execPreemptDeadlineSecond g s := rfl
@[simp] theorem exec_parkedSave (g : Nat) (s : State) : exec (.parkedSave g) s = execParkedSave g s := rfl
@[simp] theorem exec_saveComplete (g : Nat) (s : State) : exec (.saveComplete g) s = execSaveComplete g s := rfl
@[simp] theorem exec_restore (k : Nat) (s : State) : exec (.restore k) s = execRestore k s := rfl
@[simp] theorem exec_abortTokenReceive (grp : BitVec 16) (st : Word) (s : State) : exec (.abortTokenReceive grp st) s = execAbortTokenReceive grp st s := rfl
@[simp] theorem exec_abortAnswer (grp : BitVec 16) (st : Word) (s : State) : exec (.abortAnswer grp st) s = execAbortAnswer grp st s := rfl
@[simp] theorem exec_abortAnswerWindowExpiry (grp : BitVec 16) (s : State) : exec (.abortAnswerWindowExpiry grp) s = execAbortAnswerWindowExpiry grp s := rfl
@[simp] theorem exec_linkFlitReceive (link : Nat) (good : Bool) (s : State) : exec (.linkFlitReceive link good) s = execLinkFlitReceive link good s := rfl
@[simp] theorem exec_linkDead (link : Nat) (s : State) : exec (.linkDead link) s = execLinkDead link s := rfl
@[simp] theorem exec_ptpMessage (ns : Nat) (s : State) : exec (.ptpMessage ns) s = execPtpMessage ns s := rfl
@[simp] theorem exec_apertureRead (o : Nat) (n : Nat) (s : State) : exec (.apertureRead o n) s = execApertureRead o n s := rfl
@[simp] theorem exec_apertureWrite (o : Nat) (n : Nat) (x : Nat) (s : State) : exec (.apertureWrite o n x) s = execApertureWrite o n x s := rfl
@[simp] theorem exec_hircWrite (ioc : Nat) (x : Word) (s : State) : exec (.hircWrite ioc x) s = execHircWrite ioc x s := rfl
@[simp] theorem exec_idropRead (ioc : Nat) (s : State) : exec (.idropRead ioc) s = execIdropRead ioc s := rfl
@[simp] theorem exec_hndropRead (u : Nat) (s : State) : exec (.hndropRead u) s = execHndropRead u s := rfl
@[simp] theorem exec_atctlGo (x : Word) (s : State) : exec (.atctlGo x) s = execAtctlGo x s := rfl
@[simp] theorem exec_atstRead (s : State) : exec (.atstRead) s = execAtstRead s := rfl
@[simp] theorem exec_sftbWrite (spc : Nat) (x : Word) (s : State) : exec (.sftbWrite spc x) s = execSftbWrite spc x s := rfl
@[simp] theorem exec_registerWrite (r : RegName) (i : Nat) (x : BitVec 64) (s : State) : exec (.registerWrite r i x) s = execRegisterWrite r i x s := rfl
@[simp] theorem exec_freezePin (ns : Nat) (s : State) : exec (.freezePin ns) s = execFreezePin ns s := rfl
@[simp] theorem exec_frzWrite (x : Word) (s : State) : exec (.frzWrite x) s = execFrzWrite x s := rfl
@[simp] theorem exec_moduleReset (s : State) : exec (.moduleReset) s = execModuleReset s := rfl
@[simp] theorem exec_retirementClear (spc : Bool) (n : Nat) (s : State) : exec (.retirementClear spc n) s = execRetirementClear spc n s := rfl
@[simp] theorem exec_powerDownEntry (u : Nat) (j : Nat) (s : State) : exec (.powerDownEntry u j) s = execPowerDownEntry u j s := rfl
@[simp] theorem exec_selfRefreshEntry (u : Nat) (j : Nat) (s : State) : exec (.selfRefreshEntry u j) s = execSelfRefreshEntry u j s := rfl
@[simp] theorem exec_powerStateExit (u : Nat) (j : Nat) (s : State) : exec (.powerStateExit u j) s = execPowerStateExit u j s := rfl
@[simp] theorem exec_refreshDue (u : Nat) (bank : Nat) (busy : Bool) (s : State) : exec (.refreshDue u bank busy) s = execRefreshDue u bank busy s := rfl
@[simp] theorem exec_refreshComplete (u : Nat) (bank : Nat) (s : State) : exec (.refreshComplete u bank) s = execRefreshComplete u bank s := rfl
@[simp] theorem exec_activationAlert (u : Nat) (bank : Nat) (s : State) : exec (.activationAlert u bank) s = execActivationAlert u bank s := rfl
@[simp] theorem exec_alertBackoffComplete (u : Nat) (bank : Nat) (s : State) : exec (.alertBackoffComplete u bank) s = execAlertBackoffComplete u bank s := rfl
@[simp] theorem exec_criticalTempAssert (u : Nat) (s : State) : exec (.criticalTempAssert u) s = execCriticalTempAssert u s := rfl
@[simp] theorem exec_criticalTempClear (u : Nat) (s : State) : exec (.criticalTempClear u) s = execCriticalTempClear u s := rfl
@[simp] theorem exec_thermalHoldTimeout (u : Nat) (s : State) : exec (.thermalHoldTimeout u) s = execThermalHoldTimeout u s := rfl
@[simp] theorem exec_scrubStep (u : Nat) (err : EccErr) (s : State) : exec (.scrubStep u err) s = execScrubStep u err s := rfl
@[simp] theorem exec_hotnessDecay (u : Nat) (s : State) : exec (.hotnessDecay u) s = execHotnessDecay u s := rfl
@[simp] theorem exec_uvEvaluate (s : State) : exec (.uvEvaluate) s = execUvEvaluate s := rfl
@[simp] theorem exec_uvCrossingRaise (dom : Nat) (arr : Nat) (s : State) : exec (.uvCrossingRaise dom arr) s = execUvCrossingRaise dom arr s := rfl
@[simp] theorem exec_uvWindowExpiry (dom : Nat) (s : State) : exec (.uvWindowExpiry dom) s = execUvWindowExpiry dom s := rfl
@[simp] theorem exec_uvHoldExpiry (dom : Nat) (s : State) : exec (.uvHoldExpiry dom) s = execUvHoldExpiry dom s := rfl
@[simp] theorem exec_illegalBundle (sl : Nat) (s : State) : exec (.illegalBundle sl) s = execIllegalBundle sl s := rfl
@[simp] theorem exec_matrixPartFree (core : Nat) (part : Nat) (s : State) : exec (.matrixPartFree core part) s = execMatrixPartFree core part s := rfl
@[simp] theorem exec_iterativeUnitFree (core : Nat) (unit : Nat) (s : State) : exec (.iterativeUnitFree core unit) s = execIterativeUnitFree core unit s := rfl
@[simp] theorem exec_tileWalkComplete (core : Nat) (asid : BitVec 16) (tid : BitVec 20) (tile : Nat) (s : State) : exec (.tileWalkComplete core asid tid tile) s = execTileWalkComplete core asid tid tile s := rfl
@[simp] theorem exec_shadowFrameCopyComplete (g : Nat) (s : State) : exec (.shadowFrameCopyComplete g) s = execShadowFrameCopyComplete g s := rfl
@[simp] theorem exec_fenceMarkerRelease (g : Nat) (s : State) : exec (.fenceMarkerRelease g) s = execFenceMarkerRelease g s := rfl
@[simp] theorem exec_powerCeilingThrottle (on : Bool) (s : State) : exec (.powerCeilingThrottle on) s = execPowerCeilingThrottle on s := rfl

end Sys2Proof.Machine
end

