-- ==== Sys2Proof/Laws/Head.lean ====
section
/-! SUPPORT. Every slot, said once: it is its head, the registers that it touches, and what it asks for. -/

namespace Sys2Proof.Machine

/-- An outcome that is a slot's: its check may have used up the first of the faults about to strike. -/
def State.isSlot (s : State) (h : Head) (off : List Act) (o : Host.Outcome State Fault Refusal) : Prop :=
  ∃ touch dup k u, o = ({ s with upsets := u } : State).slotOff h touch dup off k ∧
    (s.me.r.readPred h.g.toNat = false → u = s.upsets) ∧ (s.upsets = [] → u = [])

theorem State.isSlot_off (s : State) (h : Head) (touch : List RegId) (dup : Dup) (off : List Act) (k : Ctx → List Act) :
    s.isSlot h off (s.slotOff h touch dup off k) := ⟨touch, dup, k, s.upsets, rfl, fun _ => rfl, id⟩

theorem State.isSlot_do (s : State) (h : Head) (touch : List RegId) (k : Ctx → List Act) :
    s.isSlot h [] (s.slotDo h touch k) := s.isSlot_off h touch .now [] k

/-- What a check uses up of the faults about to strike, and nothing where the guard is false. -/
theorem State.checkUsed_upsets (s : State) (h : Head) (touch : List RegId) (k : Ctx → List Act) :
    ∃ u, s.checkUsed h touch k = { s with upsets := u } ∧ (s.me.r.readPred h.g.toNat = false → u = s.upsets) ∧
      (s.upsets = [] → u = []) := by
  cases hp : s.me.r.readPred h.g.toNat with
  | false => exact ⟨s.upsets, by simp [State.checkUsed, hp], fun _ => rfl, id⟩
  | true =>
    simp only [State.checkUsed, hp]
    split
    · exact ⟨_, rfl, by simp, fun h => by rw [h]; rfl⟩
    · exact ⟨s.upsets, rfl, by simp, id⟩

theorem State.isSlot_v (s : State) (h : Head) (touch : List RegId) (dup : Dup) (k : Ctx → List Act) :
    s.isSlot h [] (s.vslot h touch dup k) := by
  obtain ⟨u, hu, hp⟩ := s.checkUsed_upsets h touch k
  exact ⟨touch, dup, k, u, by rw [State.vslot, hu], hp⟩

theorem State.isSlot_lx (s : State) (h : Head) (touch : List RegId) (k : Ctx → List Act) :
    s.isSlot h (if (s.core (coreOf s.cur)).iter.contains s.iss.unit then [.stall (.iter s.iss.unit)]
      else [.useIter s.iss.unit]) (s.lxSlot h touch k) := by
  obtain ⟨u, hu, hp⟩ := s.checkUsed_upsets h touch k
  exact ⟨touch, .now, k, u, by simp only [State.lxSlot, hu], hp⟩

/-- An XMAC or XMACZ: its parity check may use up a fault about to strike. -/
theorem State.isSlot_xmac (s : State) (h : Head) (a : BitVec 5) (ds : BitVec 28) (op : Nat) :
    s.isSlot h [] (s.xmacAny h a ds op) := by
  unfold State.xmacAny
  simp only []
  split
  · rename_i hh
    exact ⟨_, _, _, s.upsets.tail, rfl, fun hp => by simp [hp] at hh, fun h => by rw [h]; rfl⟩
  · exact State.isSlot_do ..

theorem slot_br (s : State) {h} {i} {ks} : s.isSlot h s.noTransfer (exec (.br h i ks) s) := by
  rw [exec_br]
  unfold execBr
  exact State.isSlot_off ..
theorem slot_bri (s : State) {h} {a} {i} : s.isSlot h s.noTransfer (exec (.bri h a i) s) := by
  rw [exec_bri]
  unfold execBri
  exact State.isSlot_off ..
theorem slot_call (s : State) {h} {i} {ks} : s.isSlot h s.noTransfer (exec (.call h i ks) s) := by
  rw [exec_call]
  unfold execCall
  exact State.isSlot_off ..
theorem slot_calli (s : State) {h} {a} {i} : s.isSlot h s.noTransfer (exec (.calli h a i) s) := by
  rw [exec_calli]
  unfold execCalli
  exact State.isSlot_off ..
theorem slot_ret (s : State) {h} : s.isSlot h s.noTransfer (exec (.ret h) s) := by
  rw [exec_ret]
  unfold execRet
  exact State.isSlot_off ..
theorem slot_loopi (s : State) {h} {d} {a} {i} : s.isSlot h [] (exec (.loopi h d a i) s) := by
  rw [exec_loopi]
  unfold execLoopi
  exact State.isSlot_do ..
theorem slot_loopb (s : State) {h} {d} {i} {ks} : s.isSlot h s.noTransfer (exec (.loopb h d i ks) s) := by
  rw [exec_loopb]
  unfold execLoopb
  exact State.isSlot_off ..
theorem slot_yield (s : State) {h} : s.isSlot h [] (exec (.yield h) s) := by
  rw [exec_yield]
  unfold execYield
  exact State.isSlot_do ..
theorem slot_waitf (s : State) {h} {l} {k} : s.isSlot h [] (exec (.waitf h l k) s) := by
  rw [exec_waitf]
  unfold execWaitf
  exact State.isSlot_do ..
theorem slot_tend (s : State) {h} : s.isSlot h [] (exec (.tend h) s) := by
  rw [exec_tend]
  unfold execTend
  exact State.isSlot_do ..
theorem slot_trap (s : State) {h} {i} : s.isSlot h [] (exec (.trap h i) s) := by
  rw [exec_trap]
  unfold execTrap
  exact State.isSlot_do ..
theorem slot_add (s : State) {h} {d} {a} {b} : s.isSlot h [] (exec (.add h d a b) s) := by
  rw [exec_add]
  unfold execAdd
  unfold State.sRRR
  exact State.isSlot_do ..
theorem slot_sub (s : State) {h} {d} {a} {b} : s.isSlot h [] (exec (.sub h d a b) s) := by
  rw [exec_sub]
  unfold execSub
  unfold State.sRRR
  exact State.isSlot_do ..
theorem slot_addi (s : State) {h} {d} {a} {i} {ks} : s.isSlot h [] (exec (.addi h d a i ks) s) := by
  rw [exec_addi]
  unfold execAddi
  unfold State.sRR
  exact State.isSlot_do ..
theorem slot_mul (s : State) {h} {d} {a} {b} : s.isSlot h [] (exec (.mul h d a b) s) := by
  rw [exec_mul]
  unfold execMul
  unfold State.sRRR
  exact State.isSlot_do ..
theorem slot_mulh (s : State) {h} {d} {a} {b} : s.isSlot h [] (exec (.mulh h d a b) s) := by
  rw [exec_mulh]
  unfold execMulh
  unfold State.sRRR
  exact State.isSlot_do ..
theorem slot_mulhn (s : State) {h} {d} {a} {b} : s.isSlot h [] (exec (.mulhn h d a b) s) := by
  rw [exec_mulhn]
  unfold execMulhn
  unfold State.sRRR
  exact State.isSlot_do ..
theorem slot_div (s : State) {h} {d} {a} {b} : s.isSlot h [] (exec (.div h d a b) s) := by
  rw [exec_div]
  unfold execDiv
  unfold State.sDiv
  exact State.isSlot_off ..
theorem slot_divn (s : State) {h} {d} {a} {b} : s.isSlot h [] (exec (.divn h d a b) s) := by
  rw [exec_divn]
  unfold execDivn
  unfold State.sDiv
  exact State.isSlot_off ..
theorem slot_rem (s : State) {h} {d} {a} {b} : s.isSlot h [] (exec (.rem h d a b) s) := by
  rw [exec_rem]
  unfold execRem
  unfold State.sDiv
  exact State.isSlot_off ..
theorem slot_remn (s : State) {h} {d} {a} {b} : s.isSlot h [] (exec (.remn h d a b) s) := by
  rw [exec_remn]
  unfold execRemn
  unfold State.sDiv
  exact State.isSlot_off ..
theorem slot_and (s : State) {h} {d} {a} {b} : s.isSlot h [] (exec (.and h d a b) s) := by
  rw [exec_and]
  unfold execAnd
  unfold State.sRRR
  exact State.isSlot_do ..
theorem slot_or (s : State) {h} {d} {a} {b} : s.isSlot h [] (exec (.or h d a b) s) := by
  rw [exec_or]
  unfold execOr
  unfold State.sRRR
  exact State.isSlot_do ..
theorem slot_xor (s : State) {h} {d} {a} {b} : s.isSlot h [] (exec (.xor h d a b) s) := by
  rw [exec_xor]
  unfold execXor
  unfold State.sRRR
  exact State.isSlot_do ..
theorem slot_andn (s : State) {h} {d} {a} {b} : s.isSlot h [] (exec (.andn h d a b) s) := by
  rw [exec_andn]
  unfold execAndn
  unfold State.sRRR
  exact State.isSlot_do ..
theorem slot_andi (s : State) {h} {d} {a} {i} {ks} : s.isSlot h [] (exec (.andi h d a i ks) s) := by
  rw [exec_andi]
  unfold execAndi
  unfold State.sRR
  exact State.isSlot_do ..
theorem slot_ori (s : State) {h} {d} {a} {i} {ks} : s.isSlot h [] (exec (.ori h d a i ks) s) := by
  rw [exec_ori]
  unfold execOri
  unfold State.sRR
  exact State.isSlot_do ..
theorem slot_xori (s : State) {h} {d} {a} {i} {ks} : s.isSlot h [] (exec (.xori h d a i ks) s) := by
  rw [exec_xori]
  unfold execXori
  unfold State.sRR
  exact State.isSlot_do ..
theorem slot_shl (s : State) {h} {d} {a} {b} : s.isSlot h [] (exec (.shl h d a b) s) := by
  rw [exec_shl]
  unfold execShl
  unfold State.sRRR
  exact State.isSlot_do ..
theorem slot_shr (s : State) {h} {d} {a} {b} : s.isSlot h [] (exec (.shr h d a b) s) := by
  rw [exec_shr]
  unfold execShr
  unfold State.sRRR
  exact State.isSlot_do ..
theorem slot_sra (s : State) {h} {d} {a} {b} : s.isSlot h [] (exec (.sra h d a b) s) := by
  rw [exec_sra]
  unfold execSra
  unfold State.sRRR
  exact State.isSlot_do ..
theorem slot_shli (s : State) {h} {d} {a} {i} : s.isSlot h [] (exec (.shli h d a i) s) := by
  rw [exec_shli]
  unfold execShli
  unfold State.sRR
  exact State.isSlot_do ..
theorem slot_shri (s : State) {h} {d} {a} {i} : s.isSlot h [] (exec (.shri h d a i) s) := by
  rw [exec_shri]
  unfold execShri
  unfold State.sRR
  exact State.isSlot_do ..
theorem slot_srai (s : State) {h} {d} {a} {i} : s.isSlot h [] (exec (.srai h d a i) s) := by
  rw [exec_srai]
  unfold execSrai
  unfold State.sRR
  exact State.isSlot_do ..
theorem slot_rotl (s : State) {h} {d} {a} {b} : s.isSlot h [] (exec (.rotl h d a b) s) := by
  rw [exec_rotl]
  unfold execRotl
  unfold State.sRRR
  exact State.isSlot_do ..
theorem slot_clz (s : State) {h} {d} {a} : s.isSlot h [] (exec (.clz h d a) s) := by
  rw [exec_clz]
  unfold execClz
  unfold State.sRR
  exact State.isSlot_do ..
theorem slot_ctz (s : State) {h} {d} {a} : s.isSlot h [] (exec (.ctz h d a) s) := by
  rw [exec_ctz]
  unfold execCtz
  unfold State.sRR
  exact State.isSlot_do ..
theorem slot_popc (s : State) {h} {d} {a} : s.isSlot h [] (exec (.popc h d a) s) := by
  rw [exec_popc]
  unfold execPopc
  unfold State.sRR
  exact State.isSlot_do ..
theorem slot_min (s : State) {h} {d} {a} {b} : s.isSlot h [] (exec (.min h d a b) s) := by
  rw [exec_min]
  unfold execMin
  unfold State.sRRR
  exact State.isSlot_do ..
theorem slot_max (s : State) {h} {d} {a} {b} : s.isSlot h [] (exec (.max h d a b) s) := by
  rw [exec_max]
  unfold execMax
  unfold State.sRRR
  exact State.isSlot_do ..
theorem slot_minn (s : State) {h} {d} {a} {b} : s.isSlot h [] (exec (.minn h d a b) s) := by
  rw [exec_minn]
  unfold execMinn
  unfold State.sRRR
  exact State.isSlot_do ..
theorem slot_maxn (s : State) {h} {d} {a} {b} : s.isSlot h [] (exec (.maxn h d a b) s) := by
  rw [exec_maxn]
  unfold execMaxn
  unfold State.sRRR
  exact State.isSlot_do ..
theorem slot_sel (s : State) {h} {d} {a} {b} {m} : s.isSlot h [] (exec (.sel h d a b m) s) := by
  rw [exec_sel]
  unfold execSel
  exact State.isSlot_do ..
theorem slot_cmpeq (s : State) {h} {d} {a} {b} {m} : s.isSlot h [] (exec (.cmpeq h d a b m) s) := by
  rw [exec_cmpeq]
  unfold execCmpeq
  unfold State.sCmpRR
  unfold State.sCmp
  exact State.isSlot_do ..
theorem slot_cmpne (s : State) {h} {d} {a} {b} {m} : s.isSlot h [] (exec (.cmpne h d a b m) s) := by
  rw [exec_cmpne]
  unfold execCmpne
  unfold State.sCmpRR
  unfold State.sCmp
  exact State.isSlot_do ..
theorem slot_cmplt (s : State) {h} {d} {a} {b} {m} : s.isSlot h [] (exec (.cmplt h d a b m) s) := by
  rw [exec_cmplt]
  unfold execCmplt
  unfold State.sCmpRR
  unfold State.sCmp
  exact State.isSlot_do ..
theorem slot_cmpltn (s : State) {h} {d} {a} {b} {m} : s.isSlot h [] (exec (.cmpltn h d a b m) s) := by
  rw [exec_cmpltn]
  unfold execCmpltn
  unfold State.sCmpRR
  unfold State.sCmp
  exact State.isSlot_do ..
theorem slot_cmpge (s : State) {h} {d} {a} {b} {m} : s.isSlot h [] (exec (.cmpge h d a b m) s) := by
  rw [exec_cmpge]
  unfold execCmpge
  unfold State.sCmpRR
  unfold State.sCmp
  exact State.isSlot_do ..
theorem slot_cmpgen (s : State) {h} {d} {a} {b} {m} : s.isSlot h [] (exec (.cmpgen h d a b m) s) := by
  rw [exec_cmpgen]
  unfold execCmpgen
  unfold State.sCmpRR
  unfold State.sCmp
  exact State.isSlot_do ..
theorem slot_cmpeqi (s : State) {h} {d} {a} {i} {ks} : s.isSlot h [] (exec (.cmpeqi h d a i ks) s) := by
  rw [exec_cmpeqi]
  unfold execCmpeqi
  unfold State.sCmp
  exact State.isSlot_do ..
theorem slot_cmplti (s : State) {h} {d} {a} {i} {ks} : s.isSlot h [] (exec (.cmplti h d a i ks) s) := by
  rw [exec_cmplti]
  unfold execCmplti
  unfold State.sCmp
  exact State.isSlot_do ..
theorem slot_movi (s : State) {h} {d} {i} {ks} : s.isSlot h [] (exec (.movi h d i ks) s) := by
  rw [exec_movi]
  unfold execMovi
  exact State.isSlot_do ..
theorem slot_movhi (s : State) {h} {d} {i} {ks} : s.isSlot h [] (exec (.movhi h d i ks) s) := by
  rw [exec_movhi]
  unfold execMovhi
  exact State.isSlot_do ..
theorem slot_madd (s : State) {h} {d} {a} {b} : s.isSlot h [] (exec (.madd h d a b) s) := by
  rw [exec_madd]
  unfold execMadd
  exact State.isSlot_do ..
theorem slot_bfx (s : State) {h} {d} {a} {b} {m} : s.isSlot h [] (exec (.bfx h d a b m) s) := by
  rw [exec_bfx]
  unfold execBfx
  unfold State.sRRR
  exact State.isSlot_do ..
theorem slot_bfi (s : State) {h} {d} {a} {b} : s.isSlot h [] (exec (.bfi h d a b) s) := by
  rw [exec_bfi]
  unfold execBfi
  exact State.isSlot_do ..
theorem slot_sext (s : State) {h} {d} {a} {i} : s.isSlot h [] (exec (.sext h d a i) s) := by
  rw [exec_sext]
  unfold execSext
  unfold State.sRR
  exact State.isSlot_do ..
theorem slot_zext (s : State) {h} {d} {a} {i} : s.isSlot h [] (exec (.zext h d a i) s) := by
  rw [exec_zext]
  unfold execZext
  unfold State.sRR
  exact State.isSlot_do ..
theorem slot_pand (s : State) {h} {d} {a} {b} : s.isSlot h [] (exec (.pand h d a b) s) := by
  rw [exec_pand]
  unfold execPand
  unfold State.sPred
  exact State.isSlot_do ..
theorem slot_por (s : State) {h} {d} {a} {b} : s.isSlot h [] (exec (.por h d a b) s) := by
  rw [exec_por]
  unfold execPor
  unfold State.sPred
  exact State.isSlot_do ..
theorem slot_pxor (s : State) {h} {d} {a} {b} : s.isSlot h [] (exec (.pxor h d a b) s) := by
  rw [exec_pxor]
  unfold execPxor
  unfold State.sPred
  exact State.isSlot_do ..
theorem slot_pandn (s : State) {h} {d} {a} {b} : s.isSlot h [] (exec (.pandn h d a b) s) := by
  rw [exec_pandn]
  unfold execPandn
  unfold State.sPred
  exact State.isSlot_do ..
theorem slot_pmov (s : State) {h} {d} {a} {m} : s.isSlot h [] (exec (.pmov h d a m) s) := by
  rw [exec_pmov]
  unfold execPmov
  exact State.isSlot_do ..
theorem slot_nset (s : State) {h} {d} {a} {i} : s.isSlot h [] (exec (.nset h d a i) s) := by
  rw [exec_nset]
  unfold execNset
  exact State.isSlot_do ..
theorem slot_nadv (s : State) {h} {d} {a} {i} : s.isSlot h [] (exec (.nadv h d a i) s) := by
  rw [exec_nadv]
  unfold execNadv
  exact State.isSlot_do ..
theorem slot_nget (s : State) {h} {d} {a} {i} : s.isSlot h [] (exec (.nget h d a i) s) := by
  rw [exec_nget]
  unfold execNget
  exact State.isSlot_do ..
theorem slot_cntrd (s : State) {h} {d} {i} : s.isSlot h [] (exec (.cntrd h d i) s) := by
  rw [exec_cntrd]
  unfold execCntrd
  exact State.isSlot_do ..
theorem slot_movsSFromF (s : State) {h} {d} : s.isSlot h [] (exec (.movsSFromF h d) s) := by
  rw [exec_movsSFromF]
  unfold execMovsSFromF
  exact State.isSlot_do ..
theorem slot_movsFFromS (s : State) {h} {a} : s.isSlot h [] (exec (.movsFFromS h a) s) := by
  rw [exec_movsFFromS]
  unfold execMovsFFromS
  exact State.isSlot_do ..
theorem slot_movsSFromP (s : State) {h} {d} : s.isSlot h [] (exec (.movsSFromP h d) s) := by
  rw [exec_movsSFromP]
  unfold execMovsSFromP
  exact State.isSlot_do ..
theorem slot_movsPFromS (s : State) {h} {a} : s.isSlot h [] (exec (.movsPFromS h a) s) := by
  rw [exec_movsPFromS]
  unfold execMovsPFromS
  exact State.isSlot_do ..
theorem slot_movsSFromLLo (s : State) {h} {d} {a} : s.isSlot h [] (exec (.movsSFromLLo h d a) s) := by
  rw [exec_movsSFromLLo]
  unfold execMovsSFromLLo
  unfold State.movsFromHalf
  exact State.isSlot_do ..
theorem slot_movsSFromLHi (s : State) {h} {d} {a} : s.isSlot h [] (exec (.movsSFromLHi h d a) s) := by
  rw [exec_movsSFromLHi]
  unfold execMovsSFromLHi
  unfold State.movsFromHalf
  exact State.isSlot_do ..
theorem slot_movsLLoFromS (s : State) {h} {d} {a} : s.isSlot h [] (exec (.movsLLoFromS h d a) s) := by
  rw [exec_movsLLoFromS]
  unfold execMovsLLoFromS
  unfold State.movsHalf
  exact State.isSlot_do ..
theorem slot_movsLHiFromS (s : State) {h} {d} {a} : s.isSlot h [] (exec (.movsLHiFromS h d a) s) := by
  rw [exec_movsLHiFromS]
  unfold execMovsLHiFromS
  unfold State.movsHalf
  exact State.isSlot_do ..
theorem slot_ldb (s : State) {h} {d} {a} {i} {ks} : s.isSlot h [] (exec (.ldb h d a i ks) s) := by
  rw [exec_ldb]
  unfold execLdb
  unfold State.loadScalar
  exact State.isSlot_do ..
theorem slot_ldh (s : State) {h} {d} {a} {i} {ks} : s.isSlot h [] (exec (.ldh h d a i ks) s) := by
  rw [exec_ldh]
  unfold execLdh
  unfold State.loadScalar
  exact State.isSlot_do ..
theorem slot_ldw (s : State) {h} {d} {a} {i} {ks} : s.isSlot h [] (exec (.ldw h d a i ks) s) := by
  rw [exec_ldw]
  unfold execLdw
  unfold State.loadScalar
  exact State.isSlot_do ..
theorem slot_ldd (s : State) {h} {d} {a} {i} {ks} : s.isSlot h [] (exec (.ldd h d a i ks) s) := by
  rw [exec_ldd]
  unfold execLdd
  unfold State.loadScalar
  exact State.isSlot_do ..
theorem slot_stb (s : State) {h} {d} {a} {i} {ks} : s.isSlot h [] (exec (.stb h d a i ks) s) := by
  rw [exec_stb]
  unfold execStb
  unfold State.storeScalar
  exact State.isSlot_do ..
theorem slot_sth (s : State) {h} {d} {a} {i} {ks} : s.isSlot h [] (exec (.sth h d a i ks) s) := by
  rw [exec_sth]
  unfold execSth
  unfold State.storeScalar
  exact State.isSlot_do ..
theorem slot_stw (s : State) {h} {d} {a} {i} {ks} : s.isSlot h [] (exec (.stw h d a i ks) s) := by
  rw [exec_stw]
  unfold execStw
  unfold State.storeScalar
  exact State.isSlot_do ..
theorem slot_std (s : State) {h} {d} {a} {i} {ks} : s.isSlot h [] (exec (.std h d a i ks) s) := by
  rw [exec_std]
  unfold execStd
  unfold State.storeScalar
  exact State.isSlot_do ..
theorem slot_ldv (s : State) {h} {d} {a} {i} {md} : s.isSlot h [] (exec (.ldv h d a i md) s) := by
  rw [exec_ldv]
  unfold execLdv
  exact State.isSlot_do ..
theorem slot_stv (s : State) {h} {d} {a} {i} {md} : s.isSlot h [] (exec (.stv h d a i md) s) := by
  rw [exec_stv]
  unfold execStv
  exact State.isSlot_do ..
theorem slot_ldvs (s : State) {h} {d} {a} {b} {m} {md} : s.isSlot h [] (exec (.ldvs h d a b m md) s) := by
  rw [exec_ldvs]
  unfold execLdvs
  exact State.isSlot_do ..
theorem slot_stvs (s : State) {h} {d} {a} {b} {m} {md} : s.isSlot h [] (exec (.stvs h d a b m md) s) := by
  rw [exec_stvs]
  unfold execStvs
  exact State.isSlot_do ..
theorem slot_ldvg (s : State) {h} {d} {a} {b} {m} {md} : s.isSlot h [] (exec (.ldvg h d a b m md) s) := by
  rw [exec_ldvg]
  unfold execLdvg
  exact State.isSlot_do ..
theorem slot_stvg (s : State) {h} {d} {a} {b} {m} {md} : s.isSlot h [] (exec (.stvg h d a b m md) s) := by
  rw [exec_stvg]
  unfold execStvg
  exact State.isSlot_do ..
theorem slot_ldq (s : State) {h} {d} {a} {i} : s.isSlot h [] (exec (.ldq h d a i) s) := by
  rw [exec_ldq]
  unfold execLdq
  exact State.isSlot_do ..
theorem slot_tld (s : State) {h} {d} {a} {md} : s.isSlot h [] (exec (.tld h d a md) s) := by
  rw [exec_tld]
  unfold execTld
  exact State.isSlot_do ..
theorem slot_tst (s : State) {h} {d} {a} {md} : s.isSlot h [] (exec (.tst h d a md) s) := by
  rw [exec_tst]
  unfold execTst
  exact State.isSlot_do ..
theorem slot_prefAddress (s : State) {h} {a} {i} {ks} : s.isSlot h [] (exec (.prefAddress h a i ks) s) := by
  rw [exec_prefAddress]
  unfold execPrefAddress
  exact State.isSlot_do ..
theorem slot_prefHandle (s : State) {h} {a} : s.isSlot h [] (exec (.prefHandle h a) s) := by
  rw [exec_prefHandle]
  unfold execPrefHandle
  exact State.isSlot_do ..
theorem slot_fence (s : State) {h} {b} {f} : s.isSlot h [] (exec (.fence h b f) s) := by
  rw [exec_fence]
  unfold execFence
  exact State.isSlot_do ..
theorem slot_drain (s : State) {h} {p} {sc} : s.isSlot h [] (exec (.drain h p sc) s) := by
  rw [exec_drain]
  unfold execDrain
  exact State.isSlot_do ..
theorem slot_aadd (s : State) {h} {d} {a} {b} {m} : s.isSlot h [] (exec (.aadd h d a b m) s) := by
  rw [exec_aadd]
  unfold execAadd
  unfold State.atomic
  exact State.isSlot_do ..
theorem slot_aand (s : State) {h} {d} {a} {b} {m} : s.isSlot h [] (exec (.aand h d a b m) s) := by
  rw [exec_aand]
  unfold execAand
  unfold State.atomic
  exact State.isSlot_do ..
theorem slot_aor (s : State) {h} {d} {a} {b} {m} : s.isSlot h [] (exec (.aor h d a b m) s) := by
  rw [exec_aor]
  unfold execAor
  unfold State.atomic
  exact State.isSlot_do ..
theorem slot_axor (s : State) {h} {d} {a} {b} {m} : s.isSlot h [] (exec (.axor h d a b m) s) := by
  rw [exec_axor]
  unfold execAxor
  unfold State.atomic
  exact State.isSlot_do ..
theorem slot_amin (s : State) {h} {d} {a} {b} {m} : s.isSlot h [] (exec (.amin h d a b m) s) := by
  rw [exec_amin]
  unfold execAmin
  unfold State.atomic
  exact State.isSlot_do ..
theorem slot_amax (s : State) {h} {d} {a} {b} {m} : s.isSlot h [] (exec (.amax h d a b m) s) := by
  rw [exec_amax]
  unfold execAmax
  unfold State.atomic
  exact State.isSlot_do ..
theorem slot_aminn (s : State) {h} {d} {a} {b} {m} : s.isSlot h [] (exec (.aminn h d a b m) s) := by
  rw [exec_aminn]
  unfold execAminn
  unfold State.atomic
  exact State.isSlot_do ..
theorem slot_amaxn (s : State) {h} {d} {a} {b} {m} : s.isSlot h [] (exec (.amaxn h d a b m) s) := by
  rw [exec_amaxn]
  unfold execAmaxn
  unfold State.atomic
  exact State.isSlot_do ..
theorem slot_axchg (s : State) {h} {d} {a} {b} {m} : s.isSlot h [] (exec (.axchg h d a b m) s) := by
  rw [exec_axchg]
  unfold execAxchg
  unfold State.atomic
  exact State.isSlot_do ..
theorem slot_acas (s : State) {h} {d} {a} {b} {m} : s.isSlot h [] (exec (.acas h d a b m) s) := by
  rw [exec_acas]
  unfold execAcas
  unfold State.atomic
  exact State.isSlot_do ..
theorem slot_vaadd (s : State) {h} {d} {a} {b} {m} {md} : s.isSlot h [] (exec (.vaadd h d a b m md) s) := by
  rw [exec_vaadd]
  unfold execVaadd
  unfold State.vatomic
  exact State.isSlot_do ..
theorem slot_vaor (s : State) {h} {d} {a} {b} {m} {md} : s.isSlot h [] (exec (.vaor h d a b m md) s) := by
  rw [exec_vaor]
  unfold execVaor
  unfold State.vatomic
  exact State.isSlot_do ..
theorem slot_vamax (s : State) {h} {d} {a} {b} {m} {md} : s.isSlot h [] (exec (.vamax h d a b m md) s) := by
  rw [exec_vamax]
  unfold execVamax
  unfold State.vatomic
  exact State.isSlot_do ..
theorem slot_cadd (s : State) {h} {a} {b} : s.isSlot h [] (exec (.cadd h a b) s) := by
  rw [exec_cadd]
  unfold execCadd
  exact State.isSlot_do ..
theorem slot_waitge (s : State) {h} {d} {a} {b} : s.isSlot h [] (exec (.waitge h d a b) s) := by
  rw [exec_waitge]
  unfold execWaitge
  exact State.isSlot_do ..
theorem slot_binit (s : State) {h} {a} {b} : s.isSlot h [] (exec (.binit h a b) s) := by
  rw [exec_binit]
  unfold execBinit
  exact State.isSlot_do ..
theorem slot_barv (s : State) {h} {d} {a} {i} : s.isSlot h [] (exec (.barv h d a i) s) := by
  rw [exec_barv]
  unfold execBarv
  exact State.isSlot_do ..
theorem slot_bwait (s : State) {h} {d} {a} {b} : s.isSlot h [] (exec (.bwait h d a b) s) := by
  rw [exec_bwait]
  unfold execBwait
  exact State.isSlot_do ..
theorem slot_obrkBarrier (s : State) {h} {a} : s.isSlot h [] (exec (.obrkBarrier h a) s) := by
  rw [exec_obrkBarrier]
  unfold execObrkBarrier
  exact State.isSlot_do ..
theorem slot_obrkRing (s : State) {h} {a} : s.isSlot h [] (exec (.obrkRing h a) s) := by
  rw [exec_obrkRing]
  unfold execObrkRing
  exact State.isSlot_do ..
theorem slot_lkreq (s : State) {h} {d} {a} {b} : s.isSlot h [] (exec (.lkreq h d a b) s) := by
  rw [exec_lkreq]
  unfold execLkreq
  unfold State.lockAsk
  exact State.isSlot_do ..
theorem slot_lktry (s : State) {h} {d} {a} {b} : s.isSlot h [] (exec (.lktry h d a b) s) := by
  rw [exec_lktry]
  unfold execLktry
  unfold State.lockAsk
  exact State.isSlot_do ..
theorem slot_lkesc (s : State) {h} {d} {a} {b} : s.isSlot h [] (exec (.lkesc h d a b) s) := by
  rw [exec_lkesc]
  unfold execLkesc
  unfold State.lockAsk
  exact State.isSlot_do ..
theorem slot_lkdwn (s : State) {h} {a} {b} : s.isSlot h [] (exec (.lkdwn h a b) s) := by
  rw [exec_lkdwn]
  unfold execLkdwn
  exact State.isSlot_do ..
theorem slot_lkrel (s : State) {h} {a} {b} : s.isSlot h [] (exec (.lkrel h a b) s) := by
  rw [exec_lkrel]
  unfold execLkrel
  exact State.isSlot_do ..
theorem slot_lkrelAll (s : State) {h} : s.isSlot h [] (exec (.lkrelAll h) s) := by
  rw [exec_lkrelAll]
  unfold execLkrelAll
  exact State.isSlot_do ..
theorem slot_lkqry (s : State) {h} {d} {a} {b} : s.isSlot h [] (exec (.lkqry h d a b) s) := by
  rw [exec_lkqry]
  unfold execLkqry
  unfold State.lockAsk
  exact State.isSlot_do ..
theorem slot_vadd (s : State) {h} {d} {a} {b} {m} {md} : s.isSlot h [] (exec (.vadd h d a b m md) s) := by
  rw [exec_vadd]
  unfold execVadd
  unfold State.vFp
  unfold State.vElems
  exact State.isSlot_v ..
theorem slot_vsub (s : State) {h} {d} {a} {b} {m} {md} : s.isSlot h [] (exec (.vsub h d a b m md) s) := by
  rw [exec_vsub]
  unfold execVsub
  unfold State.vFp
  unfold State.vElems
  exact State.isSlot_v ..
theorem slot_vmul (s : State) {h} {d} {a} {b} {m} {md} : s.isSlot h [] (exec (.vmul h d a b m md) s) := by
  rw [exec_vmul]
  unfold execVmul
  unfold State.vFp
  unfold State.vElems
  exact State.isSlot_v ..
theorem slot_vfma (s : State) {h} {d} {a} {b} {m} {md} : s.isSlot h [] (exec (.vfma h d a b m md) s) := by
  rw [exec_vfma]
  unfold execVfma
  unfold State.vFp
  unfold State.vElems
  exact State.isSlot_v ..
theorem slot_vfms (s : State) {h} {d} {a} {b} {m} {md} : s.isSlot h [] (exec (.vfms h d a b m md) s) := by
  rw [exec_vfms]
  unfold execVfms
  unfold State.vFp
  unfold State.vElems
  exact State.isSlot_v ..
theorem slot_vfnma (s : State) {h} {d} {a} {b} {m} {md} : s.isSlot h [] (exec (.vfnma h d a b m md) s) := by
  rw [exec_vfnma]
  unfold execVfnma
  unfold State.vFp
  unfold State.vElems
  exact State.isSlot_v ..
theorem slot_vmin (s : State) {h} {d} {a} {b} {m} {md} : s.isSlot h [] (exec (.vmin h d a b m md) s) := by
  rw [exec_vmin]
  unfold execVmin
  unfold State.vElems
  exact State.isSlot_v ..
theorem slot_vmax (s : State) {h} {d} {a} {b} {m} {md} : s.isSlot h [] (exec (.vmax h d a b m md) s) := by
  rw [exec_vmax]
  unfold execVmax
  unfold State.vElems
  exact State.isSlot_v ..
theorem slot_vabs (s : State) {h} {d} {a} {m} {md} : s.isSlot h [] (exec (.vabs h d a m md) s) := by
  rw [exec_vabs]
  unfold execVabs
  unfold State.vFp1
  unfold State.vElems
  exact State.isSlot_v ..
theorem slot_vneg (s : State) {h} {d} {a} {m} {md} : s.isSlot h [] (exec (.vneg h d a m md) s) := by
  rw [exec_vneg]
  unfold execVneg
  unfold State.vFp1
  unfold State.vElems
  exact State.isSlot_v ..
theorem slot_vdiv (s : State) {h} {d} {a} {b} {m} {md} : s.isSlot h [] (exec (.vdiv h d a b m md) s) := by
  rw [exec_vdiv]
  unfold execVdiv
  unfold State.vIlk
  exact State.isSlot_v ..
theorem slot_vsqrt (s : State) {h} {d} {a} {m} {md} : s.isSlot h [] (exec (.vsqrt h d a m md) s) := by
  rw [exec_vsqrt]
  unfold execVsqrt
  unfold State.vFpIlk
  unfold State.vIlk
  exact State.isSlot_v ..
theorem slot_vrcp (s : State) {h} {d} {a} {m} {md} : s.isSlot h [] (exec (.vrcp h d a m md) s) := by
  rw [exec_vrcp]
  unfold execVrcp
  unfold State.vFpIlk
  unfold State.vIlk
  exact State.isSlot_v ..
theorem slot_vrsq (s : State) {h} {d} {a} {m} {md} : s.isSlot h [] (exec (.vrsq h d a m md) s) := by
  rw [exec_vrsq]
  unfold execVrsq
  unfold State.vFpIlk
  unfold State.vIlk
  exact State.isSlot_v ..
theorem slot_vexp (s : State) {h} {d} {a} {m} {md} : s.isSlot h [] (exec (.vexp h d a m md) s) := by
  rw [exec_vexp]
  unfold execVexp
  unfold State.vFpIlk
  unfold State.vIlk
  exact State.isSlot_v ..
theorem slot_vlog (s : State) {h} {d} {a} {m} {md} : s.isSlot h [] (exec (.vlog h d a m md) s) := by
  rw [exec_vlog]
  unfold execVlog
  unfold State.vFpIlk
  unfold State.vIlk
  exact State.isSlot_v ..
theorem slot_vtanh (s : State) {h} {d} {a} {m} {md} : s.isSlot h [] (exec (.vtanh h d a m md) s) := by
  rw [exec_vtanh]
  unfold execVtanh
  unfold State.vFpIlk
  unfold State.vIlk
  exact State.isSlot_v ..
theorem slot_vcvt (s : State) {h} {d} {a} {x} {p} {r} {md} : s.isSlot h [] (exec (.vcvt h d a x p r md) s) := by
  rw [exec_vcvt]
  unfold execVcvt
  exact State.isSlot_v ..
theorem slot_vcmp (s : State) {h} {c} {f} {a} {b} {m} {md} : s.isSlot h [] (exec (.vcmp h c f a b m md) s) := by
  rw [exec_vcmp]
  unfold execVcmp
  exact State.isSlot_v ..
theorem slot_vsel (s : State) {h} {d} {a} {b} {md} : s.isSlot h [] (exec (.vsel h d a b md) s) := by
  rw [exec_vsel]
  unfold execVsel
  exact State.isSlot_v ..
theorem slot_viadd (s : State) {h} {d} {a} {b} {m} {md} : s.isSlot h [] (exec (.viadd h d a b m md) s) := by
  rw [exec_viadd]
  unfold execViadd
  unfold State.vInt
  unfold State.vElems
  exact State.isSlot_v ..
theorem slot_visub (s : State) {h} {d} {a} {b} {m} {md} : s.isSlot h [] (exec (.visub h d a b m md) s) := by
  rw [exec_visub]
  unfold execVisub
  unfold State.vInt
  unfold State.vElems
  exact State.isSlot_v ..
theorem slot_vimul (s : State) {h} {d} {a} {b} {m} {md} : s.isSlot h [] (exec (.vimul h d a b m md) s) := by
  rw [exec_vimul]
  unfold execVimul
  unfold State.vInt
  unfold State.vElems
  exact State.isSlot_v ..
theorem slot_vimulh (s : State) {h} {d} {a} {b} {m} {md} : s.isSlot h [] (exec (.vimulh h d a b m md) s) := by
  rw [exec_vimulh]
  unfold execVimulh
  unfold State.vInt
  unfold State.vElems
  exact State.isSlot_v ..
theorem slot_vand (s : State) {h} {d} {a} {b} {md} : s.isSlot h [] (exec (.vand h d a b md) s) := by
  rw [exec_vand]
  unfold execVand
  unfold State.vBit
  unfold State.vElems
  exact State.isSlot_v ..
theorem slot_vor (s : State) {h} {d} {a} {b} {md} : s.isSlot h [] (exec (.vor h d a b md) s) := by
  rw [exec_vor]
  unfold execVor
  unfold State.vBit
  unfold State.vElems
  exact State.isSlot_v ..
theorem slot_vxor (s : State) {h} {d} {a} {b} {md} : s.isSlot h [] (exec (.vxor h d a b md) s) := by
  rw [exec_vxor]
  unfold execVxor
  unfold State.vBit
  unfold State.vElems
  exact State.isSlot_v ..
theorem slot_vshl (s : State) {h} {d} {a} {b} {m} {md} : s.isSlot h [] (exec (.vshl h d a b m md) s) := by
  rw [exec_vshl]
  unfold execVshl
  unfold State.vInt
  unfold State.vElems
  exact State.isSlot_v ..
theorem slot_vshr (s : State) {h} {d} {a} {b} {m} {md} : s.isSlot h [] (exec (.vshr h d a b m md) s) := by
  rw [exec_vshr]
  unfold execVshr
  unfold State.vInt
  unfold State.vElems
  exact State.isSlot_v ..
theorem slot_vsra (s : State) {h} {d} {a} {b} {m} {md} : s.isSlot h [] (exec (.vsra h d a b m md) s) := by
  rw [exec_vsra]
  unfold execVsra
  unfold State.vInt
  unfold State.vElems
  exact State.isSlot_v ..
theorem slot_vimin (s : State) {h} {d} {a} {b} {m} {md} : s.isSlot h [] (exec (.vimin h d a b m md) s) := by
  rw [exec_vimin]
  unfold execVimin
  unfold State.vInt
  unfold State.vElems
  exact State.isSlot_v ..
theorem slot_vimax (s : State) {h} {d} {a} {b} {m} {md} : s.isSlot h [] (exec (.vimax h d a b m md) s) := by
  rw [exec_vimax]
  unfold execVimax
  unfold State.vInt
  unfold State.vElems
  exact State.isSlot_v ..
theorem slot_vpopc (s : State) {h} {d} {a} {m} {md} : s.isSlot h [] (exec (.vpopc h d a m md) s) := by
  rw [exec_vpopc]
  unfold execVpopc
  unfold State.vElems
  exact State.isSlot_v ..
theorem slot_vclz (s : State) {h} {d} {a} {m} {md} : s.isSlot h [] (exec (.vclz h d a m md) s) := by
  rw [exec_vclz]
  unfold execVclz
  unfold State.vElems
  exact State.isSlot_v ..
theorem slot_vperm (s : State) {h} {d} {a} {b} {m} {md} : s.isSlot h [] (exec (.vperm h d a b m md) s) := by
  rw [exec_vperm]
  unfold execVperm
  unfold State.vMove
  unfold State.vElems
  exact State.isSlot_v ..
theorem slot_vbcast (s : State) {h} {d} {a} {m} {md} : s.isSlot h [] (exec (.vbcast h d a m md) s) := by
  rw [exec_vbcast]
  unfold execVbcast
  unfold State.vMove
  unfold State.vElems
  exact State.isSlot_v ..
theorem slot_vext (s : State) {h} {d} {a} {b} {m} : s.isSlot h [] (exec (.vext h d a b m) s) := by
  rw [exec_vext]
  unfold execVext
  unfold State.vScalar
  exact State.isSlot_v ..
theorem slot_vins (s : State) {h} {d} {a} {b} {m} : s.isSlot h [] (exec (.vins h d a b m) s) := by
  rw [exec_vins]
  unfold execVins
  exact State.isSlot_v ..
theorem slot_viota (s : State) {h} {d} {a} {b} {m} {md} : s.isSlot h [] (exec (.viota h d a b m md) s) := by
  rw [exec_viota]
  unfold execViota
  unfold State.vMove
  unfold State.vElems
  exact State.isSlot_v ..
theorem slot_vslide (s : State) {h} {d} {a} {i} {md} : s.isSlot h [] (exec (.vslide h d a i md) s) := by
  rw [exec_vslide]
  unfold execVslide
  unfold State.vMove
  unfold State.vElems
  exact State.isSlot_v ..
theorem slot_vred (s : State) {h} {d} {a} {b} {m} {md} : s.isSlot h [] (exec (.vred h d a b m md) s) := by
  rw [exec_vred]
  unfold execVred
  exact State.isSlot_v ..
theorem slot_vscan (s : State) {h} {d} {a} {b} {m} {md} : s.isSlot h [] (exec (.vscan h d a b m md) s) := by
  rw [exec_vscan]
  unfold execVscan
  exact State.isSlot_v ..
theorem slot_vmov (s : State) {h} {d} {a} {m} {md} : s.isSlot h [] (exec (.vmov h d a m md) s) := by
  rw [exec_vmov]
  unfold execVmov
  simp only []
  split
  · unfold State.vMove State.vElems
    exact State.isSlot_v ..
  · exact State.isSlot_v ..
  · unfold State.vMove State.vElems
    exact State.isSlot_v ..
theorem slot_vcomp (s : State) {h} {d} {a} {m} {md} : s.isSlot h [] (exec (.vcomp h d a m md) s) := by
  rw [exec_vcomp]
  unfold execVcomp
  exact State.isSlot_v ..
theorem slot_lmand (s : State) {h} {d} {a} {b} : s.isSlot h [] (exec (.lmand h d a b) s) := by
  rw [exec_lmand]
  unfold execLmand
  unfold State.lmOp
  exact State.isSlot_v ..
theorem slot_lmor (s : State) {h} {d} {a} {b} : s.isSlot h [] (exec (.lmor h d a b) s) := by
  rw [exec_lmor]
  unfold execLmor
  unfold State.lmOp
  exact State.isSlot_v ..
theorem slot_lmnot (s : State) {h} {d} {a} : s.isSlot h [] (exec (.lmnot h d a) s) := by
  rw [exec_lmnot]
  unfold execLmnot
  unfold State.lmOp
  exact State.isSlot_v ..
theorem slot_lmpop (s : State) {h} {d} {a} : s.isSlot h [] (exec (.lmpop h d a) s) := by
  rw [exec_lmpop]
  unfold execLmpop
  unfold State.vScalar
  exact State.isSlot_v ..
theorem slot_vsig (s : State) {h} {d} {a} : s.isSlot h [] (exec (.vsig h d a) s) := by
  rw [exec_vsig]
  unfold execVsig
  exact State.isSlot_v ..
theorem slot_lxadd (s : State) {h} {d} {a} {b} {m} {md} : s.isSlot h (if (s.core (coreOf s.cur)).iter.contains s.iss.unit then [.stall (.iter s.iss.unit)]
      else [.useIter s.iss.unit]) (exec (.lxadd h d a b m md) s) := by
  rw [exec_lxadd]
  unfold execLxadd
  unfold State.lxArith
  exact State.isSlot_lx ..
theorem slot_lxsub (s : State) {h} {d} {a} {b} {m} {md} : s.isSlot h (if (s.core (coreOf s.cur)).iter.contains s.iss.unit then [.stall (.iter s.iss.unit)]
      else [.useIter s.iss.unit]) (exec (.lxsub h d a b m md) s) := by
  rw [exec_lxsub]
  unfold execLxsub
  unfold State.lxArith
  exact State.isSlot_lx ..
theorem slot_lxmul (s : State) {h} {d} {a} {b} {m} {md} : s.isSlot h (if (s.core (coreOf s.cur)).iter.contains s.iss.unit then [.stall (.iter s.iss.unit)]
      else [.useIter s.iss.unit]) (exec (.lxmul h d a b m md) s) := by
  rw [exec_lxmul]
  unfold execLxmul
  unfold State.lxArith
  exact State.isSlot_lx ..
theorem slot_lxdiv (s : State) {h} {d} {a} {b} {m} {md} : s.isSlot h (if (s.core (coreOf s.cur)).iter.contains s.iss.unit then [.stall (.iter s.iss.unit)]
      else [.useIter s.iss.unit]) (exec (.lxdiv h d a b m md) s) := by
  rw [exec_lxdiv]
  unfold execLxdiv
  unfold State.lxArith
  exact State.isSlot_lx ..
theorem slot_lxcvt (s : State) {h} {d} {a} {x} {w} {r} {md} : s.isSlot h (if (s.core (coreOf s.cur)).iter.contains s.iss.unit then [.stall (.iter s.iss.unit)]
      else [.useIter s.iss.unit]) (exec (.lxcvt h d a x w r md) s) := by
  rw [exec_lxcvt]
  unfold execLxcvt
  exact State.isSlot_lx ..
theorem slot_lxcmp (s : State) {h} {c} {a} {b} {m} {md} : s.isSlot h (if (s.core (coreOf s.cur)).iter.contains s.iss.unit then [.stall (.iter s.iss.unit)]
      else [.useIter s.iss.unit]) (exec (.lxcmp h c a b m md) s) := by
  rw [exec_lxcmp]
  unfold execLxcmp
  exact State.isSlot_lx ..
theorem slot_lxsum (s : State) {h} {d} {a} {m} {md} : s.isSlot h (if (s.core (coreOf s.cur)).iter.contains s.iss.unit then [.stall (.iter s.iss.unit)]
      else [.useIter s.iss.unit]) (exec (.lxsum h d a m md) s) := by
  rw [exec_lxsum]
  unfold execLxsum
  exact State.isSlot_lx ..
theorem slot_lxln (s : State) {h} {d} {a} {m} {md} : s.isSlot h (if (s.core (coreOf s.cur)).iter.contains s.iss.unit then [.stall (.iter s.iss.unit)]
      else [.useIter s.iss.unit]) (exec (.lxln h d a m md) s) := by
  rw [exec_lxln]
  unfold execLxln
  exact State.isSlot_lx ..
theorem slot_xwld (s : State) {h} {a} {b} {m} : s.isSlot h [] (exec (.xwld h a b m) s) := by
  rw [exec_xwld]
  unfold execXwld
  exact State.isSlot_do ..
theorem slot_xmac (s : State) {h} {a} {ds} : s.isSlot h [] (exec (.xmac h a ds) s) := by
  rw [exec_xmac]
  unfold execXmac
  exact State.isSlot_xmac ..
theorem slot_xmacz (s : State) {h} {a} {ds} : s.isSlot h [] (exec (.xmacz h a ds) s) := by
  rw [exec_xmacz]
  unfold execXmacz
  exact State.isSlot_xmac ..
theorem slot_xbegin (s : State) {h} : s.isSlot h [] (exec (.xbegin h) s) := by
  rw [exec_xbegin]
  unfold execXbegin
  exact State.isSlot_do ..
theorem slot_xend (s : State) {h} : s.isSlot h [] (exec (.xend h) s) := by
  rw [exec_xend]
  unfold execXend
  exact State.isSlot_do ..
theorem slot_xepi (s : State) {h} {a} {b} {ds} : s.isSlot h [] (exec (.xepi h a b ds) s) := by
  rw [exec_xepi]
  unfold execXepi
  unfold State.xout
  exact State.isSlot_do ..
theorem slot_xaccld (s : State) {h} {a} {b} {ds} : s.isSlot h [] (exec (.xaccld h a b ds) s) := by
  rw [exec_xaccld]
  unfold execXaccld
  exact State.isSlot_do ..
theorem slot_xaccst (s : State) {h} {a} {b} {ds} : s.isSlot h [] (exec (.xaccst h a b ds) s) := by
  rw [exec_xaccst]
  unfold execXaccst
  unfold State.xout
  exact State.isSlot_do ..
theorem slot_xchk (s : State) {h} {d} {ds} : s.isSlot h [] (exec (.xchk h d ds) s) := by
  rw [exec_xchk]
  unfold execXchk
  exact State.isSlot_do ..
theorem slot_xfix (s : State) {h} {d} {a} : s.isSlot h [] (exec (.xfix h d a) s) := by
  rw [exec_xfix]
  unfold execXfix
  exact State.isSlot_do ..
theorem slot_xclr (s : State) {h} {ds} : s.isSlot h [] (exec (.xclr h ds) s) := by
  rw [exec_xclr]
  unfold execXclr
  exact State.isSlot_do ..
theorem slot_xcfg (s : State) {h} {a} : s.isSlot h [] (exec (.xcfg h a) s) := by
  rw [exec_xcfg]
  unfold execXcfg
  exact State.isSlot_do ..
theorem slot_cpyHandle (s : State) {h} {d} {a} {b} : s.isSlot h [] (exec (.cpyHandle h d a b) s) := by
  rw [exec_cpyHandle]
  unfold execCpyHandle
  exact State.isSlot_do ..
theorem slot_cpyAddress (s : State) {h} {d} {a} {b} : s.isSlot h [] (exec (.cpyAddress h d a b) s) := by
  rw [exec_cpyAddress]
  unfold execCpyAddress
  exact State.isSlot_do ..
theorem slot_cpypHandle (s : State) {h} {d} {a} {b} : s.isSlot h [] (exec (.cpypHandle h d a b) s) := by
  rw [exec_cpypHandle]
  unfold execCpypHandle
  exact State.isSlot_do ..
theorem slot_cpypAddress (s : State) {h} {d} {a} {b} : s.isSlot h [] (exec (.cpypAddress h d a b) s) := by
  rw [exec_cpypAddress]
  unfold execCpypAddress
  exact State.isSlot_do ..
theorem slot_cpyw (s : State) {h} {a} {b} : s.isSlot h [] (exec (.cpyw h a b) s) := by
  rw [exec_cpyw]
  unfold execCpyw
  exact State.isSlot_do ..
theorem slot_subsLoad (s : State) {h} {d} {a} {b} : s.isSlot h [] (exec (.subsLoad h d a b) s) := by
  rw [exec_subsLoad]
  unfold execSubsLoad
  unfold State.subscribe
  exact State.isSlot_do ..
theorem slot_subsStore (s : State) {h} {d} {a} {b} : s.isSlot h [] (exec (.subsStore h d a b) s) := by
  rw [exec_subsStore]
  unfold execSubsStore
  unfold State.subscribe
  exact State.isSlot_do ..
theorem slot_sube (s : State) {h} {d} : s.isSlot h [] (exec (.sube h d) s) := by
  rw [exec_sube]
  unfold execSube
  exact State.isSlot_do ..
theorem slot_hset (s : State) {h} {d} {a} : s.isSlot h [] (exec (.hset h d a) s) := by
  rw [exec_hset]
  unfold execHset
  exact State.isSlot_do ..
theorem slot_hwait (s : State) {h} {d} {a} {i} : s.isSlot h [] (exec (.hwait h d a i) s) := by
  rw [exec_hwait]
  unfold execHwait
  exact State.isSlot_do ..
theorem slot_hadv (s : State) {h} {a} {i} : s.isSlot h [] (exec (.hadv h a i) s) := by
  rw [exec_hadv]
  unfold execHadv
  exact State.isSlot_do ..
theorem slot_tspawn (s : State) {h} {d} {a} {b} : s.isSlot h [] (exec (.tspawn h d a b) s) := by
  rw [exec_tspawn]
  unfold execTspawn
  exact State.isSlot_do ..
theorem slot_klaunch (s : State) {h} {a} : s.isSlot h [] (exec (.klaunch h a) s) := by
  rw [exec_klaunch]
  unfold execKlaunch
  exact State.isSlot_do ..
theorem slot_coll (s : State) {h} {d} {a} {b} : s.isSlot h [] (exec (.coll h d a b) s) := by
  rw [exec_coll]
  unfold execColl
  exact State.isSlot_do ..
theorem slot_fput (s : State) {h} {d} {a} {b} : s.isSlot h [] (exec (.fput h d a b) s) := by
  rw [exec_fput]
  unfold execFput
  exact State.isSlot_do ..
theorem slot_qstat (s : State) {h} {d} {a} {i} : s.isSlot h [] (exec (.qstat h d a i) s) := by
  rw [exec_qstat]
  unfold execQstat
  exact State.isSlot_do ..
theorem slot_ckpt (s : State) {h} : s.isSlot h [] (exec (.ckpt h) s) := by
  rw [exec_ckpt]
  unfold execCkpt
  exact State.isSlot_do ..
theorem slot_cmpt (s : State) {h} {a} {b} {m} : s.isSlot h [] (exec (.cmpt h a b m) s) := by
  rw [exec_cmpt]
  unfold execCmpt
  exact State.isSlot_do ..
theorem slot_sigrd (s : State) {h} {d} {m} : s.isSlot h [] (exec (.sigrd h d m) s) := by
  rw [exec_sigrd]
  unfold execSigrd
  exact State.isSlot_do ..
theorem slot_phint (s : State) {h} {i} {k1} {k2} : s.isSlot h [] (exec (.phint h i k1 k2) s) := by
  rw [exec_phint]
  unfold execPhint
  exact State.isSlot_do ..
theorem slot_csrr (s : State) {h} {d} {i} : s.isSlot h [] (exec (.csrr h d i) s) := by
  rw [exec_csrr]
  unfold execCsrr
  exact State.isSlot_do ..
theorem slot_csrw (s : State) {h} {d} {i} : s.isSlot h [] (exec (.csrw h d i) s) := by
  rw [exec_csrw]
  unfold execCsrw
  exact State.isSlot_do ..
theorem slot_csrs (s : State) {h} {d} {i} : s.isSlot h [] (exec (.csrs h d i) s) := by
  rw [exec_csrs]
  unfold execCsrs
  exact State.isSlot_do ..
theorem slot_csrc (s : State) {h} {d} {i} : s.isSlot h [] (exec (.csrc h d i) s) := by
  rw [exec_csrc]
  unfold execCsrc
  exact State.isSlot_do ..
theorem slot_eretRestore (s : State) {h} : s.isSlot h [] (exec (.eretRestore h) s) := by
  rw [exec_eretRestore]
  unfold execEretRestore
  exact State.isSlot_do ..
theorem slot_eretContinue (s : State) {h} {a} : s.isSlot h [] (exec (.eretContinue h a) s) := by
  rw [exec_eretContinue]
  unfold execEretContinue
  exact State.isSlot_do ..
theorem slot_sysc (s : State) {h} {i} : s.isSlot h [] (exec (.sysc h i) s) := by
  rw [exec_sysc]
  unfold execSysc
  exact State.isSlot_do ..
theorem slot_step (s : State) {h} {a} : s.isSlot h [] (exec (.step h a) s) := by
  rw [exec_step]
  unfold execStep
  exact State.isSlot_do ..
theorem slot_abort (s : State) {h} {a} : s.isSlot h [] (exec (.abort h a) s) := by
  rw [exec_abort]
  unfold execAbort
  exact State.isSlot_do ..
theorem slot_ttinvTile (s : State) {h} {a} {b} : s.isSlot h [] (exec (.ttinvTile h a b) s) := by
  rw [exec_ttinvTile]
  unfold execTtinvTile
  unfold State.ttinv
  exact State.isSlot_do ..
theorem slot_ttinvTensor (s : State) {h} {a} : s.isSlot h [] (exec (.ttinvTensor h a) s) := by
  rw [exec_ttinvTensor]
  unfold execTtinvTensor
  unfold State.ttinv
  exact State.isSlot_do ..
theorem slot_ttinvAsid (s : State) {h} : s.isSlot h [] (exec (.ttinvAsid h) s) := by
  rw [exec_ttinvAsid]
  unfold execTtinvAsid
  unfold State.ttinv
  exact State.isSlot_do ..
theorem slot_ttinvAll (s : State) {h} : s.isSlot h [] (exec (.ttinvAll h) s) := by
  rw [exec_ttinvAll]
  unfold execTtinvAll
  unfold State.ttinv
  exact State.isSlot_do ..
theorem slot_icinvCore (s : State) {h} {a} {b} : s.isSlot h [] (exec (.icinvCore h a b) s) := by
  rw [exec_icinvCore]
  unfold execIcinvCore
  unfold State.icinv
  exact State.isSlot_do ..
theorem slot_icinvPkg (s : State) {h} {a} {b} : s.isSlot h [] (exec (.icinvPkg h a b) s) := by
  rw [exec_icinvPkg]
  unfold execIcinvPkg
  unfold State.icinv
  exact State.isSlot_do ..
theorem slot_attq (s : State) {h} {d} {a} {b} : s.isSlot h [] (exec (.attq h d a b) s) := by
  rw [exec_attq]
  unfold execAttq
  exact State.isSlot_do ..

/-- What a slot asks for when its guard is false (02 R29; 04 R75; 09 R189). -/
def State.offActs (s : State) : Instr → List Act
  | .br _ _ _ | .bri _ _ _ | .call _ _ _ | .calli _ _ _ | .ret _ | .loopb _ _ _ _ => s.noTransfer
  | .lxadd _ _ _ _ _ _ | .lxsub _ _ _ _ _ _ | .lxmul _ _ _ _ _ _ | .lxdiv _ _ _ _ _ _
  | .lxcvt _ _ _ _ _ _ _ | .lxcmp _ _ _ _ _ _ | .lxsum _ _ _ _ _ | .lxln _ _ _ _ _ =>
    if (s.core (coreOf s.cur)).iter.contains s.iss.unit then [.stall (.iter s.iss.unit)] else [.useIter s.iss.unit]
  | _ => []

/-- Every instruction of a bundle is a NOP or a slot with its head. -/
theorem slot_cases (x : Instr) (hw : slotWord x ≠ 0 ∨ x = .nopC) (s : State) :
    exec x s = .next (s.retire []) ∨ s.isSlot (headOfInstr x) (s.offActs x) (exec x s) := by
  cases x
  case nopC => exact .inl rfl
  case nopS => exact .inl rfl
  case nopM => exact .inl rfl
  case nopV => exact .inl rfl
  case nopX => exact .inl rfl
  case nopQ => exact .inl rfl
  case nopG => exact .inl rfl
  case br h i ks => exact .inr (@slot_br s h i ks)
  case bri h a i => exact .inr (@slot_bri s h a i)
  case call h i ks => exact .inr (@slot_call s h i ks)
  case calli h a i => exact .inr (@slot_calli s h a i)
  case ret h => exact .inr (@slot_ret s h)
  case loopi h d a i => exact .inr (@slot_loopi s h d a i)
  case loopb h d i ks => exact .inr (@slot_loopb s h d i ks)
  case yield h => exact .inr (@slot_yield s h)
  case waitf h l k => exact .inr (@slot_waitf s h l k)
  case tend h => exact .inr (@slot_tend s h)
  case trap h i => exact .inr (@slot_trap s h i)
  case add h d a b => exact .inr (@slot_add s h d a b)
  case sub h d a b => exact .inr (@slot_sub s h d a b)
  case addi h d a i ks => exact .inr (@slot_addi s h d a i ks)
  case mul h d a b => exact .inr (@slot_mul s h d a b)
  case mulh h d a b => exact .inr (@slot_mulh s h d a b)
  case mulhn h d a b => exact .inr (@slot_mulhn s h d a b)
  case div h d a b => exact .inr (@slot_div s h d a b)
  case divn h d a b => exact .inr (@slot_divn s h d a b)
  case rem h d a b => exact .inr (@slot_rem s h d a b)
  case remn h d a b => exact .inr (@slot_remn s h d a b)
  case and h d a b => exact .inr (@slot_and s h d a b)
  case or h d a b => exact .inr (@slot_or s h d a b)
  case xor h d a b => exact .inr (@slot_xor s h d a b)
  case andn h d a b => exact .inr (@slot_andn s h d a b)
  case andi h d a i ks => exact .inr (@slot_andi s h d a i ks)
  case ori h d a i ks => exact .inr (@slot_ori s h d a i ks)
  case xori h d a i ks => exact .inr (@slot_xori s h d a i ks)
  case shl h d a b => exact .inr (@slot_shl s h d a b)
  case shr h d a b => exact .inr (@slot_shr s h d a b)
  case sra h d a b => exact .inr (@slot_sra s h d a b)
  case shli h d a i => exact .inr (@slot_shli s h d a i)
  case shri h d a i => exact .inr (@slot_shri s h d a i)
  case srai h d a i => exact .inr (@slot_srai s h d a i)
  case rotl h d a b => exact .inr (@slot_rotl s h d a b)
  case clz h d a => exact .inr (@slot_clz s h d a)
  case ctz h d a => exact .inr (@slot_ctz s h d a)
  case popc h d a => exact .inr (@slot_popc s h d a)
  case min h d a b => exact .inr (@slot_min s h d a b)
  case max h d a b => exact .inr (@slot_max s h d a b)
  case minn h d a b => exact .inr (@slot_minn s h d a b)
  case maxn h d a b => exact .inr (@slot_maxn s h d a b)
  case sel h d a b m => exact .inr (@slot_sel s h d a b m)
  case cmpeq h d a b m => exact .inr (@slot_cmpeq s h d a b m)
  case cmpne h d a b m => exact .inr (@slot_cmpne s h d a b m)
  case cmplt h d a b m => exact .inr (@slot_cmplt s h d a b m)
  case cmpltn h d a b m => exact .inr (@slot_cmpltn s h d a b m)
  case cmpge h d a b m => exact .inr (@slot_cmpge s h d a b m)
  case cmpgen h d a b m => exact .inr (@slot_cmpgen s h d a b m)
  case cmpeqi h d a i ks => exact .inr (@slot_cmpeqi s h d a i ks)
  case cmplti h d a i ks => exact .inr (@slot_cmplti s h d a i ks)
  case movi h d i ks => exact .inr (@slot_movi s h d i ks)
  case movhi h d i ks => exact .inr (@slot_movhi s h d i ks)
  case madd h d a b => exact .inr (@slot_madd s h d a b)
  case bfx h d a b m => exact .inr (@slot_bfx s h d a b m)
  case bfi h d a b => exact .inr (@slot_bfi s h d a b)
  case sext h d a i => exact .inr (@slot_sext s h d a i)
  case zext h d a i => exact .inr (@slot_zext s h d a i)
  case pand h d a b => exact .inr (@slot_pand s h d a b)
  case por h d a b => exact .inr (@slot_por s h d a b)
  case pxor h d a b => exact .inr (@slot_pxor s h d a b)
  case pandn h d a b => exact .inr (@slot_pandn s h d a b)
  case pmov h d a m => exact .inr (@slot_pmov s h d a m)
  case nset h d a i => exact .inr (@slot_nset s h d a i)
  case nadv h d a i => exact .inr (@slot_nadv s h d a i)
  case nget h d a i => exact .inr (@slot_nget s h d a i)
  case cntrd h d i => exact .inr (@slot_cntrd s h d i)
  case movsSFromF h d => exact .inr (@slot_movsSFromF s h d)
  case movsFFromS h a => exact .inr (@slot_movsFFromS s h a)
  case movsSFromP h d => exact .inr (@slot_movsSFromP s h d)
  case movsPFromS h a => exact .inr (@slot_movsPFromS s h a)
  case movsSFromLLo h d a => exact .inr (@slot_movsSFromLLo s h d a)
  case movsSFromLHi h d a => exact .inr (@slot_movsSFromLHi s h d a)
  case movsLLoFromS h d a => exact .inr (@slot_movsLLoFromS s h d a)
  case movsLHiFromS h d a => exact .inr (@slot_movsLHiFromS s h d a)
  case ldb h d a i ks => exact .inr (@slot_ldb s h d a i ks)
  case ldh h d a i ks => exact .inr (@slot_ldh s h d a i ks)
  case ldw h d a i ks => exact .inr (@slot_ldw s h d a i ks)
  case ldd h d a i ks => exact .inr (@slot_ldd s h d a i ks)
  case stb h d a i ks => exact .inr (@slot_stb s h d a i ks)
  case sth h d a i ks => exact .inr (@slot_sth s h d a i ks)
  case stw h d a i ks => exact .inr (@slot_stw s h d a i ks)
  case std h d a i ks => exact .inr (@slot_std s h d a i ks)
  case ldv h d a i md => exact .inr (@slot_ldv s h d a i md)
  case stv h d a i md => exact .inr (@slot_stv s h d a i md)
  case ldvs h d a b m md => exact .inr (@slot_ldvs s h d a b m md)
  case stvs h d a b m md => exact .inr (@slot_stvs s h d a b m md)
  case ldvg h d a b m md => exact .inr (@slot_ldvg s h d a b m md)
  case stvg h d a b m md => exact .inr (@slot_stvg s h d a b m md)
  case ldq h d a i => exact .inr (@slot_ldq s h d a i)
  case tld h d a md => exact .inr (@slot_tld s h d a md)
  case tst h d a md => exact .inr (@slot_tst s h d a md)
  case prefAddress h a i ks => exact .inr (@slot_prefAddress s h a i ks)
  case prefHandle h a => exact .inr (@slot_prefHandle s h a)
  case fence h b f => exact .inr (@slot_fence s h b f)
  case drain h p sc => exact .inr (@slot_drain s h p sc)
  case aadd h d a b m => exact .inr (@slot_aadd s h d a b m)
  case aand h d a b m => exact .inr (@slot_aand s h d a b m)
  case aor h d a b m => exact .inr (@slot_aor s h d a b m)
  case axor h d a b m => exact .inr (@slot_axor s h d a b m)
  case amin h d a b m => exact .inr (@slot_amin s h d a b m)
  case amax h d a b m => exact .inr (@slot_amax s h d a b m)
  case aminn h d a b m => exact .inr (@slot_aminn s h d a b m)
  case amaxn h d a b m => exact .inr (@slot_amaxn s h d a b m)
  case axchg h d a b m => exact .inr (@slot_axchg s h d a b m)
  case acas h d a b m => exact .inr (@slot_acas s h d a b m)
  case vaadd h d a b m md => exact .inr (@slot_vaadd s h d a b m md)
  case vaor h d a b m md => exact .inr (@slot_vaor s h d a b m md)
  case vamax h d a b m md => exact .inr (@slot_vamax s h d a b m md)
  case cadd h a b => exact .inr (@slot_cadd s h a b)
  case waitge h d a b => exact .inr (@slot_waitge s h d a b)
  case binit h a b => exact .inr (@slot_binit s h a b)
  case barv h d a i => exact .inr (@slot_barv s h d a i)
  case bwait h d a b => exact .inr (@slot_bwait s h d a b)
  case obrkBarrier h a => exact .inr (@slot_obrkBarrier s h a)
  case obrkRing h a => exact .inr (@slot_obrkRing s h a)
  case lkreq h d a b => exact .inr (@slot_lkreq s h d a b)
  case lktry h d a b => exact .inr (@slot_lktry s h d a b)
  case lkesc h d a b => exact .inr (@slot_lkesc s h d a b)
  case lkdwn h a b => exact .inr (@slot_lkdwn s h a b)
  case lkrel h a b => exact .inr (@slot_lkrel s h a b)
  case lkrelAll h => exact .inr (@slot_lkrelAll s h)
  case lkqry h d a b => exact .inr (@slot_lkqry s h d a b)
  case vadd h d a b m md => exact .inr (@slot_vadd s h d a b m md)
  case vsub h d a b m md => exact .inr (@slot_vsub s h d a b m md)
  case vmul h d a b m md => exact .inr (@slot_vmul s h d a b m md)
  case vfma h d a b m md => exact .inr (@slot_vfma s h d a b m md)
  case vfms h d a b m md => exact .inr (@slot_vfms s h d a b m md)
  case vfnma h d a b m md => exact .inr (@slot_vfnma s h d a b m md)
  case vmin h d a b m md => exact .inr (@slot_vmin s h d a b m md)
  case vmax h d a b m md => exact .inr (@slot_vmax s h d a b m md)
  case vabs h d a m md => exact .inr (@slot_vabs s h d a m md)
  case vneg h d a m md => exact .inr (@slot_vneg s h d a m md)
  case vdiv h d a b m md => exact .inr (@slot_vdiv s h d a b m md)
  case vsqrt h d a m md => exact .inr (@slot_vsqrt s h d a m md)
  case vrcp h d a m md => exact .inr (@slot_vrcp s h d a m md)
  case vrsq h d a m md => exact .inr (@slot_vrsq s h d a m md)
  case vexp h d a m md => exact .inr (@slot_vexp s h d a m md)
  case vlog h d a m md => exact .inr (@slot_vlog s h d a m md)
  case vtanh h d a m md => exact .inr (@slot_vtanh s h d a m md)
  case vcvt h d a x p r md => exact .inr (@slot_vcvt s h d a x p r md)
  case vcmp h c f a b m md => exact .inr (@slot_vcmp s h c f a b m md)
  case vsel h d a b md => exact .inr (@slot_vsel s h d a b md)
  case viadd h d a b m md => exact .inr (@slot_viadd s h d a b m md)
  case visub h d a b m md => exact .inr (@slot_visub s h d a b m md)
  case vimul h d a b m md => exact .inr (@slot_vimul s h d a b m md)
  case vimulh h d a b m md => exact .inr (@slot_vimulh s h d a b m md)
  case vand h d a b md => exact .inr (@slot_vand s h d a b md)
  case vor h d a b md => exact .inr (@slot_vor s h d a b md)
  case vxor h d a b md => exact .inr (@slot_vxor s h d a b md)
  case vshl h d a b m md => exact .inr (@slot_vshl s h d a b m md)
  case vshr h d a b m md => exact .inr (@slot_vshr s h d a b m md)
  case vsra h d a b m md => exact .inr (@slot_vsra s h d a b m md)
  case vimin h d a b m md => exact .inr (@slot_vimin s h d a b m md)
  case vimax h d a b m md => exact .inr (@slot_vimax s h d a b m md)
  case vpopc h d a m md => exact .inr (@slot_vpopc s h d a m md)
  case vclz h d a m md => exact .inr (@slot_vclz s h d a m md)
  case vperm h d a b m md => exact .inr (@slot_vperm s h d a b m md)
  case vbcast h d a m md => exact .inr (@slot_vbcast s h d a m md)
  case vext h d a b m => exact .inr (@slot_vext s h d a b m)
  case vins h d a b m => exact .inr (@slot_vins s h d a b m)
  case viota h d a b m md => exact .inr (@slot_viota s h d a b m md)
  case vslide h d a i md => exact .inr (@slot_vslide s h d a i md)
  case vred h d a b m md => exact .inr (@slot_vred s h d a b m md)
  case vscan h d a b m md => exact .inr (@slot_vscan s h d a b m md)
  case vmov h d a m md => exact .inr (@slot_vmov s h d a m md)
  case vcomp h d a m md => exact .inr (@slot_vcomp s h d a m md)
  case lmand h d a b => exact .inr (@slot_lmand s h d a b)
  case lmor h d a b => exact .inr (@slot_lmor s h d a b)
  case lmnot h d a => exact .inr (@slot_lmnot s h d a)
  case lmpop h d a => exact .inr (@slot_lmpop s h d a)
  case vsig h d a => exact .inr (@slot_vsig s h d a)
  case lxadd h d a b m md => exact .inr (@slot_lxadd s h d a b m md)
  case lxsub h d a b m md => exact .inr (@slot_lxsub s h d a b m md)
  case lxmul h d a b m md => exact .inr (@slot_lxmul s h d a b m md)
  case lxdiv h d a b m md => exact .inr (@slot_lxdiv s h d a b m md)
  case lxcvt h d a x w r md => exact .inr (@slot_lxcvt s h d a x w r md)
  case lxcmp h c a b m md => exact .inr (@slot_lxcmp s h c a b m md)
  case lxsum h d a m md => exact .inr (@slot_lxsum s h d a m md)
  case lxln h d a m md => exact .inr (@slot_lxln s h d a m md)
  case xwld h a b m => exact .inr (@slot_xwld s h a b m)
  case xmac h a ds => exact .inr (@slot_xmac s h a ds)
  case xmacz h a ds => exact .inr (@slot_xmacz s h a ds)
  case xbegin h => exact .inr (@slot_xbegin s h)
  case xend h => exact .inr (@slot_xend s h)
  case xepi h a b ds => exact .inr (@slot_xepi s h a b ds)
  case xaccld h a b ds => exact .inr (@slot_xaccld s h a b ds)
  case xaccst h a b ds => exact .inr (@slot_xaccst s h a b ds)
  case xchk h d ds => exact .inr (@slot_xchk s h d ds)
  case xfix h d a => exact .inr (@slot_xfix s h d a)
  case xclr h ds => exact .inr (@slot_xclr s h ds)
  case xcfg h a => exact .inr (@slot_xcfg s h a)
  case cpyHandle h d a b => exact .inr (@slot_cpyHandle s h d a b)
  case cpyAddress h d a b => exact .inr (@slot_cpyAddress s h d a b)
  case cpypHandle h d a b => exact .inr (@slot_cpypHandle s h d a b)
  case cpypAddress h d a b => exact .inr (@slot_cpypAddress s h d a b)
  case cpyw h a b => exact .inr (@slot_cpyw s h a b)
  case subsLoad h d a b => exact .inr (@slot_subsLoad s h d a b)
  case subsStore h d a b => exact .inr (@slot_subsStore s h d a b)
  case sube h d => exact .inr (@slot_sube s h d)
  case hset h d a => exact .inr (@slot_hset s h d a)
  case hwait h d a i => exact .inr (@slot_hwait s h d a i)
  case hadv h a i => exact .inr (@slot_hadv s h a i)
  case tspawn h d a b => exact .inr (@slot_tspawn s h d a b)
  case klaunch h a => exact .inr (@slot_klaunch s h a)
  case coll h d a b => exact .inr (@slot_coll s h d a b)
  case fput h d a b => exact .inr (@slot_fput s h d a b)
  case qstat h d a i => exact .inr (@slot_qstat s h d a i)
  case ckpt h => exact .inr (@slot_ckpt s h)
  case cmpt h a b m => exact .inr (@slot_cmpt s h a b m)
  case sigrd h d m => exact .inr (@slot_sigrd s h d m)
  case phint h i k1 k2 => exact .inr (@slot_phint s h i k1 k2)
  case csrr h d i => exact .inr (@slot_csrr s h d i)
  case csrw h d i => exact .inr (@slot_csrw s h d i)
  case csrs h d i => exact .inr (@slot_csrs s h d i)
  case csrc h d i => exact .inr (@slot_csrc s h d i)
  case eretRestore h => exact .inr (@slot_eretRestore s h)
  case eretContinue h a => exact .inr (@slot_eretContinue s h a)
  case sysc h i => exact .inr (@slot_sysc s h i)
  case step h a => exact .inr (@slot_step s h a)
  case abort h a => exact .inr (@slot_abort s h a)
  case ttinvTile h a b => exact .inr (@slot_ttinvTile s h a b)
  case ttinvTensor h a => exact .inr (@slot_ttinvTensor s h a)
  case ttinvAsid h => exact .inr (@slot_ttinvAsid s h)
  case ttinvAll h => exact .inr (@slot_ttinvAll s h)
  case icinvCore h a b => exact .inr (@slot_icinvCore s h a b)
  case icinvPkg h a b => exact .inr (@slot_icinvPkg s h a b)
  case attq h d a b => exact .inr (@slot_attq s h d a b)
  case clockRestart => exact hw.elim (fun h => absurd rfl h) fun h => nomatch h
  case runLimitDue => exact hw.elim (fun h => absurd rfl h) fun h => nomatch h
  case runLimitExpiry => exact hw.elim (fun h => absurd rfl h) fun h => nomatch h
  case exposedResultLand => exact hw.elim (fun h => absurd rfl h) fun h => nomatch h
  case interlockedResultLand => exact hw.elim (fun h => absurd rfl h) fun h => nomatch h
  case waitWake => exact hw.elim (fun h => absurd rfl h) fun h => nomatch h
  case returningOpComplete => exact hw.elim (fun h => absurd rfl h) fun h => nomatch h
  case drainComplete => exact hw.elim (fun h => absurd rfl h) fun h => nomatch h
  case ttinvAcknowledge => exact hw.elim (fun h => absurd rfl h) fun h => nomatch h
  case icinvAcknowledge => exact hw.elim (fun h => absurd rfl h) fun h => nomatch h
  case lockAnswer => exact hw.elim (fun h => absurd rfl h) fun h => nomatch h
  case grantCacheRefill => exact hw.elim (fun h => absurd rfl h) fun h => nomatch h
  case migrationWalkRetry => exact hw.elim (fun h => absurd rfl h) fun h => nomatch h
  case weightBufferCurrent => exact hw.elim (fun h => absurd rfl h) fun h => nomatch h
  case matrixRowsLand => exact hw.elim (fun h => absurd rfl h) fun h => nomatch h
  case xaccldRowsArrive => exact hw.elim (fun h => absurd rfl h) fun h => nomatch h
  case xchkComplete => exact hw.elim (fun h => absurd rfl h) fun h => nomatch h
  case xfixComplete => exact hw.elim (fun h => absurd rfl h) fun h => nomatch h
  case xepiCheck => exact hw.elim (fun h => absurd rfl h) fun h => nomatch h
  case outputStageComplete => exact hw.elim (fun h => absurd rfl h) fun h => nomatch h
  case scbRelease => exact hw.elim (fun h => absurd rfl h) fun h => nomatch h
  case intervalAgreement => exact hw.elim (fun h => absurd rfl h) fun h => nomatch h
  case signatureArrival => exact hw.elim (fun h => absurd rfl h) fun h => nomatch h
  case twinSkewExpiry => exact hw.elim (fun h => absurd rfl h) fun h => nomatch h
  case reExecutionStart => exact hw.elim (fun h => absurd rfl h) fun h => nomatch h
  case vote => exact hw.elim (fun h => absurd rfl h) fun h => nomatch h
  case scoreHalving => exact hw.elim (fun h => absurd rfl h) fun h => nomatch h
  case leaseExpiry => exact hw.elim (fun h => absurd rfl h) fun h => nomatch h
  case bwaitBoundExpiry => exact hw.elim (fun h => absurd rfl h) fun h => nomatch h
  case absentTileRewalk => exact hw.elim (fun h => absurd rfl h) fun h => nomatch h
  case copyComplete => exact hw.elim (fun h => absurd rfl h) fun h => nomatch h
  case cpywComplete => exact hw.elim (fun h => absurd rfl h) fun h => nomatch h
  case loaderSlotStep => exact hw.elim (fun h => absurd rfl h) fun h => nomatch h
  case storerSlotStep => exact hw.elim (fun h => absurd rfl h) fun h => nomatch h
  case klaunchPacketRead => exact hw.elim (fun h => absurd rfl h) fun h => nomatch h
  case collComplete => exact hw.elim (fun h => absurd rfl h) fun h => nomatch h
  case collFlitReceive => exact hw.elim (fun h => absurd rfl h) fun h => nomatch h
  case fputComplete => exact hw.elim (fun h => absurd rfl h) fun h => nomatch h
  case quoteComplete => exact hw.elim (fun h => absurd rfl h) fun h => nomatch h
  case doorbellWrite => exact hw.elim (fun h => absurd rfl h) fun h => nomatch h
  case slotIdleTimeout => exact hw.elim (fun h => absurd rfl h) fun h => nomatch h
  case qschTurnEnd => exact hw.elim (fun h => absurd rfl h) fun h => nomatch h
  case packetLaunch => exact hw.elim (fun h => absurd rfl h) fun h => nomatch h
  case packetWait => exact hw.elim (fun h => absurd rfl h) fun h => nomatch h
  case packetSignal => exact hw.elim (fun h => absurd rfl h) fun h => nomatch h
  case packetMarker => exact hw.elim (fun h => absurd rfl h) fun h => nomatch h
  case qschWaitSatisfied => exact hw.elim (fun h => absurd rfl h) fun h => nomatch h
  case markerEffect => exact hw.elim (fun h => absurd rfl h) fun h => nomatch h
  case kernelPlacement => exact hw.elim (fun h => absurd rfl h) fun h => nomatch h
  case kernelComplete => exact hw.elim (fun h => absurd rfl h) fun h => nomatch h
  case queueReset => exact hw.elim (fun h => absurd rfl h) fun h => nomatch h
  case queueResetUnmap => exact hw.elim (fun h => absurd rfl h) fun h => nomatch h
  case taskDispatch => exact hw.elim (fun h => absurd rfl h) fun h => nomatch h
  case dependenceRelease => exact hw.elim (fun h => absurd rfl h) fun h => nomatch h
  case spillBufferDrain => exact hw.elim (fun h => absurd rfl h) fun h => nomatch h
  case gangInstant => exact hw.elim (fun h => absurd rfl h) fun h => nomatch h
  case prqGo => exact hw.elim (fun h => absurd rfl h) fun h => nomatch h
  case preemptDeadlineFirst => exact hw.elim (fun h => absurd rfl h) fun h => nomatch h
  case preemptDeadlineSecond => exact hw.elim (fun h => absurd rfl h) fun h => nomatch h
  case parkedSave => exact hw.elim (fun h => absurd rfl h) fun h => nomatch h
  case saveComplete => exact hw.elim (fun h => absurd rfl h) fun h => nomatch h
  case restore => exact hw.elim (fun h => absurd rfl h) fun h => nomatch h
  case abortTokenReceive => exact hw.elim (fun h => absurd rfl h) fun h => nomatch h
  case abortAnswer => exact hw.elim (fun h => absurd rfl h) fun h => nomatch h
  case abortAnswerWindowExpiry => exact hw.elim (fun h => absurd rfl h) fun h => nomatch h
  case linkFlitReceive => exact hw.elim (fun h => absurd rfl h) fun h => nomatch h
  case linkDead => exact hw.elim (fun h => absurd rfl h) fun h => nomatch h
  case ptpMessage => exact hw.elim (fun h => absurd rfl h) fun h => nomatch h
  case apertureRead => exact hw.elim (fun h => absurd rfl h) fun h => nomatch h
  case apertureWrite => exact hw.elim (fun h => absurd rfl h) fun h => nomatch h
  case hircWrite => exact hw.elim (fun h => absurd rfl h) fun h => nomatch h
  case idropRead => exact hw.elim (fun h => absurd rfl h) fun h => nomatch h
  case hndropRead => exact hw.elim (fun h => absurd rfl h) fun h => nomatch h
  case atctlGo => exact hw.elim (fun h => absurd rfl h) fun h => nomatch h
  case atstRead => exact hw.elim (fun h => absurd rfl h) fun h => nomatch h
  case sftbWrite => exact hw.elim (fun h => absurd rfl h) fun h => nomatch h
  case registerWrite => exact hw.elim (fun h => absurd rfl h) fun h => nomatch h
  case freezePin => exact hw.elim (fun h => absurd rfl h) fun h => nomatch h
  case frzWrite => exact hw.elim (fun h => absurd rfl h) fun h => nomatch h
  case moduleReset => exact hw.elim (fun h => absurd rfl h) fun h => nomatch h
  case retirementClear => exact hw.elim (fun h => absurd rfl h) fun h => nomatch h
  case powerDownEntry => exact hw.elim (fun h => absurd rfl h) fun h => nomatch h
  case selfRefreshEntry => exact hw.elim (fun h => absurd rfl h) fun h => nomatch h
  case powerStateExit => exact hw.elim (fun h => absurd rfl h) fun h => nomatch h
  case refreshDue => exact hw.elim (fun h => absurd rfl h) fun h => nomatch h
  case refreshComplete => exact hw.elim (fun h => absurd rfl h) fun h => nomatch h
  case activationAlert => exact hw.elim (fun h => absurd rfl h) fun h => nomatch h
  case alertBackoffComplete => exact hw.elim (fun h => absurd rfl h) fun h => nomatch h
  case criticalTempAssert => exact hw.elim (fun h => absurd rfl h) fun h => nomatch h
  case criticalTempClear => exact hw.elim (fun h => absurd rfl h) fun h => nomatch h
  case thermalHoldTimeout => exact hw.elim (fun h => absurd rfl h) fun h => nomatch h
  case scrubStep => exact hw.elim (fun h => absurd rfl h) fun h => nomatch h
  case hotnessDecay => exact hw.elim (fun h => absurd rfl h) fun h => nomatch h
  case uvEvaluate => exact hw.elim (fun h => absurd rfl h) fun h => nomatch h
  case uvCrossingRaise => exact hw.elim (fun h => absurd rfl h) fun h => nomatch h
  case uvWindowExpiry => exact hw.elim (fun h => absurd rfl h) fun h => nomatch h
  case uvHoldExpiry => exact hw.elim (fun h => absurd rfl h) fun h => nomatch h
  case illegalBundle => exact hw.elim (fun h => absurd rfl h) fun h => nomatch h
  case matrixPartFree => exact hw.elim (fun h => absurd rfl h) fun h => nomatch h
  case iterativeUnitFree => exact hw.elim (fun h => absurd rfl h) fun h => nomatch h
  case tileWalkComplete => exact hw.elim (fun h => absurd rfl h) fun h => nomatch h
  case shadowFrameCopyComplete => exact hw.elim (fun h => absurd rfl h) fun h => nomatch h
  case fenceMarkerRelease => exact hw.elim (fun h => absurd rfl h) fun h => nomatch h
  case powerCeilingThrottle => exact hw.elim (fun h => absurd rfl h) fun h => nomatch h

end Sys2Proof.Machine
end

