-- ==== Sys2Proof/Laws/Loads.lean ====
section
/-! SUPPORT. Laws of loads: an access that is counted at its home, and that wakes a part of its memory unit, reads and changes
nothing of the bundle in issue or of a context; how the slot of a load ends whose checks have passed. -/

namespace Sys2Proof.Machine

/-- The state with another bundle in issue, other contexts and another of them acting. -/
def State.under (s : State) (i : Issue) (x : SMap Ctx) (n : Nat) : State := { s with iss := i, ctxs := x, cur := n }

theorem State.walk_under (s : State) (i : Issue) (x : SMap Ctx) (m : Nat) (f : Nat → Option Nat) (t n a : Nat) :
    (s.under i x m).walk f t n a = s.walk f t n a := by
  induction n generalizing a with
  | zero => rfl
  | succ n ih => simp only [State.walk, ih]; rfl

theorem State.devTile_under (s : State) (i : Issue) (x : SMap Ctx) (m : Nat) (asid r va n : Nat) (w : Bool) :
    (s.under i x m).devTile (rootSpace asid r) va n w = s.devTile (rootSpace asid r) va n w := by
  simp only [State.devTile, State.walkTile, rootSpace, State.walk_under]
  rfl

theorem State.devAccess_under (s : State) (i : Issue) (x : SMap Ctx) (m : Nat) (va n : Nat) (w : Bool) :
    (s.under i x m).devAccess (s.under i x m).sysSpace va n w = s.devAccess s.sysSpace va n w := by
  rw [show (s.under i x m).sysSpace = s.sysSpace from rfl]
  simp only [State.devAccess, State.sysSpace, State.devTile_under]

theorem State.logError_under (s : State) (i : Issue) (x : SMap Ctx) (n : Nat) (pa kind src g : Nat) :
    (s.under i x n).logError pa kind src g = (s.logError pa kind src g).under i x n := by
  unfold State.logError
  cases lspOf pa with
  | some k => rfl
  | none => cases homeUnit pa <;> rfl

theorem State.mergePoison_under (src g : Nat) (l : List (Nat × Bool)) (s : State) (i : Issue) (x : SMap Ctx) (n : Nat) :
    (s.under i x n).mergePoison src g l = (s.mergePoison src g l).under i x n := by
  induction l generalizing s with
  | nil => rfl
  | cons e r ih =>
    simp only [State.mergePoison]
    rw [← ih]
    congr 1
    rw [show (s.under i x n).poison = s.poison from rfl, State.logError_under]
    split
    · rfl
    · split <;> rfl

theorem State.pokeAll_under (g : Nat) (ps : List (Nat × Nat)) (bs : List Byte) (s : State) (i : Issue) (x : SMap Ctx) (n : Nat) :
    (s.under i x n).pokeAll g ps bs = (s.pokeAll g ps bs).under i x n := by
  induction ps generalizing s bs with
  | nil => rfl
  | cons e r ih =>
    simp only [State.pokeAll]
    rw [← ih, show (s.under i x n).poke e.1 (bs.take e.2) = (s.poke e.1 (bs.take e.2)).under i x n from rfl,
      State.mergePoison_under]
    rfl

theorem State.devWrite_under (s : State) (i : Issue) (x : SMap Ctx) (n : Nat) (va : Nat) (bs : List Byte) :
    (s.under i x n).devWrite (s.under i x n).sysSpace va bs = (s.devWrite s.sysSpace va bs).map fun t => t.under i x n := by
  simp only [State.devWrite, State.devAccess_under]
  cases s.devAccess s.sysSpace va bs.length true with
  | ok ps => simp only [State.pokeAll_under, Except.map]
  | bad k => rfl

theorem State.hotNotify_under (s : State) (i : Issue) (x : SMap Ctx) (n : Nat) (u frame node req : Nat) :
    (s.under i x n).hotNotify u frame node req = (s.hotNotify u frame node req).under i x n := by
  simp only [State.hotNotify, show (s.under i x n).unit u = s.unit u from rfl, show (s.under i x n).now = s.now from rfl,
    State.devWrite_under]
  split
  · rfl
  · cases s.devWrite s.sysSpace ((s.unit u).hnrb.toNat + 16 * ((s.unit u).hnwc.toNat % 2 ^ bits (s.unit u).hnrs.toNat 0 5))
      (leBytes (frame + 2 ^ 26 * node + 2 ^ 32 * req) 8 ++ leBytes s.now 8) <;> rfl

theorem State.hotCount_under (s : State) (i : Issue) (x : SMap Ctx) (n : Nat) (pa req : Nat) :
    (s.under i x n).hotCount pa req = (s.hotCount pa req).under i x n := by
  unfold State.hotCount
  cases homeUnit pa with
  | none => rfl
  | some u =>
    simp only [show (s.under i x n).unit u = s.unit u from rfl, show (s.under i x n).frameMoves pa = s.frameMoves pa from rfl]
    split
    · rfl
    · split
      · rfl
      · split
        · rfl
        · rw [← State.hotNotify_under]; rfl

theorem State.wake_under (s : State) (i : Issue) (x : SMap Ctx) (n : Nat) (pa : Nat) : (s.under i x n).wake pa = (s.wake pa).under i x n := by
  unfold State.wake
  cases homeUnit pa with
  | none => rfl
  | some u =>
    simp only [show (s.under i x n).unit u = s.unit u from rfl]
    split <;> rfl

/-- Keys reached by accesses of a context. -/
theorem State.countReads_under (g : Nat) (l : List Nat) (s : State) (i : Issue) (x : SMap Ctx) (n : Nat) :
    (s.under i x n).countReads g l = (s.countReads g l).under i x n := by
  unfold State.countReads
  induction l generalizing s with
  | nil => rfl
  | cons a r ih => rw [List.foldl_cons, State.countRead, State.hotCount_under, ih]; rfl

/-- What accesses leave of the bundle in issue, of the contexts and of which of them acts. -/
theorem State.countReads_keeps (g : Nat) (l : List Nat) (s : State) :
    (s.countReads g l).iss = s.iss ∧ (s.countReads g l).ctxs = s.ctxs ∧ (s.countReads g l).cur = s.cur := by
  have h := State.countReads_under g l s s.iss s.ctxs s.cur
  rw [show s.under s.iss s.ctxs s.cur = s from rfl] at h
  rw [h]
  exact ⟨rfl, rfl, rfl⟩

/-- The slot of a load that reaches the homes of its bytes, and whose result is interlocked. -/
theorem State.retire_load (s : State) (ld : Load) (r : Res) (h : s.alone) :
    s.retire [.touch (ld.marks.map (·.1)), .ilk r none] = (s.touched ld).launched [] [s.flight 0 true r] := by
  obtain ⟨h1, h2, h3⟩ : (s.touched ld).iss = s.iss ∧ (s.touched ld).ctxs = s.ctxs ∧ (s.touched ld).cur = s.cur :=
    State.countReads_keeps _ _ s
  let c := s.me.begun s.iss.pc s.fallThrough
  let k := (s.touched ld).under Issue.idle s.ctxs s.cur
  have hf : c.fl ++ [s.flight 0 true r] = [s.flight 0 true r] := by rw [show c.fl = [] from h.fl]; rfl
  have ht : State.applyActs (({ s with iss := Issue.idle } : State).setCtx s.cur c)
      ([Act.touch (ld.marks.map (·.1)), .ilk r none].map fun a => (s.iss.slot, a)) =
      k.setCtx s.cur { c with fl := [s.flight 0 true r] } := by
    have e : (({ s with iss := Issue.idle } : State).setCtx s.cur c).applyAct s.iss.slot (.touch (ld.marks.map (·.1))) =
        k.setCtx s.cur c :=
      State.countReads_under s.cur _ s Issue.idle (s.ctxs.set s.cur c) s.cur
    rw [List.map_cons, State.applyActs_cons, e, ← hf]
    exact k.applyAct_flight c s.iss.slot (.ilk r none) (s.flight 0 true r) rfl
  rw [State.retire_quiet s k { c with fl := [s.flight 0 true r] } _ h (by intro a ha; rcases List.mem_pair.1 ha with rfl | rfl <;> rfl) ht
    (by intro f hf; rw [List.mem_singleton.1 hf]; exact .inl rfl) h.mx h.chains h.due' (s.alone_run h)]
  have e1 : (s.touched ld).me = s.me := by simp only [State.me, State.ctx, h2, h3]
  have e2 : (s.touched ld).fallThrough = s.fallThrough := by simp only [State.fallThrough, h1]
  simp only [State.launched, State.busyUnits, List.foldl_nil, e1, e2, h1, h3, State.setCtx, k, State.under, h2]
  rfl

end Sys2Proof.Machine
end

