-- ==== Sys2Proof/Laws/Vector.lean ====
section
/-! SUPPORT. What a V slot that stands alone in its bundle does, by shape: exposed, interlocked, element by element. -/

namespace Sys2Proof.Machine

theorem State.checkTrap_alone (s : State) (k : CheckKind) (l : Bool) (h : s.alone) : s.checkTrap k l = none := by
  simp [State.checkTrap, h.upsets]

/-- With no fault about to strike none is used up. -/
theorem State.checkUsed_alone (s : State) (h : Head) (t : List RegId) (k : Ctx → List Act) (ha : s.alone) :
    s.checkUsed h t k = s := by
  have e : ({ s with upsets := s.upsets.erase .residue } : State) = s := by
    rw [ha.upsets]
    have : s.upsets = [] := ha.upsets
    cases s
    simp_all
  simp only [State.checkUsed, e, ite_self]

theorem State.vslot_ready (s : State) (h : Head) (t : List RegId) (dup : Dup) (k : Ctx → List Act)
    (ha : s.alone) (hr : s.ready h t) : s.vslot h t dup k = .next (s.retire (k s.me)) := by
  rw [State.vslot, s.checkUsed_alone h t k ha]
  exact s.slotOff_ready h t dup [] k hr

theorem State.lxSlot_ready (s : State) (h : Head) (t : List RegId) (k : Ctx → List Act) (ha : s.alone)
    (hr : s.ready h t) : s.lxSlot h t k = .next (s.retire (k s.me)) := by
  simp only [State.lxSlot, s.checkUsed_alone h t k ha]
  exact s.slotOff_ready h t _ _ k hr

/-- The latency of an exposed result is at least two bundles: it lands later. -/
theorem State.retire_vecAct (s : State) (lat op : Nat) (k : CheckKind) (l : Bool) (r : Res) (els : List El)
    (ha : s.alone) (hl : 1 < lat) : s.retire [s.vecAct lat k l op r els] = s.vWhole lat op r els := by
  refine State.retire_stay s [_] [s.vFlight lat false op r els] ha ?_ ?_
  · simp only [State.vecAct, s.checkTrap_alone k l ha]
    rfl
  · intro f hf
    rw [List.mem_singleton.1 hf]
    right
    show _ < s.me.bseq + lat
    omega

theorem State.vecIlk_free (s : State) (n op : Nat) (l : Bool) (r : Res) (els : List El) (ha : s.alone) (hu : s.unitsFree) :
    s.vecIlk n op l r els = .vec n true ⟨r, [], some op, s.iss.unit,
      orFlags (els.map (·.flags)), excCounts s.me.excTid (els.flatMap (·.exc)), none⟩ :: s.vUnits.map Act.useIter := by
  have hd : s.dupFollows = false := by simp [State.dupFollows, ha.rest]
  have e : (s.vUnits.find? fun x => (s.core (coreOf s.cur)).iter.contains x) = none := by
    rw [List.find?_eq_none]
    intro x hx
    rw [hu x hx]
    decide
  have hv : (if (decide (s.me.pcls = 1) && !s.dupFollows) = true then [s.iss.unit, otherPipe s.iss.unit]
      else [s.iss.unit]) = s.vUnits := by
    simp only [hd, Bool.not_false, Bool.and_true, decide_eq_true_eq, State.vUnits]
  unfold State.vecIlk
  dsimp only
  rw [hv, e, s.checkTrap_alone .shadow l ha]

theorem State.retire_vecIlk (s : State) (n op : Nat) (l : Bool) (r : Res) (els : List El) (more : List Act)
    (fs : List Flight) (ha : s.alone) (hu : s.unitsFree) (hm : more.map (Act.flight s.me.bseq s.iss.slot) = fs.map some)
    (hf : ∀ f ∈ fs, f.ilk = true) :
    s.retire (s.vecIlk n op l r els ++ more) = s.launched s.vUnits (s.vFlight n true op r els :: fs) := by
  rw [s.vecIlk_free n op l r els ha hu]
  obtain ⟨us, hus⟩ : ∃ us, s.vUnits = s.iss.unit :: us := by
    unfold State.vUnits
    split <;> exact ⟨_, rfl⟩
  rw [hus]
  exact s.retire_holds _ { s.vFlight n true op r els with iter := none } s.iss.unit us more fs ha rfl rfl rfl rfl rfl hm hf

/-- An exposed V slot with one whole result. -/
theorem State.vslot_whole (s : State) (h : Head) (t : List RegId) (dup : Dup) (c : CheckKind) (l : Bool) (lat op : Nat)
    (r : Res) (els : List El) (k : Ctx → List Act) (ha : s.alone) (hr : s.ready h t)
    (hk : k s.me = [s.vecAct lat c l op r els]) (hl : 1 < lat) : s.vslot h t dup k = .next (s.vWhole lat op r els) := by
  rw [s.vslot_ready h t dup k ha hr, hk, s.retire_vecAct lat op c l r els ha hl]

/-- An exposed V slot computed element by element. -/
theorem State.vElems_done (s : State) (h : Head) (d : BitVec 5) (t : List RegId) (md : Option (BitVec 28))
    (op w lat : Nat) (checked : Bool) (f : Ctx → Nat → El) (ha : s.alone)
    (hr : s.ready h (rV d :: (Mod.of md).reg :: t)) (hl : 1 < lat) :
    s.vElems h d t md op w lat checked f = .next (s.vDone d md op w lat (f s.me)) := by
  unfold State.vElems
  exact s.vslot_whole h _ _ _ _ lat op _ _ _ ha hr rfl hl

/-- An interlocked V slot computed element by element. -/
theorem State.vIlk_done (s : State) (h : Head) (d : BitVec 5) (t : List RegId) (md : Option (BitVec 28))
    (op w : Nat) (f : Ctx → Nat → El) (ha : s.alone) (hr : s.ready h (rV d :: (Mod.of md).reg :: t)) (hu : s.unitsFree) :
    s.vIlk h d t md op w f = .next (s.vIlkDone d md op w (f s.me)) := by
  unfold State.vIlk
  refine (s.vslot_ready h _ _ _ ha hr).trans (congrArg _ ?_)
  have := s.retire_vecIlk (iterCycles op w) op (s.me.idle (Mod.of md)) (s.vResult d md w (f s.me)).1 (s.vResult d md w (f s.me)).2 [] [] ha hu rfl
    (by simp)
  rw [List.append_nil] at this
  exact this

/-- An LX slot with one interlocked result. -/
theorem State.lxSlot_done (s : State) (h : Head) (t : List RegId) (n op : Nat) (l : Bool) (r : Res) (els : List El)
    (k : Ctx → List Act) (ha : s.alone) (hr : s.ready h t) (hu : s.unitsFree) (hk : k s.me = s.vecIlk n op l r els) :
    s.lxSlot h t k = .next (s.launched s.vUnits [s.vFlight n true op r els]) := by
  have := s.retire_vecIlk n op l r els [] [] ha hu rfl (by simp)
  rw [List.append_nil] at this
  rw [s.lxSlot_ready h t k ha hr, hk, this]

end Sys2Proof.Machine
end

