-- ==== Sys2Proof/Tests/Slice0.lean ====
section
/-! SUPPORT. Tests: ill-formed terms that WellFormed refuses, words written out from the encodings of the manual, single
steps on small states with results taken from the manual's examples, and states that meet the hypotheses of the
statements. -/

namespace Sys2Proof.Tests

open Sys2Proof Sys2Proof.Machine

set_option Elab.async false

/-! ### Builders -/

/-- Guard p0, no duplicate. -/
def g0 : Head := ⟨false, 0⟩

/-- Context 0 holds its core and issues the one slot of a bundle at 2^32; `f` says what else holds of the context. -/
def lone (f : Ctx → Ctx) : State :=
  { State.reset with
    iss := { Issue.idle with pc := 0x100000000, n := 4, unit := 1 }
    ctxs := State.reset.ctxs.set 0 (f { Ctx.reset 0 with st := .issuing }) }

/-- Scalar registers 1, 2, 3 and so on with values. -/
def withS (xs : List Nat) (c : Ctx) : Ctx :=
  (xs.zipIdx.foldl (fun c e => c.put (.s (e.2 + 1) (BitVec.ofNat 64 e.1))) c)

/-- A bundle of one slot runs, with some scalar registers set. -/
def onS (xs : List Nat) : State := lone (withS xs)

/-- Whether nothing of the context is under way. -/
def quietB (s : State) : Bool :=
  decide (s.iss.rest = [] ∧ s.iss.acts = [] ∧ s.me.fl = [] ∧ s.me.mx = [] ∧ s.me.due' = [] ∧ s.me.due = false ∧
    s.me.runLimit / 8 + 1 < s.me.run ∧ s.upsets = [] ∧ s.me.st = .issuing ∧ ∀ ch ∈ s.me.chains, ch.closed = false)

/-- What most statements ask: the bundle is alone, and a slot that nothing guards is ready whatever it touches. -/
def Quiet (s : State) : Prop := s.alone ∧ ∀ touch, s.ready g0 touch

theorem readPred_zero (r : Regs) : r.readPred 0 = true := rfl

theorem quiet {s : State} (h : quietB s = true) : Quiet s := by
  obtain ⟨h1, h2, h3, h4, h5, h6, h7, h8, h9, h10⟩ := of_decide_eq_true h
  refine ⟨⟨h1, h2, h3, h4, h10, h5, h6, h7, h8, h9⟩, fun touch => ⟨?_, rfl, ?_, rfl, h8⟩⟩
  · simp [Ctx.pending, h3]
  · simp [Ctx.anyPending, Ctx.pending, h3]

/-- Whether an outcome is a next state with a property. -/
def nextB (o : Host.Outcome State Fault Refusal) (f : State → Bool) : Bool :=
  match o with
  | .next t => f t
  | _ => false

theorem next_of {o : Host.Outcome State Fault Refusal} {f : State → Bool} (h : nextB o f = true) :
    ∃ t, o = .next t ∧ f t = true := by
  cases o with
  | next t => exact ⟨t, rfl, h⟩
  | fault r => simp [nextB] at h
  | refused r => simp [nextB] at h

/-- Whether an instruction traps with a cause, where no handler takes it: the task ends. -/
def ends (i : Instr) (s : State) (cause : Nat) : Bool :=
  quietB s && nextB (exec i s) fun t => decide (t.me.st = .free ∧ t.me.trapc.toNat % 256 = cause)

/-! ### States that meet the hypotheses of the statements -/

/-- ScalarArithmetic, ScalarFields, ScalarPredicates, ScalarProducts, HandleFields, SpecialMoves, Checkpoints without more:
any registers will do; the lengths of SEXT and of a field of R90 at their ends. -/
theorem witness_Scalar : Quiet (onS [5, 0x0808, 0x40]) ∧ min (0x0808 / 256 % 128) (64 - 0x0808 % 64) = 8 ∧
    min (0x40 / 256 % 128) (64 - 0x40 % 64) = 0 := ⟨quiet (by decide +kernel), by decide⟩

theorem witness_ScalarDivision :
    (Quiet (onS [7, 0]) ∧ ((onS [7, 0]).core 0).iter.contains 1 = false ∧ (onS [7, 0]).me.s 2 = 0) ∧
    (Quiet (onS [2 ^ 63, 2 ^ 64 - 1]) ∧ ((onS [2 ^ 63, 2 ^ 64 - 1]).me.s 1).toInt = -2 ^ 63 ∧
      ((onS [2 ^ 63, 2 ^ 64 - 1]).me.s 2).toInt = -1) ∧
    Quiet (onS [7, 2]) ∧ ¬(((onS [7, 2]).me.s 1).toInt = -2 ^ 63) :=
  ⟨⟨quiet (by decide +kernel), by decide +kernel⟩, ⟨quiet (by decide +kernel), by decide +kernel⟩, quiet (by decide +kernel),
    by decide +kernel⟩

/-- The primary of a class 2 pair. -/
def primary : State := lone fun c => { c with pcls := 2, twin := some 1 }

theorem witness_CounterReads : Quiet (onS []) ∧ (onS []).me.pcls ≠ 2 ∧ Quiet primary ∧ primary.me.pcls = 2 ∧
    primary.me.second = false ∧ primary.me.twin = some 1 ∧ (1 : Nat) ≠ primary.cur :=
  ⟨quiet (by decide +kernel), by decide +kernel, quiet (by decide +kernel), by decide +kernel⟩

/-- MOVS with selector 0 and a set a field, with selector 1 and a set d field, and with selector 8. -/
theorem witness_SpecialMoves : decodeSlot 0x1E400080 [] = none ∧ decodeSlot 0x1E401001 [] = none ∧
    decodeSlot 0x1E400008 [] = none ∧ bits 0x1E400080 22 6 = 57 ∧ bits 0x1E400080 7 5 = 1 ∧ bits 0x1E401001 12 5 = 1 ∧
    7 < bits 0x1E400008 0 7 := by decide +kernel

theorem witness_Branches : Quiet (onS [0x100000002]) ∧ ((onS [0x100000002]).me.s 1).toNat % 4 = 2 ∧
    ((onS [0x100000002]).iss.pc).toNat % 4 = 0 := ⟨quiet (by decide +kernel), by decide +kernel⟩

/-- The counters 2, 1 with e = 1, and 1 with e = 0 meet the three ways of LOOPB at their ends; a bundle off a word has a target
off a word. -/
theorem witness_Loops : Quiet (onS [2]) ∧ Quiet (onS [2 ^ 48 + 1]) ∧ Quiet (onS [1]) ∧
    ((onS [2]).me.s 1).toNat % 2 ^ 48 = 2 ∧ ((onS [2 ^ 48 + 1]).me.s 1).toNat / 2 ^ 48 % 8 = 1 ∧
    ((onS [1]).me.s 1).toNat / 2 ^ 48 % 8 = 0 ∧
    (({ onS [2] with iss := { (onS [2]).iss with pc := 2 } } : State).iss.pc + 4 * kImm 0 7 []).toNat % 4 ≠ 0 :=
  ⟨quiet (by decide +kernel), quiet (by decide +kernel), quiet (by decide +kernel), by decide +kernel⟩

theorem witness_NoOperations : Quiet (onS []) ∧ 0xA0000000 % 2 ^ 31 = 0x20000000 ∧ bits 0x00000001 0 22 ≠ 0 :=
  ⟨quiet (by decide +kernel), by decide⟩

theorem witness_FalseGuards : Quiet (onS []) ∧ (onS []).guardFalse ⟨false, 2⟩ ∧ (onS []).guardFalse ⟨true, 15⟩ ∧
    slotWord (.add ⟨false, 2⟩ 1 2 3) ≠ 0 ∧ ((onS []).core 0).iter.contains 1 = false :=
  ⟨quiet (by decide +kernel), ⟨by decide +kernel, by decide +kernel⟩, ⟨by decide +kernel, by decide +kernel⟩, by decide +kernel,
    by decide +kernel⟩

/-- An ADD and its duplicate, the word of R35 with its bit 21, decode one after the other. -/
theorem witness_Duplicates : slotWord (.add ⟨true, 0⟩ 4 1 2) ≠ 0 ∧ (onS []).upsets = [] ∧
    (onS []).me.r.readPred (headOfInstr (.add ⟨true, 0⟩ 4 1 2)).g.toNat = true ∧
    (match decodeBundle 32 [slotWord (.add g0 4 1 2), slotWord (.add ⟨true, 0⟩ 4 1 2) + 2 ^ 31] with
      | .ok [p, q] => bits p.word 21 1 == 0 && bits q.word 21 1 == 1 && q.ins == .add ⟨true, 0⟩ 4 1 2
      | _ => false) = true :=
  ⟨by decide +kernel, by decide +kernel, by decide +kernel, by decide +kernel⟩

/-- A bundle with a slot to come. -/
def early : State := { onS [] with iss := { (onS []).iss with rest := [(1, 1, .nopS)] } }

theorem witness_NoEffectBeforeEnd : early.iss.rest ≠ [] ∧ ∃ t, exec (.addi g0 1 1 1 []) early = .next t :=
  ⟨by decide +kernel, (next_of (f := fun _ => true) (by decide +kernel)).imp fun _ h => h.1⟩

theorem witness_ScalarFrame : Quiet (onS [1]) ∧ ∃ t, exec (.add g0 4 1 2) (onS [1]) = .next t :=
  ⟨quiet (by decide +kernel), (next_of (f := fun _ => true) (by decide +kernel)).imp fun _ h => h.1⟩

/-- Addresses off their size, the holes at both their ends, LDV and LDQ off 16 bytes, LDQ over and beyond the LSP. -/
theorem witness_AccessFaults : Quiet (onS [1]) ∧ (∀ ea ∈ [1, 0xC0000, 0xFFFFFF, 0x10C0000, 0x13FFFFF, 0x2000000, 2 ^ 32 - 1,
      2 ^ 57, 8, 0xBFFF0, 0x1000000], (onS [1]).me.redirected false ea = false) ∧
    ((0x10C0000 - 0x1000000) % 0x400000 = 0xC0000 ∧ 0xBFFF0 % 16 = 0 ∧ 0xC0000 < 0xBFFF0 + 512 ∧ 0xC0000 % 16 = 0 ∧
      0xC0000 + 512 ≤ 0x1000000 ∧ (0x1000000 - 0x1000000) % 0x400000 + 512 ≤ 0xC0000) ∧
    ∀ k, k < 4 → ((onS []).ctx 0).redirected true (0x1000000 + k * 0x400000 + 0xBFFFF) = false :=
  ⟨quiet (by decide +kernel), by decide +kernel, by decide, by decide +kernel⟩

/-- Context 0 holds an atomic on the LSP word at 0x40. -/
def holds : State := lone fun c => withS [0x40] { c with
  scb := [⟨.atomic .add (pkLsp 0 0x40) 8 1 0 0, 0, 1, 0, 0, 0, none, 0, 0⟩] }

/-- The same in a chain. -/
def holdsInChain : State := holds.setCtx 0 { holds.me with r := { holds.me.r with mxcfg := 2 ^ 63 } }

/-- The load of the word at 0x40. -/
def load40 (s : State) : Load := ⟨rS 2, pieceParts 0 [(pkLsp 0 0x40, 8)], 0, pieceMarks (s.me.foldEa false 0x40) [(pkLsp 0 0x40, 8)]⟩

/-- Whether a load is clean. -/
def cleanB (s : State) (ld : Load) : Bool :=
  !s.me.overlapsSync ld && ld.marks.all fun m => s.meetsPoison s.cur m.1 m.2.1 == none && !s.holdsBack (.read s.cur s.me.bseq) m.1

theorem clean_of {s : State} {ld : Load} (h : cleanB s ld = true) : s.loadClean ld := by
  simp only [cleanB, Bool.and_eq_true, Bool.not_eq_true', List.all_eq_true, beq_iff_eq] at h
  exact h

/-- No save is due. -/
theorem noSave_of {s : State} (h : (!s.me.pendWhole && s.me.twin == none && !s.twinSaving s.cur) = true) : s.noSave := by
  simp only [Bool.and_eq_true, Bool.not_eq_true', beq_iff_eq] at h
  exact ⟨h.1.1, by simp [h.1.2], h.2⟩

theorem witness_ScalarLoads : Quiet (onS [0x40]) ∧ Quiet holds ∧ Quiet holdsInChain ∧
    (∀ s ∈ [onS [0x40], holds, holdsInChain], s.checkAddr 0 true .read false 0x40 8 8 = .ok [(pkLsp 0 0x40, 8)]) ∧
    (onS [0x40]).loadClean (load40 (onS [0x40])) ∧
    (holds.me.overlapsSync (load40 holds) = true ∧ holds.me.inChain = false ∧ holds.noSave) ∧
    holdsInChain.me.overlapsSync (load40 holdsInChain) = true ∧ holdsInChain.me.inChain = true :=
  ⟨quiet (by decide +kernel), quiet (by decide +kernel), quiet (by decide +kernel), by decide +kernel, clean_of (by decide +kernel),
    ⟨by decide +kernel, by decide +kernel, noSave_of (by decide +kernel)⟩, by decide +kernel⟩

/-- Whether a check passes. -/
def passes {α : Type} (c : Chk α) (f : α → Bool) : Bool :=
  match c with
  | .ok x => f x
  | _ => false

theorem passes_of {α : Type} {c : Chk α} {f : α → Bool} (h : passes c f = true) : ∃ x, c = .ok x ∧ f x = true := by
  cases c with
  | ok x => exact ⟨x, rfl, h⟩
  | bad a b => simp [passes] at h
  | wait w => simp [passes] at h

/-- All lanes. -/
def lanes : BitVec 128 := BitVec.allOnes 128

theorem witness_VectorLoads : Quiet (onS [0x40]) ∧
    (∃ es, (onS [0x40]).checkLdv .read false 0x40 lanes = .ok es ∧ (es.length == 128) = true) ∧
    (∃ es, (onS [0x40]).checkEach .read false 64 (fun j => 0x40 + BitVec.ofNat 64 j * 8) lanes = .ok es ∧
      (es.length == 64) = true) ∧
    (onS [0x40]).loadClean (load40 (onS [0x40])) ∧ 0xBFE00 % 16 = 0 ∧ 0xBFE00 + 512 ≤ 0xC0000 ∧
    (onS [0x40]).me.redirected false 0xBFE00 = false :=
  ⟨quiet (by decide +kernel), passes_of (by decide +kernel), passes_of (by decide +kernel), clean_of (by decide +kernel), by decide,
    by decide, by decide +kernel⟩

/-- A store of one granule finds room. -/
theorem witness_Stores : Quiet (onS [0x40]) ∧
    (onS [0x40]).checkAddr 0 true .write false 0x40 8 8 = .ok [(pkLsp 0 0x40, 8)] ∧
    (onS [0x40]).roomFor (.store [(pkLsp 0 0x40, 1)]) 16 none 0 [] ∧
    (∃ es, (onS [0x40]).checkLdv .write false 0x40 lanes = .ok es ∧ (es.length == 128) = true) ∧
    (∃ es, (onS [0x40]).checkEach .write false 32 (fun j => 0x40 + BitVec.ofNat 64 j * 4) lanes = .ok es ∧
      (es.length == 128) = true) :=
  ⟨quiet (by decide +kernel), by decide +kernel, by unfold State.roomFor; decide +kernel, passes_of (by decide +kernel),
    passes_of (by decide +kernel)⟩

/-! ### Tensors -/

/-- Tables in HBM4: tensor 0 as the code page's, tensor 1 of 65,536 bytes in the frame 2, tensor 2 of 2^19 bits in the frame 3. -/
def tables : List (Nat × Nat) :=
  codeTables ++ [(64, 0x400 + 2 * 4 + 16 * 2 ^ 16), (72, 2 ^ 16), (88, 0x6000 + 2 ^ 42), (0x6000, 0xF400000000020000),
    (128, 0x400 + 19 * 2 ^ 16), (136, 2 ^ 19), (152, 0x7000 + 2 ^ 42), (0x7000, 0xF400000000030000)]

/-- A context with these tables, handle n1 of tensor 1, handle n2 of tensor 2, and lane mask l1 of one lane. -/
def tensors (f : Ctx → Ctx) : State :=
  (lone fun c => f ((((c.put (.n 1 (BitVec.allOnes 256) 1)).put (.n 2 (BitVec.allOnes 256) 2)).put
    (.l 1 (BitVec.allOnes 128) 1)))).pokeWords tables

/-- The descriptors of tensors 1 and 2. -/
def descs (s : State) : List (Except Nat Desc) := [s.tensorDesc 1, s.tensorDesc 2]

/-- Whether descriptor and elements of a handle pass, and what the elements then satisfy. -/
def elems (s : State) (n : BitVec 256) (acc : Acc) (l : BitVec 128) (f : Desc → List (Option TElem) → Bool) : Bool :=
  match s.tensorDesc n with
  | .ok ds => (match s.tensorElems n ds acc l with
    | .ok es => f ds es
    | _ => false)
  | .error _ => false

theorem elems_of {s : State} {n : BitVec 256} {acc : Acc} {l : BitVec 128} {f : Desc → List (Option TElem) → Bool}
    (h : elems s n acc l f = true) : ∃ ds es, s.tensorDesc n = .ok ds ∧ s.tensorElems n ds acc l = .ok es ∧ f ds es = true := by
  unfold elems at h
  split at h
  · rename_i ds hd
    split at h
    · rename_i es he
      exact ⟨ds, es, hd, he, h⟩
    · simp at h
  · simp at h

/-- A class 1 task without, and with, the shadow frame of its tile. -/
def shadowless : State := tensors fun c => { c with pcls := 1 }

/-- The same with the frame at HBM4 frame 4. -/
def shadowed : State := shadowless.setSpc 0
  { shadowless.spc 0 with shadows := [⟨0, (0, 1, 0), 0, pkHbm 0x40000, pkHbm 0x20000, pkHbm 0x6000, some 0, [], false⟩] }

/-- Clipped and live elements of bytes and of bits, outside shadow frames and in them, with and without a frame. -/
theorem witness_TensorAccesses :
    Quiet (tensors id) ∧ Quiet shadowless ∧ Quiet shadowed ∧
    (∃ ds es, (tensors id).tensorDesc 1 = .ok ds ∧ (tensors id).tensorElems 1 ds .read 1 = .ok es ∧
      (decide (ds.eb = 3) && decide (es.length = 4)) = true) ∧
    (∃ ds es, (tensors id).tensorDesc 2 = .ok ds ∧ (tensors id).tensorElems 2 ds .write 1 = .ok es ∧
      (decide (ds.eb < 3) && decide (es.length = 32) && es.all fun e => e.all fun e => !(tensors id).tstShadowed 2 e) = true) ∧
    (∃ ds es, shadowless.tensorDesc 1 = .ok ds ∧ shadowless.tensorElems 1 ds .write 1 = .ok es ∧
      (es.length == 4 && es.all fun e => e.any fun e => shadowless.tstShadowed 1 e && shadowless.tileKey 1 e == (0, 1, 0)) = true) ∧
    shadowless.shadowNow 0 (0, 1, 0) = none ∧ shadowless.poolTake 0 ≠ .empty ∧ (shadowed.shadowNow 0 (0, 1, 0)).isSome = true ∧
    shadowed.roomFor (.shadow 0 []) 1 none 0 [] :=
  ⟨quiet (by decide +kernel), quiet (by decide +kernel), quiet (by decide +kernel), elems_of (by decide +kernel),
    elems_of (by decide +kernel), elems_of (by decide +kernel), by decide +kernel, by decide +kernel, by decide +kernel,
    by unfold State.roomFor; decide +kernel⟩

/-- Whether the first element of a handle passes, and what it then satisfies. -/
def elemB (s : State) (n : BitVec 256) (f : TElem → Bool) : Bool :=
  match s.handleDesc false n with
  | .ok ds => (match s.tensorElem n ds .read 0 with
    | .ok (some e) => f e
    | _ => false)
  | .error _ => false

theorem elem_of {s : State} {n : BitVec 256} {f : TElem → Bool} (h : elemB s n f = true) :
    ∃ ds e, s.handleDesc false n = .ok ds ∧ s.tensorElem n ds .read 0 = .ok (some e) ∧ f e = true := by
  unfold elemB at h
  split at h
  · rename_i ds hd
    split at h
    · rename_i e he
      exact ⟨ds, e, hd, he, h⟩
    · simp at h
  · simp at h

/-- A flat address that is mapped, one that is not, one below 2^32; a handle with its tensor, and one without. -/
theorem witness_Prefetch : Quiet (tensors (withS [2 ^ 32])) ∧
    (∃ ps, (tensors id).checkAddr 0 true .read false (2 ^ 32) 1 1 = .ok ps ∧ (ps == [(pkHbm 0x10000, 1)]) = true) ∧
    (∀ ps, (tensors id).checkAddr 0 true .read false (2 ^ 33) 1 1 ≠ .ok ps) ∧
    (∃ ds e, (tensors id).handleDesc false 1 = .ok ds ∧ (tensors id).tensorElem 1 ds .read 0 = .ok (some e) ∧ (e.tile == 0) = true) ∧
    ∀ ds, (tensors id).handleDesc false 3 ≠ .ok ds := by
  refine ⟨quiet (by decide +kernel), passes_of (by decide +kernel), ?_, elem_of (by decide +kernel), ?_⟩
  · rw [show (tensors id).checkAddr 0 true .read false (2 ^ 33) 1 1 = .bad 0x06 (2 ^ 33) by decide +kernel]; exact nofun
  · rw [show (tensors id).handleDesc false 3 = .error 0x06 by decide +kernel]; exact nofun

/-- The tile of the address 2^32 with another leaf; s1 holds the address. -/
def leafed (w : Nat) : State := (tensors (withS [2 ^ 32])).pokeWords [(0x5000, w)]

/-- Tensor 1 with another leaf, descriptor word or poisoned place, and handle n1 with other fields. -/
def tabled (n : BitVec 256) (ws : List (Nat × Nat)) : State :=
  (tensors fun c => c.put (.n 1 (BitVec.allOnes 256) n)).pokeWords ws

/-- Context 0 holds X on tensor 0, whose leaf at 2^32 enforces locks, and the cache of grants does not hold it yet. -/
def granted : State :=
  (leafed 0xF600000000010000).setLkm 0 { (leafed 0).lkm 0 with
    ents := [⟨lockTensor 0 0, (leafed 0).lkId 0, 0, 7, none, 0, false, none, false, false⟩] }

/-- AccessFaults: a flat address and a handle with each leaf; a redirected address within, across and below the window. -/
theorem witness_FlatFaults : Quiet (leafed 0) ∧
    (leafed 0).leafOf 0 (leafed 0).me.space 0 65536 = .absent ∧
    (leafed 0xF40003FFFFFF0000).leafOf 0 (leafed 0).me.space 0 65536 = .malformed ∧
    ((leafed 1).poisonRange (pkHbm 0x5000) 8).leafOf 0 (leafed 0).me.space 0 65536 = .poisoned ∧
    (∀ w ∈ [0xF500000000010000, 0x9400000000010000, 0xFC00000000010000, 0xF600000000010000],
      (leafed w).leafOf 0 (leafed 0).me.space 0 65536 = .leaf (pkHbm 0x5000) w) ∧
    ends (.ldd g0 2 1 0 []) (leafed 0) 0x06 = true ∧ ends (.ldd g0 2 1 0 []) (leafed 0xF40003FFFFFF0000) 0x09 = true ∧
    nextB (exec (.ldd g0 2 1 0 []) (leafed 0xF500000000010000)) (fun t => t.me.stall == some .moving) = true ∧
    ends (.std g0 2 1 0 []) (leafed 0x9400000000010000) 0x09 = true ∧ ends (.ldd g0 2 1 0 []) (leafed 0xFC00000000010000) 0x09 = true ∧
    ends (.ldd g0 2 1 0 []) (leafed 0xF600000000010000) 0x0A = true ∧
    nextB (exec (.ldd g0 2 1 0 []) granted) (fun t => t.me.stall == some (.grant (lockTensor 0 0))) = true ∧
    nextB (exec (.ldd g0 2 1 0 []) ((tensors (withS [2 ^ 32])).poisonRange (pkHbm 0x10000) 8)) (fun t =>
      t.me.fl.map (fun f => f.trap.map fun t => t.cause) == [some 0x10]) = true := by
  refine ⟨quiet (by decide +kernel), ?_⟩
  and_intros <;> decide +kernel

/-- A context with a spill window of 1,024 bytes below 0xC0000, an address in s30, and OVFP 2^32 + 0x400 or less. -/
def spilled (ea ovfp : Nat) : State := tensors fun c =>
  { c.put (.s 30 (BitVec.ofNat 64 ea)) with
    al := { c.al with cvhi := 0xC0000, spill := 1 }, r := { (c.put (.s 30 (BitVec.ofNat 64 ea))).r with ovfp := BitVec.ofNat 64 ovfp } }

theorem witness_Redirected :
    (∀ ea ∈ [0xBFBF8, 0xBFBFC, 0xBFBF9], Quiet (spilled ea (2 ^ 32 + 8)) ∧ (spilled ea 0).me.redirected true ea = true) ∧
    (spilled 0xBFBF8 0).me.cvlo = 0xBFC00 ∧ ends (.ldd g0 2 30 0 []) (spilled 0xBFBF9 (2 ^ 32 + 8)) 0x08 = true ∧
    ends (.ldd g0 2 30 0 []) (spilled 0xBFBFC (2 ^ 32 + 4)) 0x07 = true ∧ ends (.ldd g0 2 30 0 []) (spilled 0xBFBF8 0x108) 0x06 = true ∧
    nextB (exec (.ldd g0 2 30 0 []) (spilled 0xBFBF8 (2 ^ 32 + 8))) (fun t => t.me.fl.length == 1) = true := by
  refine ⟨?_, ?_⟩
  · simp only [List.forall_mem_cons, List.not_mem_nil, IsEmpty.forall_iff, implies_true, and_true]
    exact ⟨⟨quiet (by decide +kernel), by decide +kernel⟩, ⟨quiet (by decide +kernel), by decide +kernel⟩, quiet (by decide +kernel),
      by decide +kernel⟩
  · and_intros <;> decide +kernel

/-- A handle of rank 5, of tensor 0, of an invalid, a malformed and a poisoned descriptor, of another rank; an element in part of
a byte, one beyond an extent, and the leaves of its tile. -/
theorem witness_TensorFaults :
    (∀ e ∈ [(tabled (1 + 4 * 2 ^ 23) [], 0x01), (tabled 0 [], 0x09), (tabled 3 [], 0x06), (tabled 1 [(88, 0x6001 + 2 ^ 42)], 0x09),
        (tabled (1 + 2 ^ 23) [], 0x09), (tabled (2 + 2 ^ 96) [], 0x08),
        (tabled (1 + 2 ^ 23 + 3 * 2 ^ 128) [(64, 0x401 + 2 * 4 + 16 * 2 ^ 16), (72, 2 ^ 16 + 2 * 2 ^ 32)], 0x06),
        (tabled 1 [(0x6000, 0)], 0x06), (tabled 1 [(0x6000, 0xF40003FFFFFF0000)], 0x09), (tabled 1 [(0x6000, 0x9400000000020000)], 0x09),
        (tabled 1 [(0x6000, 0xF600000000020000)], 0x0A)],
      ends (.tst g0 3 1 none) e.1 e.2 = true) ∧
    nextB (exec (.tld g0 3 1 none) (tabled 1 [(0x6000, 0xF500000000020000)])) (fun t => t.me.stall == some .moving) = true ∧
    (∀ pa ∈ [64, 0x6000], ∃ t, exec (.tld g0 3 1 none) ((tabled 1 []).poisonRange (pkHbm pa) 8) = .next t) := by
  refine ⟨by decide +kernel, by decide +kernel, ?_⟩
  simp only [List.forall_mem_cons, List.not_mem_nil, IsEmpty.forall_iff, implies_true, and_true]
  exact ⟨(next_of (f := fun _ => true) (by decide +kernel)).imp fun _ h => h.1,
    (next_of (f := fun _ => true) (by decide +kernel)).imp fun _ h => h.1⟩

/-! ### Ordering, synchronisation and locks -/

/-- A context in a matrix chain that has made a step. -/
def chained (f : Ctx → Ctx) : State := lone fun c =>
  f { c with r := { c.r with mxcfg := 2 ^ 63 }, chains := [⟨0, false, true, [], [], false, []⟩] }

/-- A DRAIN beside a CKPT that has executed. -/
def drains : State := { onS [] with iss := { (onS []).iss with acts := [(3, .ckpt false), (3, .drainOn)] } }

theorem witness_FenceAndDrain : Quiet (onS []) ∧ Quiet (chained id) ∧ (onS []).roomFor (.fence 1 2) 1 none 6 [] ∧
    (chained id).me.inChain = true ∧ (∀ touch, drains.ready g0 touch) ∧
    Quiet { drains with iss := { drains.iss with acts := [] } } ∧ drains.me.inChain = false ∧ drains.noSave :=
  ⟨quiet (by decide +kernel), quiet (by decide +kernel), by unfold State.roomFor; decide +kernel, by decide +kernel,
    (quiet (s := { drains with iss := { drains.iss with acts := [] } }) (by decide +kernel)).2, quiet (by decide +kernel),
    by decide +kernel, noSave_of (by decide +kernel)⟩

theorem witness_ScalarAtomics : Quiet (onS [0x40]) ∧ Quiet (chained (withS [0x40])) ∧
    (∀ acc ∈ [Acc.add, .write], ∀ n ∈ [4, 8],
      (onS [0x40]).checkAddr 0 true acc false 0x40 n n = .ok [(pkLsp 0 0x40, n)] ∧
      (chained (withS [0x40])).checkAddr 0 true acc false 0x40 n n = .ok [(pkLsp 0 0x40, n)]) ∧
    (onS [0x40]).roomFor (.atomic .add (pkLsp 0 0x40) 8 1 0 1) 1 (some (pkLsp 0 0x40 / 32)) 0 [] ∧
    (onS [0x40]).me.inChain = false ∧ (onS [0x40]).noSave ∧ (chained (withS [0x40])).me.inChain = true :=
  ⟨quiet (by decide +kernel), quiet (by decide +kernel), by decide +kernel, by unfold State.roomFor; decide +kernel,
    by decide +kernel, noSave_of (by decide +kernel), by decide +kernel⟩

/-- Barriers in place and off 16 bytes, counts 1, 2^16 - 1, 0 and 2^16, and a bound ring handle h1. -/
theorem witness_SyncEntries : Quiet (lone fun c => (withS [0x40, 1] c).put (.h 1 (2 ^ 33))) ∧
    regionOf 0x40 = 0 ∧ regionOf 0xBFFF0 = 0 ∧ regionOf 0x1000000 = 2 ∧ regionOf 0x1CBFFF0 = 5 ∧ regionOf 0xC0000 = 1 ∧
    ((lone fun c => (withS [0x40, 1] c).put (.h 1 (2 ^ 33))).me.r.rh 1).getLsbD 33 = true ∧
    ((onS []).me.r.rh 1).getLsbD 33 = false ∧
    (∃ es, (onS [0x40]).checkEach .add false 32 (fun j => 0x40 + 4 * signExt j 32) lanes = .ok es ∧
      (es.length == 128) = true) ∧
    (onS [0x40]).checkAddr 0 true .add false 0x40 8 8 = .ok [(pkLsp 0 0x40, 8)] ∧
    (onS [0x40]).roomFor (.cadd (pkLsp 0 0x40) 1) 1 (some (pkLsp 0 0x40 / 32)) 0 [] ∧ (onS [0x40]).noSave :=
  ⟨quiet (by decide +kernel), by decide +kernel, by decide +kernel, by decide +kernel, by decide +kernel, by decide +kernel,
    by decide +kernel, by decide +kernel, passes_of (by decide +kernel), by decide +kernel, by unfold State.roomFor; decide +kernel,
    noSave_of (by decide +kernel)⟩

/-- A flag consumed, a counter reached, a BWAIT with and without a bound. -/
theorem witness_Waits : Quiet (lone fun c => (withS [0x40, 0] c).put (.f 1 1)) ∧
    ((lone fun c => (withS [0x40, 0] c).put (.f 1 1)).me.r.f.truncate 16 &&& (1 : BitVec 16)) = 1 ∧
    (onS [0x40, 0]).checkAddr 0 true .read false 0x40 8 8 = .ok [(pkLsp 0 0x40, 8)] ∧ (onS [0x40, 0]).me.second = false ∧
    (onS [0x40, 0]).me.twin = none ∧
    (onS [0x40, 0]).fencedAt 0 0 (onS [0x40, 0]).me.bseq = false ∧ (onS [0x40, 0]).meetsPoison 0 (pkLsp 0 0x40) 8 = none ∧
    ((onS [0x40, 0]).me.s 2).toNat ≤ (onS [0x40, 0]).word (pkLsp 0 0x40) ∧
    (2 ^ 16 * 100 + 1) / 2 ^ 4 % 2 ^ 12 = 0 ∧ (2 ^ 16 * 100 + 1) / 2 ^ 48 = 0 ∧
    (let s := onS [0x40, 0]
      let at' := s.after { s.me.passed s.iss.pc s.fallThrough with
        todo := [.wait (.ge 3 (pkLsp 0 0x40) 0 0x40) s.iss.pc s.iss.slot false, .due s.iss.pc] };
      at'.coreFenced 0 = false ∧ at'.holdsBack (.read 0 (s.me.bseq + 1)) (pkLsp 0 0x40) = false ∧
      (s.countReads 0 [pkLsp 0 0x40]).poisonedRange (pkLsp 0 0x40) 8 = false) :=
  ⟨quiet (by decide +kernel), by decide +kernel⟩

/-- Words of tensor 1 in mode X pass; level 3 does not. -/
theorem witness_Locks : Quiet (tensors (withS [0, 1 + 7 * 2 ^ 20])) ∧
    (tensors id).lockOk 0 (1 + 7 * 2 ^ 20) = true ∧ (tensors id).lockOk (3 * 2 ^ 50) (1 + 7 * 2 ^ 20) = false ∧
    (tensors id).roomFor .lkrelAll 1 none 0 [] :=
  ⟨quiet (by decide +kernel), by decide +kernel, by decide +kernel, by unfold State.roomFor; decide +kernel⟩

/-! ### Vectors -/

/-- The iterative units are free. -/
theorem unitsFree_of {s : State} (h : (s.vUnits.all fun u => !(s.core (coreOf s.cur)).iter.contains u) = true) : s.unitsFree := by
  intro u hu
  have := List.all_eq_true.mp h u hu
  simpa using this

/-- VectorFloat, VectorInteger, ConvertCompareSelect, VectorMoves, ReductionsAndMasks and LevelIndex ask no more; in class 1
both units are meant. The saturation bounds of R165 at their ends. -/
theorem witness_Vectors : Quiet (onS []) ∧ (onS []).unitsFree ∧ Quiet (lone fun c => { c with pcls := 1 }) ∧
    (lone fun c => { c with pcls := 1 }).unitsFree ∧ (0 < 1) ∧ (-2 ^ 31 - 1 < (-2 ^ 31 : Int)) ∧ ((2 ^ 31 - 1 : Int) < 2 ^ 31) ∧
    List.length (List.replicate 128 (⟨0, 0, []⟩ : El)) = 4096 / 32 :=
  ⟨quiet (by decide +kernel), unitsFree_of (by decide +kernel), quiet (by decide +kernel), unitsFree_of (by decide +kernel),
    by decide, by decide, by decide, by decide +kernel⟩

/-- The largest FP32 number, an operand of each kind, and a sum that is zero and one that is not. -/
theorem witness_VectorFloat : Fmt.f32.decode Fmt.f32.maxBits = .num false (2 ^ 24 - 1) 104 ∧
    Fmt.e4m3.decode Fmt.e4m3.maxBits = .num false 14 5 ∧ Fmt.f32.decode 0x3F800001 = .num false (2 ^ 23 + 1) (-23) ∧
    Fmt.f32.decode 0x7F800000 = .inf false ∧ (1 : ℚ) * 2 ^ (1 : ℤ) + -2 * 2 ^ (0 : ℤ) = 0 ∧ (1 : ℚ) * 2 ^ (1 : ℤ) + 2 * 2 ^ (0 : ℤ) ≠ 0 ∧
    Fmt.f32.addV .rne (.num false 1 1) (.num true 2 0) = (0, 0) ∧
    (Fmt.f32.roundMag .rup false (2 ^ 24) 104 false).2.testBit 2 = true ∧
    Fmt.bf16.roundMag .rne true 1 (-130) false = (0x8000, flagUF + flagNX) := by
  and_intros <;> first | norm_num; done | decide +kernel

/-- Terms of one step, a difference below and at the level of the larger word, and words of each kind. -/
theorem witness_LevelIndex : texp 0 = 2 ^ 48 ∧ fixMul 0 (2 ^ 48) = 0 ∧ tln (2 ^ 48) = 0 ∧
    fixMul (2 ^ 47) (2 ^ 48) = 2 ^ 47 ∧ tln (2 ^ 48 - 2 ^ 47) < tln (2 ^ 48) ∧
    (2 ^ 48 : Int) ≤ 2 ^ 48 + fixMul (2 ^ 48) 0 ∧ (lxFmt 0).decode (2 ^ 27) = .val false false 1 0 ∧ (lxFmt 0).decode 0 = .zero ∧
    (lxFmt 1).decode 1 = .nar := by and_intros <;> decide +kernel

/-! ### Matrix instructions -/

/-- A task of 128 rows that issues an X slot: weights of format 0 current in WB0, addresses 0x100 and a stride of 0x200. -/
def matrix (f : Ctx → Ctx) : State :=
  let s := lone fun c => f (withS [0x100, 0x200] { c with al := { c.al with acc := 2, regions := [0] } })
  s.setCore 0 { s.core 0 with wb0 := ⟨true, true, 0, 0, []⟩ }

/-- The same in a chain in which row 0 has been initialised. -/
def inChain (f : Ctx → Ctx) : State := matrix fun c =>
  f { c with r := { c.r with mxcfg := 2 ^ 63 }, chains := [⟨0, true, true, [0], [], false, []⟩] }

/-- Whether an instruction puts one X operation in flight, whose request waits for nothing. -/
def starts (i : Instr) (s : State) : Bool :=
  quietB s && nextB (exec i s) fun t => match t.me.mx with
    | [o] => s.mxWaits 0 o.req.op o.req.ds o.req.rows == none && !s.mxBehind 0 o.req
    | _ => false

/-- Each operation of MatrixOperations passes its checks and starts; rows beyond the allocation are refused. -/
theorem witness_MatrixOperations : starts (.xwld g0 1 2 0) (matrix id) = true ∧ starts (.xmacz g0 1 0) (matrix id) = true ∧
    starts (.xmac g0 1 0) (inChain id) = true ∧ starts (.xchk g0 1 0) (matrix id) = true ∧
    starts (.xclr g0 0) (matrix id) = true ∧ starts (.xfix g0 3 1) (matrix id) = true ∧
    ends (.xclr g0 (BitVec.ofNat 28 (128 * 128))) (matrix id) 9 = true := by decide +kernel

/-- The first test that fails of XACCLD, XACCST and XEPI: chain, format, PL with INT32, rows, group, s[a], s[b], a row. -/
theorem witness_MatrixTraps :
    (∀ i ∈ [Instr.xaccld g0 1 2 0, .xaccst g0 1 2 0, .xepi g0 1 2 0], ends i (inChain id) 3 = true ∧
      ends i (matrix (withS [0x104, 0x200])) 8 = true ∧ ends i (matrix (withS [0x100, 0x204])) 8 = true ∧
      ends i (matrix (withS [0xC0000, 0x200])) 6 = true) ∧
    (∀ i ∈ [Instr.xaccld g0 1 2 (BitVec.ofNat 28 (128 * 128)), .xaccst g0 1 2 (BitVec.ofNat 28 (128 * 128)),
      .xepi g0 1 2 (BitVec.ofNat 28 (128 * 128))], ends i (matrix id) 9 = true) ∧
    ends (.xepi g0 1 2 (BitVec.ofNat 28 (2 ^ 19))) (matrix id) 2 = true ∧
    (∀ i ∈ [Instr.xaccld g0 1 2 0, .xepi g0 1 2 0], ends i (matrix fun c => { c with r := { c.r with mxcfg := 5 } }) 2 = true) ∧
    (∀ i ∈ [Instr.xaccst g0 1 2 0, .xepi g0 1 2 0], ends i ((matrix id).setCore 0 { (matrix id).core 0 with
      acc := { ((matrix id).core 0).acc with ginv := 1 } }) 3 = true) := by
  and_intros <;> decide +kernel

/-- A row whose automatic check fails: the entry holds no payload, and CHECKSUM is to land. -/
def checkFails : State := (matrix fun c => { c with r := { c.r with mxcfg := 2 ^ 18 } }).setCore 0 { (matrix id).core 0 with
  acc := ((AccStore.reset.stepInto false false 0 0 1 none).1) }

theorem witness_MatrixCheck : Quiet checkFails ∧
    ((checkFails.core 0).acc.tests (fmtFloat 0) (cfgTol checkFails.me.r.mxcfg.toNat) [0]).1 ++
      ((checkFails.core 0).acc.tests (fmtFloat 0) (cfgTol checkFails.me.r.mxcfg.toNat) [0]).2.1 ≠ [] ∧
    cfgXC checkFails.me.r.mxcfg.toNat = true ∧
    nextB (exec (.xepi g0 1 2 0) checkFails) (fun t => t.me.mx.any (fun o => o.eff == .chk true) && t.me.scb.length == 1) = true :=
  ⟨quiet (by decide +kernel), by decide +kernel, by decide +kernel, by decide +kernel⟩

/-- XACCLD, XACCST and XEPI of one row pass. -/
theorem witness_MatrixMemory : starts (.xaccld g0 1 2 0) (matrix id) = true ∧ Quiet (matrix id) ∧
    (∀ acc ∈ [Acc.read, .write], (matrix id).checkAddr 0 false acc false 0x100 512 1 = .ok [(pkLsp 0 0x100, 512)]) ∧
    (matrix id).me.openChain = none ∧ (matrix id).me.pcls = 0 ∧ cfgXC (matrix id).me.r.mxcfg.toNat = false ∧
    ((matrix id).core 0).outst < 4 ∧ nextB (exec (.xaccst g0 1 2 0) (matrix id)) (fun t => t.me.scb.length == 1) = true ∧
    nextB (exec (.xepi g0 1 2 0) (matrix id)) (fun t => t.me.scb.length == 1) = true :=
  ⟨by decide +kernel, quiet (by decide +kernel), by decide +kernel, by decide +kernel, by decide +kernel, by decide +kernel,
    by decide +kernel, by decide +kernel, by decide +kernel⟩

theorem witness_MatrixChains : Quiet (matrix id) ∧ Quiet (inChain id) ∧ (matrix id).me.openChain = none ∧
    (inChain id).me.openChain = some ⟨0, true, true, [0], [], false, []⟩ := ⟨quiet (by decide +kernel), quiet (by decide +kernel),
  by decide +kernel⟩

/-- A row of zeros passes its test, and a step of zeros saturates nothing. -/
theorem witness_MatrixArithmetic : (mulV (Fmt.bf16.decode 0x3F80) (Fmt.bf16.decode 0x4000)).1 = .num false (2 ^ 14) (-13) ∧
    (mulV (Fmt.bf16.decode 0x7F80) (Fmt.bf16.decode 0x3F80)).1 = .inf false ∧
    (mulV (Fmt.bf16.decode 0x7F80) (Fmt.bf16.decode 0)).1 = .nan ∧ AccStore.reset.rowFails false 0 0 = false ∧ (AccStore.reset.stepInto false false 0 0 0 none).2 = 0 ∧
    (List.replicate 128 (1 : Nat)).length = 128 ∧ (∀ x ∈ List.replicate 128 (1 : Nat), x < 2 ^ fmtWidth 4) :=
  by and_intros <;> decide +kernel

/-! ### Streams, rings and tasks -/

/-- Whether an instruction makes one entry. -/
def enters (i : Instr) (s : State) : Bool := quietB s && nextB (exec i s) fun t => t.me.scb.length == 1

/-- Each command of CopyCommands and OtherCommands passes its checks in some state: the LSP image at 0x100, flat source
2^32, one column or element, handle n1 of tensor 1, a ring handle h1 of a loader or of a storer, a task of a kernel. -/
theorem witness_Commands :
    let s := tensors fun c => (withS [0x100, 2 ^ 32, 0, 127] c).put (.h 1 (2 ^ 33))
    let kernel := s.pokeWords [(0x10000, 0)]
    enters (.cpyHandle g0 1 1 3) s = true ∧ enters (.cpyAddress g0 1 2 3) s = true ∧ enters (.cpypHandle g0 1 1 4) s = true ∧
    enters (.cpypAddress g0 1 2 4) s = true ∧ enters (.cpyw g0 2 3) s = true ∧ enters (.subsLoad g0 1 1 3) s = true ∧
    enters (.sube g0 1) s = true ∧ enters (.coll g0 1 2 3) s = true ∧ enters (.fput g0 1 2 3) s = true ∧
    enters (.klaunch g0 2) kernel = true ∧
    enters (.subsStore g0 1 1 3) (tensors fun c => (withS [0x100, 2 ^ 32, 0] c).put (.h 1 (2 ^ 33 + 2 ^ 35))) = true := by decide +kernel

/-- An LSP image at 8 is refused, as is a control word with bit 62. -/
theorem witness_CommandsRefused :
    ends (.cpyAddress g0 1 2 3) (tensors (withS [8, 2 ^ 32, 0])) 8 = true ∧
    ends (.cpyAddress g0 1 2 3) (tensors (withS [0x100, 2 ^ 32, 2 ^ 62])) 9 = true ∧
    ends (.coll g0 1 2 3) (tensors (withS [0x100, 2 ^ 32, 2 ^ 31])) 9 = true ∧
    ends (.tspawn g0 1 2 3) (onS [2 ^ 11, 0, 0]) 9 = true ∧
    ends (.subsLoad g0 1 1 3) (tensors fun c => (withS [0x100, 2 ^ 32, 0] c).put (.h 1 (2 ^ 33 + 2 ^ 35))) 9 = true ∧
    ends (.subsStore g0 1 1 3) (tensors fun c => (withS [0x100, 2 ^ 32, 0] c).put (.h 1 (2 ^ 33))) 9 = true ∧
    ends (.cpyw g0 1 2) (onS [8, 2 ^ 62]) 8 = true ∧ ends (.cpyw g0 1 2) (onS [0x100, 2 ^ 62]) 9 = true ∧ ends (.klaunch g0 1) (onS [0x104]) 8 = true := by decide +kernel

/-- A ring of two slots at entry 0 of core 0, h1 bound to it as producer, h2 not bound, and one engine fault. -/
def ringed : State :=
  let s := lone fun c => (withS [0, 2 ^ 8] { c with efq := [5] }).put (.h 1 (2 ^ 33 + 2 ^ 35 + 2 ^ 25))
  s.setCore 0 { s.core 0 with rings := [(0, BitVec.ofNat 128 (2 ^ 33 + 2 ^ 25))] }

theorem witness_RingsAndStatus : Quiet ringed ∧ (ringed.me.r.rh 1).getLsbD 33 = true ∧ (ringed.me.r.rh 2).getLsbD 33 = false ∧
    (ringed.me.r.rh 1).toNat / 2 ^ 25 % 2 ^ 8 + 1 = 2 ∧ (ringed.me.s 1).toNat < 2 ^ 8 ∧ ¬((ringed.me.s 2).toNat < 2 ^ 8) ∧
    (ringed.given 7 = some (ringed, 7)) ∧ ringed.me.efView = [5] ∧
    ringed.roomFor (.hadv 0 0 true 1) 1 none 0 [] :=
  ⟨quiet (by decide +kernel), by decide +kernel, by decide +kernel, by decide +kernel, by decide +kernel, by decide +kernel,
    by decide +kernel, by decide +kernel, by unfold State.roomFor; decide +kernel⟩

/-- A secondary that has been handed nothing waits, one that has been handed a value takes it. -/
theorem witness_Given :
    (lone fun c => { c with pcls := 2, second := true, twin := some 1 }).given 7 = none ∧
    ((lone fun c => { c with pcls := 2, second := true, twin := some 1, deliver := [(0, 9)] }).given 7).map (·.2) = some 9 := by
  decide +kernel

/-! ### Control registers, checkpoints, traps and system instructions -/

/-- The handler's mode. -/
def handling (f : Ctx → Ctx) : State := lone fun c => f { c with hnd := true }

/-- The indexes on both sides of each gap of the list. -/
theorem witness_Unlisted : (∀ i ∈ [0x00A, 0x00F, 0x017, 0x0FF, 0x107, 0xFFF], decodeBundle 32 (padBundle (encode (.csrr g0 1 i))) = .error 0) ∧
    ∀ i ∈ [0x000, 0x009, 0x010, 0x016, 0x100, 0x106], (decodeSlot (slotWord (.csrr g0 1 i)) []).isSome = true := by
  and_intros <;> decide +kernel

theorem witness_ControlRegisters : Quiet (onS [1]) ∧ Quiet (handling (withS [1])) ∧ (handling (withS [1])).me.hnd = true ∧
    (onS [1]).me.hnd = false ∧ Quiet (chained id) ∧ (chained id).me.inChain = true ∧
    (((onS [1]).me.passed (onS [1]).iss.pc (onS [1]).fallThrough).put (.csr 0x010 (BitVec.allOnes 64) 1)).runLimit / 8 < (onS [1]).me.run - 1 :=
  ⟨quiet (by decide +kernel), quiet (by decide +kernel), by decide +kernel, by decide +kernel, quiet (by decide +kernel),
    by decide +kernel, by decide +kernel⟩

/-- Whether a task is plain, its one interval being the first. -/
def plainB (s : State) : Bool :=
  decide (s.me.pcls = 0 ∧ s.me.twin = none ∧ s.me.wndp = false ∧ s.me.scb = [] ∧ s.me.flying = [] ∧ s.me.deliver = [] ∧ s.me.recov = .none ∧
    s.shadowsOf s.cur (fun _ => true) = [] ∧ s.me.ivs = [Interval.fresh 0 Regs.reset])

theorem plain_of {s : State} (h : plainB s = true) : s.plain := by
  obtain ⟨h1, h2, h3, h4, h5, h6, h7, h8, h9⟩ := of_decide_eq_true h
  exact ⟨h1, h2, h3, h4, h5, h6, h7, h8, _, h9, rfl, rfl, rfl⟩

/-- A context of which a save is asked for, with room for one. -/
def asked : State :=
  let s := lone fun c => { c with pend := some 0 }
  s.setIoc 0 { s.ioc 0 with svps := 1 }

theorem witness_Checkpoints : Quiet (onS []) ∧ (onS []).noSave ∧ (onS []).plain ∧ (onS []).me.inChain = false ∧
    Quiet (chained id) ∧ (chained id).me.inChain = true ∧ (onS []).me.pend = none ∧ Quiet asked ∧ asked.me.pend ≠ none ∧
    asked.savePoint 0 = true ∧ (onS [1, 2]).me.s 1 ≠ (onS [1, 2]).me.s 2 ∧ (onS [1, 1]).me.s 1 = (onS [1, 1]).me.s 2 ∧
    (onS []).me.foldsDue = false ∧
    (lone fun c => { c with pcls := 1, chains := [⟨0, true, true, [], [], true, []⟩] }).me.foldsDue = true :=
  ⟨quiet (by decide +kernel), noSave_of (by decide +kernel), plain_of (by decide +kernel), by decide +kernel,
    quiet (by decide +kernel), by decide +kernel, by decide +kernel, quiet (by decide +kernel), by decide +kernel,
    by decide +kernel, by decide +kernel, by decide +kernel, by decide +kernel, by decide +kernel⟩

/-- A registered group 0 of ASID 0 that IOC 0 can read. -/
def grouped : State :=
  let s := ((onS []).pokeWords (codeTables ++ [(0x10000, 1)])).setIoc 0 { (onS []).ioc 0 with grtb := 0x100000000 }
  { s with msc := { s.msc with sysrt := 0x1000 } }

theorem witness_SystemInstructions : Quiet (onS []) ∧ (onS []).me.hnd = false ∧ Quiet (handling id) ∧ (handling id).me.hnd = true ∧
    (handling id).noSave ∧ (handling id).plain ∧ (handling id).me.inChain = false ∧
    Quiet (handling fun c => { c with r := { c.r with mxcfg := 2 ^ 63 } }) ∧ Quiet grouped ∧
    grouped.groupHas (grouped.iocOf 0) 0 0 = true ∧ (onS []).groupHas 0 0 0 = false ∧ grouped.noSave ∧
    (onS []).roomFor (.step 0) 1 none noPath [] ∧ 2 ^ 32 % 4096 = 0 ∧ (2 ^ 57 - 64) % 64 = 0 ∧ 2 ^ 57 - 64 < 2 ^ 57 :=
  ⟨quiet (by decide +kernel), by decide +kernel, quiet (by decide +kernel), by decide +kernel, noSave_of (by decide +kernel),
    plain_of (by decide +kernel), by decide +kernel, quiet (by decide +kernel), quiet (by decide +kernel), by decide +kernel,
    by decide +kernel, noSave_of (by decide +kernel), by unfold State.roomFor; decide +kernel, by decide⟩

/-- A handler at 2^32 + 0x400 for every cause, in the context's own tables. -/
def handlers (f : Ctx → Ctx) : State :=
  (lone fun c => f { c with htb := 0x100000000 }).pokeWords
    (codeTables ++ (List.range 32).map fun i => (0x10000 + 8 * i, 0x100000400))

theorem witness_SoftwareTraps : Quiet (handlers id) ∧ (handlers id).me.inChain = false ∧ (handlers id).noSave ∧
    (handlers id).plain ∧ (handlers id).me.hnd = false ∧ (handlers id).handler 0x15 = .ok 0x100000400 ∧
    (handlers id).handler 0x16 = .ok 0x100000400 ∧ 0x100000400 % 4 = 0 :=
  ⟨quiet (by decide +kernel), by decide +kernel, noSave_of (by decide +kernel), plain_of (by decide +kernel), by decide +kernel,
    by decide +kernel, by decide +kernel, by decide⟩

/-- Handlers for a task, none for a task without a table, and a trap in the handler. -/
theorem witness_TrapEntry : (handlers id).me.st = .issuing ∧ (handlers id).me.due' = [] ∧ (onS []).me.due' = [] ∧ (handlers id).me.recov.isThird = false ∧ (handlers id).me.hnd = false ∧
    ((handlers id).rollback 0).handler 0x06 = .ok 0x100000400 ∧ (handling id).me.hnd = true ∧ (handling id).me.twin = none ∧
    (handling id).me.recov.isThird = false ∧ ((onS []).rollback 0).handler 0x06 ≠ .ok 0x100000400 := by decide +kernel

/-! ### Events -/

/-- A result in flight to s1: exposed or interlocked, landing at bundle count 3. -/
def inFlight (ilk : Bool) : Flight := ⟨.s 1 7, 3, ilk, 0, 0, none, [], none, 0, none, 0, []⟩

/-- A result whose landing traps. -/
def trapping : Flight := { inFlight true with trap := some ⟨0x09, 0, 0, 0, 0, 0, 0, 0, .handler⟩ }

/-- A parked context with a wait. -/
def parked (w : Wait) (f : Ctx → Ctx) : State := lone fun c => f { c with st := .parked, wait := some (w, 0, 0) }

/-- Whether a wait is satisfied. -/
def satB (w : Waited) : Bool := match w with | .sat _ => true | _ => false

theorem sat_of {w : Waited} (h : satB w = true) : ∃ u, w = .sat u := by
  cases w with
  | sat u => exact ⟨u, rfl⟩
  | park => simp [satB] at h
  | bad pa va => simp [satB] at h

/-- The trap of a request to abort. -/
def aborted : TrapReq := ⟨0x18, 0, 0, 0, 0, 0, 0, 0, .handler⟩

/-- The clock, the run limit, landings and waits. -/
theorem witness_CoreEvents1 :
    (let k : Core := { Core.reset with batch := [0] };
      k.gated = true ∧ k.batch ≠ [] ∧ k.ready ++ ((onS []).setCore 0 k).sortBatch k.last k.batch = [0]) ∧
    ((lone fun c => { c with run := 8192 }).me.due = false ∧ 8192 ≤ (lone fun c => { c with run := 8192 }).me.runLimit / 8) ∧
    (let c := (lone fun c => { c with run := 0, todo := [.expire 0] }).me;
      c.todo = .expire 0 :: [] ∧ c.run = 0 ∧ c.st = .issuing ∧ c.pcls = 0) ∧ (lone fun c => { c with run := 0, todo := [.expire 0] }).saveHere 0 = false ∧
    (let c := (lone fun c => { c with fl := [inFlight false], todo := [.land] }).me;
      c.landing = true ∧ c.nextExposed = some 3 ∧ c.nextLand = some 3 ∧ c.stall = none ∧ c.mx = []) ∧
    (let c := (lone fun c => { c with fl := [trapping] }).me;
      c.fl[0]? = some trapping ∧ trapping.ilk = true ∧ c.mayLand trapping = true ∧ bestTrap ((c.landsWith trapping).filterMap (·.trap)) = trapping.trap) ∧
    ((lone fun c => { c with fl := [inFlight true] }).me.stall = none) ∧
    ((parked (.flag false 1) fun c => c.put (.f 1 1)).me.st = .parked) ∧ (parked (.flag false 1) fun c => c.put (.f 1 1)).me.due' = [] ∧
    (parked (.flag false 1) fun c => c.put (.f 1 1)).woundParked 0 = false ∧
    (parked (.flag false 1) fun c => { c with wndp := true }).woundParked 0 = true ∧
    (parked (.ge 1 (pkLsp 0 0) 1 0) id).waitsAt (pkLsp 0 0) = none ∧
    (∃ u, (parked (.flag false 1) fun c => c.put (.f 1 1)).evalWait 0 (.flag false 1) false = .sat u) ∧
    (parked (.flag false 1) fun c => { c with due' := [aborted] }).me.due' ≠ [] ∧
    (({ parked (.ge 1 (pkLsp 0 0) 1 0) id with poison := [pkLsp 0 0] } : State).evalWait 0 (.ge 1 (pkLsp 0 0) 1 0) false = .bad (pkLsp 0 0) 0) ∧
    ∃ u, ((parked (.bar 1 (pkLsp 0 0) 0 (some 0) 0) id).poke (pkLsp 0 0) [1]).evalWait 0 (.bar 1 (pkLsp 0 0) 0 (some 0) 0) true =
      .sat u :=
  by and_intros <;> first | exact sat_of (by decide +kernel) | decide +kernel

/-- A context with one thing left to do, and whether an event takes it to a state that satisfies `f`. -/
def doing (t : Tail) (f : Ctx → Ctx) : State := lone fun c => f { c with todo := [t] }

/-- Whether what is left to do becomes something else. -/
def moves (i : Instr) (s : State) : Bool := nextB (exec i s) fun t => decide (t.me.todo ≠ s.me.todo ∨ t.me.stall ≠ s.me.stall)

/-- The name of tensor 1. -/
def name1 : LockName := lockTensor 0 1

/-- Lock managers that hold, or do not hold, X of tensor 1 for the task of context 0. -/
def holding (b : Bool) (s : State) : State :=
  s.setLkm (lkmHome 0 1) { Lkm.reset with ents := if b then [⟨name1, (0, 0), 0, 7, none, 0, false, none, false, false⟩] else [] }

/-- DRAIN, TTINV, ICINV, lock answers, and the stalls that grants, moving tiles and shadow frames end. -/
theorem witness_CoreEvents2 :
    ((doing (.drain 0x3F 4 0) id).me.due' = [] ∧ (doing (.drain 0x3F 4 0) id).drained 0 0x3F = true) ∧
    ((doing (.drain 0x3F 4 0) fun c => { c with due' := [aborted] }).me.due'.any fun t => t.cause == 0x18) = true ∧
    moves (.ttinvAcknowledge 0) (doing (.ttinv 3 0 0) id) = true ∧
    moves (.icinvAcknowledge 0) (doing (.icinv true 0 128) id) = true ∧
    (doing (.lock 5 name1 7 1 0 0) id).coreFenced 0 = false ∧ moves (.lockAnswer 0) (doing (.lock 5 name1 7 1 0 0) id) = true ∧
    moves (.lockAnswer 0) (doing (.lock 0 name1 7 1 0 0) id) = true ∧
    moves (.lockAnswer 0) (doing (.lock 5 name1 7 1 0 0) fun c => { c with second := true, deliver := [(0, 1)] }) = true ∧
    (let s := (doing (.lock 5 name1 7 1 0 0) fun c => { c with second := true, twin := some 8 }).setCtx 8
        { Ctx.reset 8 with st := .parked, wait := some (.lock 1 name1, 0, 0) };
      s.me.delivered 0 = none ∧ s.twinParked 0 = true) ∧
    (let s := holding true (lone fun c => { c with stall := some (.grant name1) });
      (s.lkm (lkmHome 0 1)).heldBy name1 (s.lkId 0) = 7 ∧ s.woundedId (s.lkId 0) = false) ∧
    (let s := holding false (lone fun c => { c with stall := some (.grant name1) });
      (s.lkm (lkmHome 0 1)).heldBy name1 (s.lkId 0) = 0) ∧
    (((tabled 1 [(0x6000, 0xF500000000020000)]).spaceOn 0 0).any fun sp =>
      (tabled 1 [(0x6000, 0xF500000000020000)]).walkTile 0 sp 1 0 == .leaf (pkHbm 0x6000) 0xF500000000020000) = true ∧
    moves (.migrationWalkRetry 0) (lone fun c => { c with stall := some .moving }) = true ∧
    (shadowless.walkTile 0 shadowless.me.space 1 0 = .leaf (pkHbm 0x6000) 0xF400000000020000) ∧
    (((lone fun c => { c with stall := some (.iter 1) }).setCore 0 { Core.reset with iter := [1] }).issuer 0 = some 0) ∧
    moves (.iterativeUnitFree 0 1) ((lone fun c => { c with stall := some (.iter 1) }).setCore 0 { Core.reset with iter := [1] })
      = true ∧
    ((lone id).setCore 0 { Core.reset with iter := [1] }).unitEnds 0 1 = true ∧
    ((tensors id).spaceOn 0 0).any (fun sp => ((tensors id).walkTile 0 sp 1 0 == .leaf (pkHbm 0x6000) 0xF400000000020000) &&
      ((tensors id).descMem sp 1).any fun d => d.valid && !d.malformed) = true ∧ bits 0xF400000000020000 56 1 = 0 ∧
    bits 0xF400000000020000 57 1 = 0 := by and_intros <;> decide +kernel

/-- The operation of an X slot that lands at the next engine step. -/
def landing (op : Nat) (eff : MxEff) : MxOp :=
  ⟨(matrix id).xreq op 3 0 0 0 [0] [] none, mxPart op, 1, some 1, eff, false, []⟩

/-- A matrix stall, in which one operation is in flight. -/
def stalledOn (op : Nat) (eff : MxEff) : State := matrix fun c =>
  { c with mx := [landing op eff], stall := some (.part (mxPart op)) }

theorem witness_MatrixEvents :
    (∀ op ∈ [1, 2, 3, 6, 8, 9, 10, 11], (stalledOn op (.clr false)).issuer 0 = some 0 ∧ (stalledOn op (.clr false)).me.mxStalled = true ∧
      (stalledOn op (.clr false)).me.nextSteps = some 1) ∧
    (let c := { (stalledOn 1 (.clr false)).me with stall := none, todo := [.land] };
      c.mxStalled = false ∧ c.landing = true ∧ c.nextLand = some 1) ∧
    (∀ x ∈ [(Instr.weightBufferCurrent 0 0, stalledOn 1 (.wld 1 ⟨true, true, 0, 0, []⟩ none)), (.matrixRowsLand 0 0, stalledOn 11 (.clr false)),
        (.xchkComplete 0 0, stalledOn 9 (.status 3 5 none)), (.xfixComplete 0 0, stalledOn 10 (.status 3 5 none)),
        (.matrixPartFree 0 2, stalledOn 11 (.clr false))], moves x.1 x.2 = true) ∧
    (let s := matrix fun c => { c with mx := [{ landing 7 (.ld false [(0, 5)]) with land := none }] };
      s.issuer 0 = some 0 ∧ s.me.mx[0]?.any (fun o => !o.landed && o.req.op == 7) = true) ∧
    (∀ op ∈ [1, 7], let s := matrix fun c => { c with mx := [{ landing op .held with land := none }] };
      s.me.mx[0]?.any (fun o => !s.mxBehind 0 o.req && !s.me.mxQueued o.req && s.me.partSteps o.part == 0 &&
        (s.mxHeld 0 o.req).isNone && o.req.reads.all fun r => !s.poisonedRange r.1 r.2) = true) ∧
    (let s := stalledOn 1 (.wld 1 ⟨true, true, 0, 0, []⟩ none);
      s.me.fl = [] ∧ (∀ ch ∈ s.me.chains, ch.closed = false) ∧ s.me.mx = [landing 1 (.wld 1 ⟨true, true, 0, 0, []⟩ none)] ∧
      (landing 1 (.wld 1 ⟨true, true, 0, 0, []⟩ none)).req.chain = none ∧ s.me.mstep = 0) ∧
    moves (.weightBufferCurrent 0 0) (stalledOn 1 (.wld 1 ⟨true, true, 0, 0, []⟩ (some 5))) = true ∧
    moves (.xepiCheck 0 0) (stalledOn 8 (.chk true)) = true := by
  and_intros <;> decide +kernel

/-- An entry of an interval that has agreed is next to leave, of each kind that the statement tells apart. -/
def releasing (op : EntOp) (f : Ctx → Ctx) : State := lone fun c => f { c with scb := [⟨op, 99, 1, 0, 0, 0, none, 0, 0⟩] }

theorem witness_ReleaseEvents :
    (∀ op ∈ [EntOp.store [(pkLsp 0 0, 1)], .fence 1 2, .step 5, .atomic .add (pkLsp 0 0) 8 1 0 3, .barv (pkLsp 0 0) 1 3],
      (releasing op id).me.releasable.isSome = true) ∧
    (let e : Entry := ⟨.store [(pkLsp 0 0, 1)], 99, 1, 0, 0, 0, none, 0, 0⟩;
      e.marker = false ∧ e.returning = false) ∧
    (let s := releasing (.atomic .add (pkLsp 0 0) 8 1 0 3) fun c => { c with todo := [.agree], ivs := c.ivs.map fun i => { i with agreed := true } };
      s.me.todo = .agree :: [] ∧ s.me.allAgreed = true ∧ s.me.follows (some 99) = false ∧ s.poisonedRange (pkLsp 0 0) 8 = false ∧
      s.me.releasable.any (fun e => e.returning) = true) ∧
    ((lone fun c => { c with second := true, twin := some 1, deliver := [(0, 4)] }).me.follows (some 99) = true) ∧
    ((releasing (.fence 1 2) id).pathOpen 0 1 0 = false) ∧
    (let s := releasing (.store [(pkLsp 0 0, 1)]) id;
      s.me.releasable.any (fun e => !s.releaseWaits 0 e && s.serves 0 e) = true ∧ s.nextFlying 0 = none ∧ s.me.flying = []) ∧
    (let s := lone fun c => { c with flying := [⟨.store [(pkLsp 0 0, 1)], 99, 1, 0, 0, 0, none, 0, 0⟩] };
      s.me.flying.all (fun e => s.serves 0 e && !s.me.follows (some e.iv)) = true ∧ s.canRelease 0 = false ∧ s.poison = [] ∧
      homeUnit (pkLsp 0 0) = none ∧ Memory.wf s.mem = true) ∧
    (∃ u, homeUnit (pkHbm 0) = some u ∧
      bits (((onS []).setUnit u { MemUnit.reset u with hotcfg := 0 }).unit u).hotcfg.toNat 0 16 = 0) ∧
    (∀ rows ∈ [[], [(pkLsp 0 0x100, [1, 2])]],
      let e : EngCmd := ⟨{ mxCmd 0 (matrix id).me (landing 8 (.chk false)).req [] with rows := rows }, 0, 2, 0, none, [], false, false, []⟩
      let s : State := { matrix id with cmds := [(0, e)] };
      s.stageTurn e = true ∧ e.c.op = .xaccst ∧ s.struck .transport = false ∧ ∀ r ∈ rows, s.holdsBack (.cmd 0) r.1 = false) ∧
    ({ matrix id with upsets := [.transport] } : State).struck .transport = true := by
  and_intros <;> first | exact ⟨0, by decide +kernel⟩ | decide +kernel

/-- An interval that has closed with a signature. -/
def closed (sig : Word × Word) (f : Ctx → Ctx) (c : Ctx) : Ctx := f { c with ivs := c.ivs.map fun i => { i with sig := some sig } }

/-- A class 2 pair of contexts 0 and 8, each of which may have closed an interval. -/
def twins (a b : Ctx → Ctx) : State :=
  let s := lone fun c => a { c with pcls := 2, twin := some 8 }
  s.setCtx 8 (b { Ctx.reset 8 with st := .issuing, pcls := 2, twin := some 0, second := true })

/-- Three contexts whose intervals have closed: the third context 16 and the twins 0 and 8. -/
def voters (a b x : Ctx → Ctx) : State :=
  (twins a b).setCtx 16 (x { Ctx.reset 16 with st := .held, recov := .third 0 8 0x13 0 0 })

/-- Whether the three have closed and their entries are settled, so that the vote can be held. -/
def voteB (a b x : Word × Word) : Bool :=
  let s := voters (closed a id) (closed b id) (closed x id)
  (s.ctx 16).voteReady && (s.ctx 0).voteReady && (s.ctx 8).voteReady && s.settled 0 && s.settled 8

theorem witness_GuardEvents :
    (let c := (lone fun c => closed (1, 2) id { c with pcls := 1 }).me;
      c.pcls = 1 ∧ c.ivs.all (fun i => !i.agreed && i.sig.isSome && i.excs == []) = true ∧ c.recov = .none) ∧
    ((twins (closed (1, 2) id) (closed (1, 2) id)).comparable 0 = some (0, 8, (1, 2), (1, 2))) ∧
    ((twins (closed (1, 2) id) (closed (1, 3) id)).comparable 0 = some (0, 8, (1, 2), (1, 3))) ∧
    (let s := { twins (closed (1, 2) id) id with now := 3000 };
      s.pair 0 = some (0, 8) ∧ s.skewed 0 8 = true) ∧
    (let s := lone fun c => { c with recov := .pending 0x13 0 0 false };
      (s.chooseThird 0).isSome = true ∧ ((s.chooseThird 0).bind s.freeOn).isSome = true ∧ s.settled 0 = true) ∧
    voteB (1, 1) (1, 1) (1, 1) = true ∧ voteB (1, 1) (2, 2) (1, 1) = true ∧ voteB (2, 2) (1, 1) (1, 1) = true ∧
    voteB (1, 1) (1, 1) (2, 2) = true ∧ voteB (1, 1) (2, 2) (3, 3) = true ∧
    ((voters id id id).ctx 16).closedHead = none ∧
    (let m := { (onS []).msc with up := 3600000000000 };
      m.halved < m.up / 3600000000000) ∧
    (({ holding false (onS []) with lkms := [(0, { Lkm.reset with ents := [⟨name1, (0, 0), 0, 6, none, 0, false, some 0, false, false⟩] })] } : State).leaseOut 0 0).isSome
      = true :=
  by and_intros <;> decide +kernel
/-! ### Events of engines, queues, tasks, fabric and memory -/

/-- Whether an event does something. -/
def acts (i : Instr) (s : State) : Bool := nextB (exec i s) fun t => t != s

/-- Flat tile 2^16 maps to HBM4 frame 1, for the context and, by the root 0x1000, for the device. -/
def mapped : State :=
  let s := (tensors (withS [0x100, 2 ^ 32, 0]))
  { s with msc := { s.msc with sysrt := 0x1000 } }

/-- A command at its engine. -/
def command (c : Cmd) : State := { mapped with cmds := [(0, ⟨c, 0, 1, 0, none, [], false, false, []⟩)] }

/-- A copy of 16 bytes from flat 2^32 to the LSP at 0x100, and one of an unmapped address. -/
def copyCmd (src : Nat) : Cmd := mapped.mkCmd .cpyA 1 3 [0x100, BitVec.ofNat 64 src, 0] 0

/-- A subscription of a loader, or of a storer, of one slot. -/
def subscribed (load : Bool) (filled : Nat) : State :=
  let s := { mapped with subs := [(0, ⟨mapped.mkCmd .subsLoad 4 3 [0] 1, load, 0, 0, 0, 0, false, 0, none, [], false, false, []⟩)] }
  s.setCore 0 { s.core 0 with rings := [(0, BitVec.ofNat 128 (2 ^ 33 + 4 * 2 ^ 20 + 2 ^ 25 + filled * 2 ^ 64))] }

/-- Copies that complete or fault, put and collective commands, subscriptions, packets, quotes, and a flit. -/
theorem witness_EngineEvents :
    acts (.copyComplete 0) (command (copyCmd (2 ^ 32))) = true ∧ acts (.copyComplete 0) (command (copyCmd (2 ^ 33))) = true ∧
    acts (.cpywComplete 0) (command (mapped.mkCmd .cpyw 3 3 [0x100, 0] 0)) = true ∧
    acts (.collComplete 0) (command (mapped.mkCmd .coll 11 3 [0x100, 2 ^ 32, 0] 0)) = true ∧
    acts (.fputComplete 0) (command (mapped.mkCmd .fput 12 3 [0x100, 2 ^ 32, 0] 0)) = true ∧
    acts (.klaunchPacketRead 0) (command (mapped.mkCmd .klaunch 10 3 [2 ^ 32] 0)) = true ∧
    acts (.absentTileRewalk 0) { command (copyCmd (2 ^ 33)) with
      cmds := [(0, ⟨copyCmd (2 ^ 33), 0, 1, 0, some (0, 0, 131072), [], false, false, []⟩)] } = true ∧
    acts (.loaderSlotStep 0) (subscribed true 0) = true ∧ acts (.storerSlotStep 0) (subscribed false 1) = true ∧
    (command (copyCmd (2 ^ 32))).cmds.all (fun e => (command (copyCmd (2 ^ 32))).copyTurn e.2 && (command (copyCmd (2 ^ 32))).collTurn 0 e.2) = true ∧
    acts .quoteComplete { mapped with msc := { mapped.msc with quotes := [.host 0 []] } } = true ∧
    acts .quoteComplete { mapped with msc := { mapped.msc with quotes := [.peer 3 []] } } = true ∧
    acts (.collFlitReceive 0 0 0 1 0 0 []) mapped = true := by and_intros <;> decide +kernel

/-- A queue descriptor: a ring of 64 words at 2^32, VALID, saved at 2^32 + 0x8000, tables at 0x1000. -/
def queue : BitVec 512 := BitVec.ofNat 512
  (2 ^ 32 + 6 * 2 ^ 57 + 2 ^ 62 + 10 * 2 ^ 256 + (2 ^ 32 + 0x8000) * 2 ^ 320 + 0x1000 * 2 ^ 384)

/-- Slot 0 serves queue 0, whose ring holds some words. -/
def slot0 (st : SlotSt) (ws : List Nat) (f : QSlot → QSlot) : State :=
  let s := mapped.pokeWords (ws.zipIdx.map fun e => (0x10000 + 8 * e.2, e.1))
  s.setSlot 0 (f { QSlot.reset with st := st, desc := queue, wc := BitVec.ofNat 64 ws.length })

/-- A packet with some fields given. -/
def packet (fs : List (Nat × Nat)) : Packet := ⟨fs.foldl (fun v e => vset v e.1 (BitVec.ofNat 64 e.2)) (Vector.replicate 16 0), none, false⟩

/-- The ring words of a WAIT on a counter at 2^32 + 0x900, of a SIGNAL of it, of a MARKER and of a LAUNCH. -/
def waits : List Nat := [0x301, 1, 0x100000900, 0]
def signals : List Nat := [0xC01, 2, 0x100000900, 1]
def marks : List Nat := [0x6C01, 3, 0x100000900, 1, 0, 0]
def launches : List Nat := [0xFCFF, 0, 0x100001000, 0, 1, 0, 0, 0, 0, 0x100000900, 1, 0, 0, 0, 0]

/-- A kernel of slot 0 on cluster 0 whose one task type wants nothing. -/
def kernel0 : Kernel :=
  { slot := 0, pkt := packet [], asid := 0, tenant := 0, htb := 0, ovfb := 0, ovfs := 0, root := 0x1000, codeO := 0, lvo := 0, lvn := 0,
    spads := 0, types := [BitVec.ofNat 256 (15 * 2 ^ 58 + 2 ^ 32)], clus := [0], twins := [], objs := [], ctrb := 0, live := 0, excs := [],
    excOvf := [], ioc := 0, qid := 0, saved := false, kept := [] }

/-- A kernel placed, whole or saved. -/
def withKernel (k : Kernel) (s : State) : State := { s with kernels := [(0, k)], clusters := [(0, { Cluster.reset with kernel := some 0 })] }

/-- Doorbells that map, that publish and that lap a ring, slots that time out and are reset, turns, each kind of packet,
the wait of a slot, a marker, and the placing of kernels. -/
theorem witness_QueueEvents :
    acts (.doorbellWrite 0 1) (slot0 .idle [] id) = true ∧ acts (.doorbellWrite 0 65) (slot0 .idle [] id) = true ∧
    acts (.doorbellWrite 2 1) mapped = true ∧
    (let s : State := { slot0 .idle [] id with now := 100000 }; s.idleOver 0 = true ∧ acts (.slotIdleTimeout 0) s = true) ∧
    acts (.queueReset 0) (slot0 .ready waits id) = true ∧ acts (.queueResetUnmap 0) (slot0 .ready waits id) = true ∧
    acts (.qschTurnEnd 0) { (onS []).setIoc 0 { (onS []).ioc 0 with turn := some (0, 1, 0) } with now := 500000 } = true ∧
    ((slot0 .ready waits id).servedKind 0 1 = true ∧ acts (.packetWait 0) (slot0 .ready waits id) = true) ∧
    ((slot0 .ready signals id).servedKind 0 2 = true ∧ acts (.packetSignal 0) (slot0 .ready signals id) = true) ∧
    ((slot0 .ready marks id).servedKind 0 3 = true ∧ acts (.packetMarker 0) (slot0 .ready marks id) = true) ∧
    ((slot0 .ready launches id).servedKind 0 0 = true ∧ acts (.packetLaunch 0) (slot0 .ready launches id) = true) ∧
    acts (.qschWaitSatisfied 0) (slot0 .waiting [] fun q => { q with pkt := some (packet [(0, 1), (8, 0x100000900)]) }) = true ∧
    (∀ fs ∈ [[(0, 0), (14, 4), (8, 0x100000900)], [(0, 0)], [(0, 0), (14, 1)], [(0, 1), (8, 0)]], acts (.qschWaitSatisfied 0) (slot0 .waiting [] fun q => { q with pkt := some (packet fs) }) = true) ∧
    (∀ x ∈ [(1, Instr.packetWait 0), (3, .packetMarker 0)],
      let s := slot0 .ready [] fun q => { q with pkt := some { packet [(0, x.1), (8, 0x100000900)] with waited := true } };
      s.servedKind 0 x.1 = true ∧ acts x.2 s = true) ∧
    (∀ fs ∈ [[(0, 2)], [(0, 3), (14, 1)], [(0, 0), (14, 4)]],
      let s := slot0 .ready [] fun q => { q with pkt := some (packet fs) };
      ((List.range 4).any fun k => s.servedKind 0 k) = true) ∧
    (slot0 .ready [] fun q => { q with pkt := some (packet [(14, 4)]) }).launchWaits 0 (packet [(14, 4)]) = true ∧
    (slot0 .ready [] id).launchWaits 0 (packet []) = false ∧
    ((slot0 .idle [] fun q => { q with marks := [([], packet [(0, 3), (10, 0)], none)] }).markDue 0).isSome = true ∧
    acts (.kernelPlacement 0) (slot0 .launching [] fun q => { q with pkt := some (packet [(1, 0x100001000)]) }) = true ∧
    acts (.kernelPlacement 0) { slot0 .idle [] id with kernels := [(0, { kernel0 with saved := true })] } = true := by and_intros <;> decide +kernel

/-- A record of type 0. -/
def record : TaskRec := ⟨0, 0, 0, 0, 0, none, false, none⟩

/-- A context to be saved, in slot 0 of two. -/
def saves (f : Ctx → Ctx) (n : Nat) : State :=
  let s := { lone f with msc := { (onS []).msc with sysrt := 0x1000 }, now := 200000 }
  s.setIoc 0 { s.ioc 0 with svps := BitVec.ofNat 64 n, svpb := 0x100000000 }

/-- Tasks, kernels, gang instants, saves, restores and tokens. -/
theorem witness_TaskAndSaveEvents :
    acts (.taskDispatch 0) { withKernel kernel0 mapped with
      clusters := [(0, { Cluster.reset with kernel := some 0, fifo := Vector.replicate 4 [record] })] } = true ∧
    acts (.dependenceRelease 0 0) { withKernel kernel0 mapped with
      clusters := [(0, { Cluster.reset with kernel := some 0, pool := [{ record with word := BitVec.ofNat 64 (2 ^ 48) }] })] } = true ∧
    acts (.spillBufferDrain 0) { withKernel kernel0 mapped with spill := [(0, record)] } = true ∧
    acts (.kernelComplete 0) (withKernel kernel0 State.reset) = true ∧
    acts (.gangInstant 0 15) (mapped.setIoc 0 { mapped.ioc 0 with gsln := vset (mapped.ioc 0).gsln 15 (16 : Word) }) = true ∧
    (mapped.ioc 0).passes 15 0 = true ∧ (mapped.ioc 0).acts 15 0 = false ∧
    acts (.prqGo 0 0) (saves id 1) = true ∧ acts (.preemptDeadlineFirst 0) (saves (fun c => { c with pend := some 0 }) 1) = true ∧
    acts (.preemptDeadlineSecond 0) (saves (fun c => { c with pend := some 0, pendWhole := true }) 1) = true ∧
    (∀ w ∈ [true, false], (saves (fun c => { c with pend := some 0, pendWhole := true, wndp := w }) 1).me.preemptible = true) ∧
    (let s := saves (fun c => { c with st := .parked, pend := some 0, wait := some (.flag false 1, 0, 0) }) 1;
     s.me.parkedReady = true ∧ acts (.parkedSave 0) s = true) ∧
    (saves (fun c => { c with st := .held, saving := some none }) 1).saveReady 0 = true ∧
    acts (.abortTokenReceive 0 0) mapped = true ∧
    acts (.abortAnswer 0 0) (mapped.setIoc 0 { mapped.ioc 0 with tokens := [⟨0, 5, 0⟩] }) = true ∧
    acts (.abortAnswerWindowExpiry 0) { mapped.setIoc 0 { mapped.ioc 0 with tokens := [⟨0, 5, 0⟩] } with now := 100000 } = true := by and_intros <;> decide +kernel

/-- A record whose dependence is met finds the FIFO and the spill buffer full. -/
theorem witness_RecordRefused :
    ({ withKernel kernel0 mapped with
      clusters := [(0, { Cluster.reset with kernel := some 0, fifo := Vector.replicate 4 (List.replicate 256 record) })]
      spill := List.replicate 4096 (0, record) } : State).enqueue 0 { record with met := true } = none := by decide +kernel

/-- A context that was saved whole stands under 4096 and is restored on its core. -/
theorem witness_Restore :
    (let s : State := { withKernel kernel0 State.reset with
        ctxs := [(4096, { Ctx.reset 4096 with st := .ready, tgcid := 0 })], saved := [(0, ⟨4096, 0, 0, 0, none, [], [], [], [], false⟩)] };
      (s.restorable 0).any fun l => l.length == 1 && l.all fun e => !s.slotReads e.2.1 && (s.ctxs.find? e.2.1.gcid).isSome) = true ∧
    acts (.restore 0) { withKernel kernel0 State.reset with
      ctxs := [(4096, { Ctx.reset 4096 with st := .ready, tgcid := 0 })], saved := [(0, ⟨4096, 0, 0, 0, none, [], [], [], [], false⟩)] }
      = true := by decide +kernel

/-- Links, the aperture, the quote registers, frozen and running registers, and FREEZE. -/
theorem witness_FabricEvents :
    ((onS []).link 26).dead = false ∧ ((onS []).link 26).failed = false ∧ 6 ≤ (onS []).msc.boot ∧ ((onS []).link 26).inj = [] ∧
    acts (.linkFlitReceive 26 false) (onS []) = true ∧
    (∀ l ∈ [{ Link.reset with dead := true }, { Link.reset with bad := 17 }],
      acts (.linkFlitReceive 3 true) ((onS []).setLink 3 l) = false) ∧
    acts (.linkFlitReceive 3 true) { onS [] with msc := { (onS []).msc with boot := 5 } } = false ∧
    (let s : State := { (onS []).setLink 3 { Link.reset with inj := [(2, ⟨BitVec.ofNat 64 (2 ^ 32 + 0xA), 0⟩)] } with
        msc := { (onS []).msc with dbgen := 1 } };
      nextB (exec (.linkFlitReceive 3 true) s) (fun t => (t.link 3).bad == 1 && (t.link 3).inj == [(2, ⟨BitVec.ofNat 64 (2 ^ 32 + 2), 1⟩)]) = true) ∧
    acts (.linkDead 26) (onS []) = true ∧ acts (.ptpMessage 5) (onS []) = true ∧
    (apertureForm 64 64 = true ∧ apertureForm 4 8 = false ∧ (onS []).aperture 64 64 false = none) ∧
    (let s := mapped.setIoc 0 { mapped.ioc 0 with hapb := BitVec.ofNat 64 (2 ^ 16 + 2 ^ 36), hapr := 0x1000 };
     (s.aperture 0 8 true).isSome = true ∨ s.aperture 0 8 true = none) ∧
    (∀ r ∈ [(Instr.hircWrite 1 3), .idropRead 0, .hndropRead 27, .atstRead, .sftbWrite 31 64, .frzWrite 1, .freezePin 100, .atctlGo 1,
      .moduleReset, .retirementClear true 3], nextB (exec r (onS [])) (fun _ => true) = true) ∧
    (∀ r ∈ [Instr.hircWrite 1 3, .idropRead 0, .hndropRead 27, .atstRead, .sftbWrite 31 64, .registerWrite .predl 0 1,
      .registerWrite .hrefcfg 0 1, .registerWrite .lkcm 0 5], acts r { onS [] with msc := { (onS []).msc with frz := true } } = false) ∧
    acts (.registerWrite .atbuf 0 0x1000) { onS [] with msc := { (onS []).msc with frz := true } } = true ∧
    (∀ x ∈ [(RegName.predl, 1), (.ainj, 511), (.hrefcfg, 11), (.linj, 64 * 26), (.ringt, 64 * 511 + 63), (.uvcfg, 0)],
      acts (.registerWrite x.1 x.2 0x10) (onS []) = true) ∧
    ((onS []).msc.ready.getLsbD 0 = true ∧ ({ (onS []).msc with ready := 0 } : Msc).ready.getLsbD 0 = false) ∧
    ((onS []).lkm 7).ents = [] ∧ ((onS []).core 511).swz.at 0 11 = swzWord 0 ∧ hotUnit 11 = true ∧ hotUnit 12 = false ∧ hotUnit 27 = true ∧ ((onS []).spc 31).shadows = [] ∧ (onS []).kernels = [] ∧
    (onS []).msc.frz = false ∧ ({ (onS []).msc with frz := true } : Msc).frz = true ∧ (onS []).msc.atst.getLsbD 0 = false := by
  and_intros <;> decide +kernel

/-- Units in each power state, in a refresh, blocked, held hot, scrubbed and counting; domains with a window and a hold. -/
theorem witness_MemoryAndMscEvents :
    (((onS []).unit 0).state 0 = 0 ∧ ((onS []).unit 0).pdt ≠ 0 ∧ ((onS []).unit 0).srt ≠ 0 ∧ ((onS []).unit 0).hold = none ∧
      0 < ((onS []).unit 0).pmax ∧ 0 < unitSize 0 ∧ 63 < unitSize 11) ∧
    (∀ i ∈ [Instr.powerDownEntry 0 0, .selfRefreshEntry 0 63, .refreshDue 0 0 true, .refreshDue 0 0 false, .activationAlert 0 0,
      .criticalTempAssert 0, .scrubStep 0 .corrected, .scrubStep 0 .uncorrectable, .scrubStep 27 .clean, .scrubStep 28 .clean, .scrubStep 540 .uncorrectable, .powerCeilingThrottle true],
      acts i (onS []) = true) ∧
    (∀ x ∈ [(Instr.powerStateExit 0 0, ({ MemUnit.reset 0 with ps := [(0, 1)], exits := [0] } : MemUnit)), (.refreshComplete 0 0, { MemUnit.reset 0 with refr := [0] }),
      (.refreshComplete 0 0, { MemUnit.reset 0 with debt := [(0, 2)] }), (.alertBackoffComplete 0 0, { MemUnit.reset 0 with blocked := [0] }), (.alertBackoffComplete 0 0, { MemUnit.reset 0 with blocked := [0], alerts := [0] }),
      (.criticalTempClear 0, { MemUnit.reset 0 with hold := some 0 }), (.hotnessDecay 0, { MemUnit.reset 0 with hot := [(1, 1, 4)] })],
      acts x.1 { (onS []).setUnit 0 x.2 with now := 1000000 } = true) ∧
    acts (.thermalHoldTimeout 0) { (onS []).setUnit 0 { MemUnit.reset 0 with hold := some 0 } with now := 2000000 } = true ∧
    acts .uvEvaluate { onS [] with msc := { (onS []).msc with up := 60000000000 } } = true ∧
    (let v : Volt := { Volt.reset with step := 1, errs := (List.range 65).map fun n => (n, 0) };
     acts (.uvCrossingRaise 0 0) { onS [] with msc := { (onS []).msc with volts := Vector.replicate 4 v } } = true) ∧
    acts (.uvWindowExpiry 0) { onS [] with msc := { (onS []).msc with up := 600000000000, volts := Vector.replicate 4 { Volt.reset with win := some 0 } } }
      = true ∧
    acts (.uvHoldExpiry 0) { onS [] with msc := { (onS []).msc with volts := Vector.replicate 4 { Volt.reset with hold := some 0 } } } = true ∧
    acts (.illegalBundle 1) (onS []) = true := by and_intros <;> decide +kernel

/-! ### A step, and its decoder -/

/-- A bundle of one slot, ADDI s5, s0, 3, waits where the context fetches; a word that decodes to nothing waits there in
the second state; the third is frozen. -/
def fetching : State := State.reset.withFetchWord 32 0x10C05003

def undecodable : State := State.reset.withFetchWord 32 0x1FC00000

def frozen : State := { State.reset with msc := { State.reset.msc with frz := true } }

/-- Whether the state's next bundle is fetched as words that decode, or that do not, as `good` says. -/
def fetches (s : State) (good : Bool) : Bool :=
  let u : State := { s with turn := none, ticks := s.ticks + 1, cycles := s.cycles + 1, cur := 0 }
  match u.fetch 0 with
  | .words ws _ =>
    match decodeBundle (u.ctx 0).al.vregs ws with
    | .ok ps => good && !u.throttled ps
    | .error _ => !good
  | _ => false

/-- StepRunsDecoded: a context in turn is chosen, fetches, and its bundle decodes or does not. -/
theorem witness_StepRunsDecoded : fetching.turn = some 0 ∧ fetching.issuable 0 = true ∧ fetching.msc.frz = false ∧
    fetching.choose = .issue 0 ∧ fetches fetching true = true ∧ undecodable.choose = .issue 0 ∧ fetches undecodable false = true ∧
    early.iss.rest ≠ [] ∧ fetching.heldBy (.waitWake 0) = [] ∧
    ((slot0 .waiting [] fun q => { q with pkt := some (packet [(0, 1), (8, 0x100000900)]) }).setUnit 0
      { MemUnit.reset 0 with hold := some 0 }).heldBy (.qschWaitSatisfied 0) ≠ [] ∧ Event.moduleReset.whenFrozen = true ∧
    (Event.doorbellWrite 0 1).whenFrozen = false := by and_intros <;> decide +kernel

/-- A context that cannot fetch: its PC lies where no frame is, or off a word. -/
theorem witness_FetchTraps :
    (match ({ fetching with cur := 0, ctxs := fetching.ctxs.set 0 { fetching.ctx 0 with r := { (fetching.ctx 0).r with pc := 2 } } } : State).fetch 0
      with | .words .. => false | _ => true) = true := by decide +kernel

/-- StepKeepsMemory, and FrozenStandsStill: memories in their form, and states that step. -/
theorem witness_Invariants : State.reset.memOk ∧ fetching.memOk ∧ Memory.wf fetching.mem = true ∧ fetching.mem ≠ [] ∧ (∃ t, step fetching = .next t) ∧ frozen.msc.frz = true ∧
    .moduleReset ∉ frozen.inbox :=
  ⟨show Memory.wf _ = true by decide +kernel, show Memory.wf _ = true by decide +kernel, by decide +kernel, by decide +kernel,
    (next_of (f := fun _ => true) (by decide +kernel)).imp fun _ h => h.1, by decide +kernel, by decide +kernel⟩

/-- DecodeEncode: a well-formed instruction of each class, and the two shapes of the zero word. -/
theorem witness_DecodeEncode : wfErr (.add ⟨true, 1⟩ 5 6 7) = none ∧ slotWord (.add ⟨true, 1⟩ 5 6 7) ≠ 0 ∧ slotWord .nopC = 0 ∧
    wfErr (.vcmp g0 2 1 2 5 0 0x300) = none ∧ vregsOk 32 (.vcmp g0 2 1 2 5 0 0x300) = true ∧
    isDrainWord (slotWord (.vcmp g0 2 1 2 5 0 0x300)) = false ∧ (headOfInstr (.vcmp g0 2 1 2 5 0 0x300)).d = false := by
  decide +kernel

/-- DecodeWords: a word of a class and an opcode that the tables leave out. -/
theorem witness_DecodeWords : bits 0x1FC00000 28 3 = 1 ∧ bits 0x1FC00000 22 6 = 63 ∧ 63 ∈ List.range' 0x3A 6 := by decide

/-! ### Ill-formed terms: each check refuses one -/

/-- A field limit, and where D is not taken (R34, R40). -/
theorem smoke_owner :
    [wfErr (.loopi g0 0 1 1), wfErr (.loopi g0 9 1 8), wfErr (.loopb g0 0 1 []), wfErr (.yield ⟨true, 0⟩), wfErr (.waitf g0 0 0),
      wfErr (.tend ⟨true, 0⟩), wfErr (.trap ⟨true, 0⟩ 5), wfErr (.shli g0 1 2 64), wfErr (.cmpeq g0 16 1 2 0), wfErr (.cmplt g0 1 1 2 3),
      wfErr (.cmpeqi g0 16 1 0 []), wfErr (.bfx g0 1 2 3 2), wfErr (.sext g0 1 2 0), wfErr (.zext g0 1 2 65), wfErr (.pand g0 1 16 2),
      wfErr (.pmov g0 1 2 2), wfErr (.nset g0 16 2 0), wfErr (.nadv g0 1 2 4), wfErr (.nget g0 1 16 0), wfErr (.cntrd g0 1 5),
      wfErr (.movsSFromLLo g0 1 8), wfErr (.movsLHiFromS g0 8 1)].all (· == some 0) = true := by decide +kernel

theorem smoke_memory :
    [wfErr (.ldvs g0 1 2 3 2 none), wfErr (.stvg g0 1 2 3 2 none), wfErr (.ldq g0 4 1 0), wfErr (.tld g0 1 16 none), wfErr (.prefHandle g0 16),
      wfErr (.fence g0 0 4), wfErr (.fence g0 2 0), wfErr (.drain g0 0 4), wfErr (.drain g0 1 6), wfErr (.aadd g0 1 2 3 2),
      wfErr (.vaadd g0 1 2 3 2 none), wfErr (.vaor g0 1 2 3 1 none), wfErr (.vamax g0 1 2 3 3 none), wfErr (.waitge ⟨true, 0⟩ 1 2 3),
      wfErr (.barv g0 1 2 0), wfErr (.barv g0 1 2 16), wfErr (.obrkRing g0 8), wfErr (.lkreq ⟨true, 0⟩ 1 2 3)].all (· == some 0) = true := by
  decide +kernel

theorem smoke_vector :
    [wfErr (.vcvt g0 1 2 13 0 0 none), wfErr (.vcmp g0 5 1 2 5 0 0x300), wfErr (.vcmp g0 4 0 2 5 0 0x300), wfErr (.vperm g0 1 2 3 2 none),
      wfErr (.vext g0 1 2 3 3), wfErr (.vred g0 1 2 9 0 none), wfErr (.vmov g0 1 4 1 none), wfErr (.vmov g0 4 1 2 none), wfErr (.vcomp g0 1 2 2 none),
      wfErr (.lmand g0 8 1 2), wfErr (.lmpop g0 1 8), wfErr (.vsig ⟨true, 0⟩ 1 2), wfErr (.lxadd g0 1 2 3 2 none), wfErr (.lxcvt g0 1 2 2 0 0 none),
      wfErr (.lxcmp g0 5 1 2 0 0x300)].all (· == some 0) = true := by decide +kernel

theorem smoke_engine_and_system :
    [wfErr (.xwld g0 1 2 2), wfErr (.xbegin ⟨true, 0⟩), wfErr (.cpyHandle g0 1 16 2), wfErr (.subsLoad g0 8 1 2), wfErr (.sube g0 8),
      wfErr (.hset g0 8 1), wfErr (.hwait g0 1 2 0), wfErr (.hadv g0 8 1), wfErr (.qstat g0 1 8 4), wfErr (.qstat g0 1 1 5), wfErr (.qstat g0 1 0 11),
      wfErr (.cmpt g0 1 2 3), wfErr (.cmpt g0 8 2 2), wfErr (.csrr g0 1 0x00A), wfErr (.csrw g0 1 0x107), wfErr (.attq g0 16 1 2),
      wfErr (.ckpt ⟨true, 0⟩), wfErr (.tspawn ⟨true, 0⟩ 1 2 3)].all (· == some 0) = true := by decide +kernel

/-- Too many K slots (the first excess one is named), a modifier with a field that its owner does not honour, one that is
missing where the owner must have it, and a descriptor off its layout (R31 to R33, R168, R210). -/
theorem smoke_payloads :
    wfErr (.addi g0 1 2 3 [0, 0, 0]) = some 3 ∧ wfErr (.movhi g0 1 2 [0, 0]) = some 2 ∧ wfErr (.ldw g0 1 2 3 [0, 0, 0]) = some 3 ∧
    wfErr (.vadd g0 1 2 3 0 (some 0x80)) = some 1 ∧ wfErr (.vadd g0 1 2 3 0 (some 0x50)) = some 1 ∧ wfErr (.vsel g0 1 2 3 (some 8)) = some 1 ∧
    wfErr (.vcmp g0 2 1 2 5 0 0) = some 1 ∧ wfErr (.vred g0 1 2 0 0 (some 0x80)) = some 1 ∧ wfErr (.xmac g0 1 0x20000) = some 1 ∧
    wfErr (.xepi g0 1 2 0x50000) = some 1 ∧ wfErr (.xaccld g0 1 2 0x10000) = some 1 ∧ wfErr (.xaccst g0 1 2 0x10000) = some 1 ∧
    wfErr (.xclr g0 0x10000) = some 1 := by decide +kernel

/-! ### Words written out from the encodings of the manual -/

/-- The instruction that a slot word and its K payloads stand for. -/
def reads (w : Nat) (ks : List (BitVec 28)) : Option Instr := (decodeSlot w ks).map (·.1)

/-- The worked words of 02 to 05, 07 and 09: branch, loops, duplicates and compares, loads and stores, FENCE and DRAIN. -/
theorem test_words_manual :
    reads 0x0045FFF0 [] = some (.br ⟨false, 2⟩ 0x1FFF0 []) ∧ reads 0x01809202 [] = some (.loopi g0 9 4 2) ∧
    reads 0x18C0510D [] = some (.cmplt g0 5 2 3 1) ∧ reads 0x20C0530C [] = some (.ldw g0 5 6 12 []) ∧
    reads 0x22007F78 [] = some (.std g0 7 30 0x78 []) ∧ reads 0x24C00840 [] = some (.fence g0 1 2) ∧
    reads 0x2501F804 [] = some (.drain g0 0x3F 4) ∧ reads 0x34C0A114 [0x300] = some (.vcmp g0 2 1 2 5 0 0x300) ∧
    reads 0x00000000 [] = some .nopC := by decide +kernel

/-- Class (bits 30 to 28), OP (27 to 22), D (21), G (20 to 17), d, a, b and m (R26): one word of each group of
instructions. -/
theorem test_words_fields :
    reads 0b0_010_010101_0_0000_00001_00010_00011_01 [] = some (.aadd g0 1 2 3 1) ∧
    reads 0b0_010_100011_0_0000_00001_00010_00011_00 [] = some (.waitge g0 1 2 3) ∧
    reads 0b0_010_100101_0_0000_00001_00010_00000_11 [] = some (.barv g0 1 2 3) ∧
    reads 0b0_010_101000_0_0000_00001_00010_00011_00 [] = some (.lkreq g0 1 2 3) ∧
    reads 0b0_011_111000_0_0000_00001_00010_00011_01 [] = some (.lxadd g0 1 2 3 1 none) ∧
    reads 0b0_100_000010_0_0000_00000_00010_00000_00 [0x5] = some (.xmac g0 2 5) ∧
    reads 0b0_101_000001_0_0000_00001_00010_00011_00 [] = some (.cpyHandle g0 1 2 3) ∧
    reads 0b0_101_000101_0_0000_00001_00000_00000_00 [] = some (.sube g0 1) ∧
    reads 0b0_101_001101_0_0000_00001_00010_00000_11 [] = some (.qstat g0 1 2 3) ∧
    reads 0b0_110_000010_0_0000_00000_00010_00011_01 [] = some (.cmpt g0 2 3 1) ∧
    reads 0b0_110_000101_0_0000_00100_00000_00100_00 [] = some (.csrr g0 4 0x010) := by decide +kernel

/-- What the encodings leave out: a D bit where it is not taken, a listed field off its limit, fields that must be zero,
opcodes without a row (R27, R34, R40). -/
theorem test_words_refused :
    reads 0x02200000 [] = none ∧ reads 0x00000001 [] = none ∧ reads 0x1FC00000 [] = none ∧ decodeTableWord 32 0x01800202 = none ∧
    decodeTableWord 32 0b0_101_000101_0_0000_01000_00000_00000_00 = none ∧ reads 0b0_111_000001_0_0000_00000_00000_00000_00 [] = none := by
  decide +kernel

/-! ### Single steps -/

/-- The first value in flight, or the register that was written at once. -/
def lands (o : Host.Outcome State Fault Refusal) (d : Nat) (x : Nat) : Bool :=
  nextB o fun t => decide ((t.me.fl.map (·.res) = [Res.s d (BitVec.ofNat 64 x)]) ∨ (t.me.fl = [] ∧ t.me.s d = BitVec.ofNat 64 x))

/-- ADDI s5, s0, 3 fetched, decoded and run by one step. -/
theorem test_step : nextB (step fetching) (fun t => (t.ctx 0).s 5 == 3#64) = true := by decide +kernel

/-- The table of R89: −1 by 2, the most negative number by −1, 7 by 0. -/
theorem test_div : lands (exec (.div g0 4 1 2) (onS [2 ^ 64 - 1, 2])) 4 0 = true ∧ lands (exec (.div g0 4 1 2) (onS [7, 0])) 4 (2 ^ 64 - 1) = true ∧
    lands (exec (.div g0 4 1 2) (onS [2 ^ 63, 2 ^ 64 - 1])) 4 (2 ^ 63) = true := by decide +kernel

theorem test_rem : lands (exec (.rem g0 4 1 2) (onS [2 ^ 64 - 1, 2])) 4 (2 ^ 64 - 1) = true ∧ lands (exec (.rem g0 4 1 2) (onS [7, 0])) 4 7 = true := by
  decide +kernel

/-- The same table: products. -/
theorem test_mulh : lands (exec (.mulh g0 4 1 2) (onS [2 ^ 64 - 1, 2])) 4 (2 ^ 64 - 1) = true ∧
    lands (exec (.mulh g0 4 1 2) (onS [2 ^ 63, 2 ^ 64 - 1])) 4 0 = true := by decide +kernel

theorem test_mulhn : lands (exec (.mulhn g0 4 1 2) (onS [2 ^ 64 - 1, 2])) 4 1 = true ∧
    lands (exec (.mulhn g0 4 1 2) (onS [2 ^ 63, 2 ^ 64 - 1])) 4 0x7FFFFFFFFFFFFFFF = true := by decide +kernel

/-- The examples of R90. -/
theorem test_bfx : lands (exec (.bfx g0 4 2 3 0) (onS [0, 0xF5A0, 0x0808])) 4 0xF5 = true ∧
    lands (exec (.bfx g0 4 2 3 1) (onS [0, 0xF5A0, 0x0808])) 4 0xFFFFFFFFFFFFFFF5 = true := by decide +kernel

/-- s0 reads zero and takes no write (R6); an addition wraps (R87). -/
theorem test_zero_register : lands (exec (.addi g0 0 0 7 []) (onS [])) 0 0 = true := by decide +kernel

theorem test_add_wraps : lands (exec (.add g0 4 1 2) (onS [2 ^ 64 - 1, 2])) 4 1 = true := by decide +kernel

/-- The count of a shift is taken modulo 64 (R87). -/
theorem test_shl_count : lands (exec (.shl g0 4 1 2) (onS [3, 65])) 4 6 = true := by decide +kernel

/-- An unaligned word load traps MISALIGN, cause 0x08, into the handler, with its address in FAULTVA (R100, R101, R342). -/
theorem test_unaligned_load :
    nextB (exec (.ldw g0 5 1 0 []) (handlers (withS [0x100000002])))
      (fun t => t.me.trapc.toNat % 256 == 8 && t.me.faultva == 0x100000002#64 && t.me.hnd && t.me.r.pc == 0x100000400#64) = true := by
  decide +kernel

end Sys2Proof.Tests
end

/-! The NOP of each class (02 R28): what a slot word with OP 0 decodes to, and what a bundle of one NOP does. -/

namespace Sys2Proof.Machine

/-- The NOP of a class (02 R28); class 7 has none. -/
def classNop : Nat → Option Instr
  | 0 => some .nopC
  | 1 => some .nopS
  | 2 => some .nopM
  | 3 => some .nopV
  | 4 => some .nopX
  | 5 => some .nopQ
  | 6 => some .nopG
  | _ => none

theorem classNop_lt {c : Nat} {i : Instr} (hi : classNop c = some i) : c < 7 := by
  by_contra hc
  obtain ⟨k, rfl⟩ := Nat.exists_eq_add_of_le' (Nat.le_of_not_lt hc)
  exact nomatch hi

theorem exec_classNop {c : Nat} {i : Instr} (hi : classNop c = some i) (s : State) :
    exec i s = .next (s.retire []) := by
  unfold classNop at hi
  split at hi <;> cases hi <;> rfl

theorem exec_classNop_alone {c : Nat} {i : Instr} (hi : classNop c = some i) {s : State} (h : s.alone) :
    exec i s = .next s.skipped := by
  rw [exec_classNop hi, s.retire_nil h]

/-- Of the words with OP 0, those with every other field zero are the NOP of their class, and the others are nothing. -/
theorem decodeSlot_of_op_zero {w : Nat} (hop : bits w 22 6 = 0) (ks : List (BitVec 28)) :
    decodeSlot w ks = (classNop (bits w 28 3)).bind fun i => whenFixed (bits w 0 22 == 0) (takeNone i) := by
  unfold decodeSlot
  split
  case h_1 hc => rw [hc]; simp only [decodeC, hop]; rfl
  case h_2 hc => rw [hc]; simp only [decodeS, hop]; rfl
  case h_3 hc => rw [hc]; simp only [decodeM, hop]; rfl
  case h_4 hc => rw [hc]; simp only [decodeV, hop]; rfl
  case h_5 hc => rw [hc]; simp only [decodeX, hop]; rfl
  case h_6 hc => rw [hc]; simp only [decodeQ, hop]; rfl
  case h_7 hc => rw [hc]; simp only [decodeG, hop]; rfl
  case h_8 h0 h1 h2 h3 h4 h5 h6 => rw [classNop.eq_8 _ h0 h1 h2 h3 h4 h5 h6]; rfl

/-- A word of which only the class is set, with or without the bit that ends a bundle (02 R28). -/
theorem decodeSlot_nop {c w : Nat} {i : Instr} (hi : classNop c = some i) (hw : w % 2 ^ 31 = c * 2 ^ 28)
    (ks : List (BitVec 28)) : decodeSlot w ks = some (i, 0) := by
  have hc := classNop_lt hi
  have hclass : bits w 28 3 = c := by simp only [bits]; omega
  have hop : bits w 22 6 = 0 := by simp only [bits]; omega
  have hrest : bits w 0 22 = 0 := by simp only [bits]; omega
  rw [decodeSlot_of_op_zero hop, hclass, hi, hrest]
  rfl

theorem decodeSlot_op_zero_eq_none {w : Nat} (hop : bits w 22 6 = 0) (hrest : bits w 0 22 ≠ 0) (ks : List (BitVec 28)) :
    decodeSlot w ks = none := by
  rw [decodeSlot_of_op_zero hop]
  cases classNop (bits w 28 3) with
  | none => rfl
  | some i => exact if_neg (by simpa using hrest)

/-- Settles O11: a NOP asks for nothing, and a word with OP 0 decodes by its class and whether its other fields are zero. -/
theorem noOperations : Obligations.NoOperations := by
  unfold Obligations.NoOperations
  refine ⟨fun s h => ?_, fun w ks => ⟨fun x i hx hw => ?_, fun _ hop hrest => decodeSlot_op_zero_eq_none hop hrest ks⟩⟩
  · exact ⟨exec_classNop_alone (c := 0) rfl h, exec_classNop_alone (c := 1) rfl h, exec_classNop_alone (c := 2) rfl h,
      exec_classNop_alone (c := 3) rfl h, exec_classNop_alone (c := 4) rfl h, exec_classNop_alone (c := 5) rfl h,
      exec_classNop_alone (c := 6) rfl h⟩
  · have hclass : ∃ c, classNop c = some i ∧ x = c * 2 ^ 28 := by
      simp only [List.mem_cons, Prod.mk.injEq, List.not_mem_nil, or_false] at hx
      obtain ⟨rfl, rfl⟩ | ⟨rfl, rfl⟩ | ⟨rfl, rfl⟩ | ⟨rfl, rfl⟩ | ⟨rfl, rfl⟩ | ⟨rfl, rfl⟩ | ⟨rfl, rfl⟩ := hx
      · exact ⟨0, rfl, rfl⟩
      · exact ⟨1, rfl, rfl⟩
      · exact ⟨2, rfl, rfl⟩
      · exact ⟨3, rfl, rfl⟩
      · exact ⟨4, rfl, rfl⟩
      · exact ⟨5, rfl, rfl⟩
      · exact ⟨6, rfl, rfl⟩
    obtain ⟨c, hi, rfl⟩ := hclass
    rw [decodeSlot_nop hi hw ks]
    rfl

end Sys2Proof.Machine

/-! LOOPI and LOOPB (04 R76, R77): how a slot of latency-1 results ends, alone or with a transfer, and the counter word. -/

namespace Sys2Proof.Machine

/-- A result that leaves the run limit as it was: it is no write of RUNLIM. -/
def Res.keepsRunLimit (r : Res) : Prop := ∀ m x, r ≠ .csr 0x104 m x

theorem Res.keepsRunLimit_s (d : Nat) (x : Word) : (Res.s d x).keepsRunLimit := fun _ _ => Res.noConfusion
theorem Res.keepsRunLimit_p (d : Nat) (x : Bool) : (Res.p d x).keepsRunLimit := fun _ _ => Res.noConfusion
theorem Res.keepsRunLimit_stgb (x : BitVec 3) : (Res.stgb x).keepsRunLimit := fun _ _ => Res.noConfusion

theorem Ctx.foldl_put_runLimit {rs : List Res} (hr : ∀ r ∈ rs, r.keepsRunLimit) (c : Ctx) :
    (rs.foldl Ctx.put c).runLimit = c.runLimit := by
  induction rs generalizing c with
  | nil => rfl
  | cons r rs ih =>
    obtain ⟨hr, hrs⟩ := List.forall_mem_cons.1 hr
    rw [List.foldl_cons, ih hrs, c.put_runLimit r hr]

/-! ### Results of latency 1 -/

theorem State.retire_flies {s : State} {rs : List Res} (h : s.alone) (hr : ∀ r ∈ rs, r.keepsRunLimit) :
    s.retire (rs.map (Act.fly 1)) = s.wroteAll rs := by
  refine s.retire_land rs h ?_
  rw [Ctx.foldl_put_runLimit hr]
  exact s.alone_run h

theorem State.retire_flies_jump {s : State} {rs : List Res} (h : s.alone) (hr : ∀ r ∈ rs, r.keepsRunLimit)
    (t : Option Word) (w : Word) : s.retire (rs.map (Act.fly 1) ++ [.jump t w]) = s.went rs t w := by
  refine s.retire_jump rs t w h ?_
  rw [Ctx.foldl_put_runLimit hr]
  exact s.alone_run h

theorem State.retire_flies_noTransfer {s : State} {rs : List Res} (h : s.alone) (hr : ∀ r ∈ rs, r.keepsRunLimit) :
    s.retire (rs.map (Act.fly 1) ++ s.noTransfer) = s.went rs none s.fallThrough := State.retire_flies_jump h hr _ _

theorem State.retire_flies_transfer {s : State} {rs : List Res} (h : s.alone) (hr : ∀ r ∈ rs, r.keepsRunLimit)
    {target : Word} (ht : target.toNat % 4 = 0) :
    s.retire (rs.map (Act.fly 1) ++ s.transfer target) = s.went rs (some target) target := by
  rw [State.transfer, if_pos ht]
  exact State.retire_flies_jump h hr _ _

/-- A transfer off a word drops the results of its slot (04 R73). -/
theorem State.retire_flies_misaligned {s : State} (rs : List Res) (h : s.alone) {target : Word}
    (ht : target.toNat % 4 ≠ 0) :
    s.retire (rs.map (Act.fly 1) ++ s.transfer target) = s.trapped (s.trapAt 0x08 target) := by
  rw [State.transfer, if_neg ht]
  refine s.retire_stop _ _ h fun a ha => ?_
  obtain ⟨r, -, rfl⟩ := List.mem_map.1 ha
  exact ⟨rfl, fun _ => Act.noConfusion⟩

/-! ### LOOPI -/

theorem loopCount_fst (x : Word) (e : Nat) :
    (loopCount x e).1 = if x.toInt < 0 then 0 else min x.toNat (2 ^ 48 - 1) := by
  simp only [loopCount, BitVec.msb_eq_toInt, decide_eq_true_eq]
  split
  · rfl
  · split <;> omega

/-- What LOOPI writes, with `t` iterations and `e` drain passes (04 R76). -/
def loopiPuts (d : BitVec 5) (e t : Nat) : List Res :=
  [.s d.toNat (BitVec.ofNat 64 (e * 2 ^ 48 + t)), .stgb 0, .p 8 (decide (0 < t))] ++
    [9, 10, 11, 12, 13, 14, 15].map fun k => .p k false

theorem loopiPuts_keepsRunLimit (d : BitVec 5) (e t : Nat) : ∀ r ∈ loopiPuts d e t, r.keepsRunLimit := by
  simp [loopiPuts, Res.keepsRunLimit_s, Res.keepsRunLimit_p, Res.keepsRunLimit_stgb]

theorem execLoopi_ready {s : State} {h : Head} {d a : BitVec 5} (i : BitVec 7) (ha : s.alone)
    (hr : s.ready h [rS d, rS a]) :
    execLoopi h d a i s = .next (s.wroteAll (loopiPuts d i.toNat (loopCount (s.me.s a) i.toNat).1)) := by
  rw [execLoopi, s.slotDo_ready h _ _ hr, ← State.retire_flies ha (loopiPuts_keepsRunLimit _ _ _)]
  rfl

/-! ### LOOPB -/

theorem bits_zero_lo (x n : Nat) : bits x 0 n = x % 2 ^ n := by
  rw [bits, pow_zero, Nat.div_one]

/-- What LOOPB writes: the counter word, the stage base, and the predicate of the new stage 0 (04 R77). -/
def loopbPuts (d : BitVec 5) (base : BitVec 3) (c e : Nat) (stage0 : Bool) : List Res :=
  [.s d.toNat (BitVec.ofNat 64 (e * 2 ^ 48 + c)), .stgb base, .p (8 + base.toNat) stage0]

theorem loopbPuts_keepsRunLimit (d : BitVec 5) (base : BitVec 3) (c e : Nat) (stage0 : Bool) :
    ∀ r ∈ loopbPuts d base c e stage0, r.keepsRunLimit := by
  simp [loopbPuts, Res.keepsRunLimit_s, Res.keepsRunLimit_p, Res.keepsRunLimit_stgb]

theorem loopNext_iterates {x : Word} (hc : 1 < x.toNat % 2 ^ 48) :
    loopNext x = (x.toNat % 2 ^ 48 - 1, x.toNat / 2 ^ 48 % 8, true, true) := by
  rw [← bits_zero_lo] at hc ⊢
  exact if_pos hc

theorem loopNext_drains {x : Word} (hc : x.toNat % 2 ^ 48 ≤ 1) (he : 0 < x.toNat / 2 ^ 48 % 8) :
    loopNext x = (0, x.toNat / 2 ^ 48 % 8 - 1, false, true) := by
  rw [← bits_zero_lo] at hc
  exact (if_neg (Nat.not_lt.2 hc)).trans (if_pos he)

theorem loopNext_ends {x : Word} (hc : x.toNat % 2 ^ 48 ≤ 1) (he : x.toNat / 2 ^ 48 % 8 = 0) :
    loopNext x = (0, 0, false, false) := by
  rw [← bits_zero_lo] at hc
  exact (if_neg (Nat.not_lt.2 hc)).trans (if_neg (Nat.not_lt.2 he.le))

section
variable {s : State} {h : Head} {d : BitVec 5} {i : BitVec 7} {ks : List (BitVec 28)} {n e : Nat} {stage0 : Bool}

theorem execLoopb_ready (hr : s.ready h [rS d]) {taken : Bool} (hn : loopNext (s.me.s d) = (n, e, stage0, taken)) :
    execLoopb h d i ks s =
      .next (s.retire ((loopbPuts d (s.me.r.stgb - 1) n e stage0).map (Act.fly 1) ++
        if taken then s.transfer (s.relTarget (kimm i ks)) else s.noTransfer)) := by
  rw [execLoopb, s.slotOff_ready h _ _ _ _ hr, hn]
  rfl

theorem execLoopb_taken (ha : s.alone) (hr : s.ready h [rS d]) (hn : loopNext (s.me.s d) = (n, e, stage0, true))
    (ht : (s.relTarget (kimm i ks)).toNat % 4 = 0) :
    execLoopb h d i ks s =
      .next (s.went (loopbPuts d (s.me.r.stgb - 1) n e stage0) (some (s.relTarget (kimm i ks)))
        (s.relTarget (kimm i ks))) :=
  (execLoopb_ready hr hn).trans
    (congrArg _ (State.retire_flies_transfer ha (loopbPuts_keepsRunLimit _ _ _ _ _) ht))

theorem execLoopb_misaligned (ha : s.alone) (hr : s.ready h [rS d])
    (hn : loopNext (s.me.s d) = (n, e, stage0, true)) (ht : (s.relTarget (kimm i ks)).toNat % 4 ≠ 0) :
    execLoopb h d i ks s = .next (s.trapped (s.trapAt 0x08 (s.relTarget (kimm i ks)))) :=
  (execLoopb_ready hr hn).trans (congrArg _ (State.retire_flies_misaligned _ ha ht))

theorem execLoopb_falls (ha : s.alone) (hr : s.ready h [rS d]) (hn : loopNext (s.me.s d) = (n, e, stage0, false)) :
    execLoopb h d i ks s = .next (s.went (loopbPuts d (s.me.r.stgb - 1) n e stage0) none s.fallThrough) :=
  (execLoopb_ready hr hn).trans (congrArg _ (State.retire_flies_noTransfer ha (loopbPuts_keepsRunLimit _ _ _ _ _)))

end

/-- Settles O10: LOOPI and LOOPB write with latency 1; LOOPB by the three ways of `loopNext`, the first two taken. -/
theorem loops : Obligations.Loops := by
  unfold Obligations.Loops
  intro s h d a i ks ha
  refine ⟨fun hr => ?loopi, fun hr => ⟨?iterates, ?drains, ?misaligned, ?ends⟩⟩
  case loopi =>
    rw [exec_loopi, execLoopi_ready i ha hr, loopCount_fst]
    rfl
  case iterates =>
    intro ht hc
    exact execLoopb_taken ha hr (loopNext_iterates hc) ht
  case drains =>
    intro ht hc he
    exact execLoopb_taken ha hr (loopNext_drains hc he) ht
  case misaligned =>
    intro ht hce
    by_cases hc : 1 < (s.me.s d).toNat % 2 ^ 48
    · exact execLoopb_misaligned ha hr (loopNext_iterates hc) ht
    · exact execLoopb_misaligned ha hr (loopNext_drains (Nat.le_of_not_lt hc) (hce.resolve_left hc)) ht
  case ends =>
    intro hc he
    exact execLoopb_falls ha hr (loopNext_ends hc he)

end Sys2Proof.Machine

/-! Scalar slots (05 R83, R84): a slot that asks for one result, which lands at once or stays in flight, and the shared
scalar operations on such a slot. -/

namespace Sys2Proof.Machine

section
variable {s : State} {h : Head} {d a b : BitVec 5} {touch : List RegId} {k : Ctx → List Act} {r : Res} {v : Word}

theorem Res.keepsRunLimit_f (m x : BitVec 17) : (Res.f m x).keepsRunLimit := fun _ _ => Res.noConfusion
theorem Res.keepsRunLimit_l (d : Nat) (m x : BitVec 128) : (Res.l d m x).keepsRunLimit := fun _ _ => Res.noConfusion

theorem State.slotDo_writes (ha : s.alone) (hr : s.ready h touch) (hk : k s.me = [.fly 1 r]) (hl : r.keepsRunLimit) :
    s.slotDo h touch k = .next (s.wrote r) := by
  rw [s.slotDo_ready h touch k hr, hk, s.retire_fly r ha hl]

theorem State.slotDo_writes_s (ha : s.alone) (hr : s.ready h touch) (hk : k s.me = [.fly 1 (.s d.toNat v)]) :
    s.slotDo h touch k = .next (s.wrote (.s d.toNat v)) :=
  State.slotDo_writes ha hr hk (Res.keepsRunLimit_s _ _)

/-- A result of latency 3 is in flight after its bundle (05 R83). -/
theorem State.slotDo_launches (ha : s.alone) (hr : s.ready h touch) (hk : k s.me = [.fly 3 r]) :
    s.slotDo h touch k = .next (s.launched [] [s.flight 3 false r]) := by
  rw [s.slotDo_ready h touch k hr, hk]
  refine congrArg _ (s.retire_stay _ [s.flight 3 false r] ha rfl ?_)
  simp [State.flight]

theorem State.sRRR_ready {f : Word → Word → Word} (ha : s.alone) (hr : s.ready h [rS d, rS a, rS b])
    (hv : f (s.me.s a) (s.me.s b) = v) : s.sRRR h d a b 1 f = .next (s.wrote (.s d.toNat v)) :=
  State.slotDo_writes_s ha hr (by rw [hv])

theorem State.sRRR_launches {f : Word → Word → Word} (ha : s.alone) (hr : s.ready h [rS d, rS a, rS b])
    (hv : f (s.me.s a) (s.me.s b) = v) :
    s.sRRR h d a b 3 f = .next (s.launched [] [s.flight 3 false (.s d.toNat v)]) :=
  State.slotDo_launches ha hr (by rw [hv])

theorem State.sRR_ready {f : Word → Word} (ha : s.alone) (hr : s.ready h [rS d, rS a]) (hv : f (s.me.s a) = v) :
    s.sRR h d a f = .next (s.wrote (.s d.toNat v)) :=
  State.slotDo_writes_s ha hr (by rw [hv])

theorem State.slotDo_flyP {t : Bool} (ha : s.alone) (hr : s.ready h touch) (hk : k s.me = [s.me.flyP d t]) :
    s.slotDo h touch k = .next (s.wrote (.p (s.me.r.physPred d.toNat) t)) :=
  State.slotDo_writes ha hr hk (Res.keepsRunLimit_p _ _)

end

end Sys2Proof.Machine

/-! The numbers behind the scalar results (02 R45; 05 R87, R90): sign extension, minima and maxima, and the bit counts. -/

namespace Sys2Proof.Machine

/-- SignExtend as the remainder nearest to zero (02 R45). -/
theorem signExt_eq_ofInt_bmod (x : Nat) {n : Nat} (h1 : 1 ≤ n) (h64 : n ≤ 64) :
    signExt x n = BitVec.ofInt 64 (Int.bmod x (2 ^ n)) := by
  obtain ⟨m, rfl⟩ := Nat.exists_eq_add_of_le' h1
  have hm : 2 ^ (m + 1) = 2 * 2 ^ m := Nat.pow_succ'
  have hle : 2 ^ (m + 1) ≤ 2 ^ 64 := Nat.pow_le_pow_right (by decide) h64
  have hc : x % 2 ^ (m + 1) < 2 ^ (m + 1) := Nat.mod_lt _ (Nat.two_pow_pos _)
  have hhalf : ((2 ^ (m + 1) : Nat) + 1 : Int) / 2 = (2 ^ m : Nat) := by omega
  rw [signExt, Int.bmod, ← Int.natCast_mod, hhalf, Nat.add_sub_cancel]
  apply BitVec.eq_of_toNat_eq
  generalize x % 2 ^ (m + 1) = c at *
  generalize 2 ^ (m + 1) = p at *
  generalize 2 ^ m = q at *
  split
  · rw [if_neg (by omega), BitVec.toNat_ofInt, BitVec.toNat_ofNat]
    omega
  · rw [if_pos (by omega), BitVec.toNat_ofInt, BitVec.toNat_ofNat]
    omega

theorem rotateLeft_eq_shifts (x : Word) (n : Nat) :
    x.rotateLeft (n % 64) = (x <<< (n % 64)) ||| (x >>> (64 - n % 64)) := by
  rw [BitVec.rotateLeft_def, Nat.mod_mod]

theorem ite_slt_eq_min (x y : Word) : (if x.slt y then x else y) = BitVec.ofInt 64 (min x.toInt y.toInt) := by
  simp only [BitVec.slt, decide_eq_true_eq]
  split
  · rw [min_eq_left (by omega), BitVec.ofInt_toInt]
  · rw [min_eq_right (by omega), BitVec.ofInt_toInt]

theorem ite_slt_eq_max (x y : Word) : (if x.slt y then y else x) = BitVec.ofInt 64 (max x.toInt y.toInt) := by
  simp only [BitVec.slt, decide_eq_true_eq]
  split
  · rw [max_eq_right (by omega), BitVec.ofInt_toInt]
  · rw [max_eq_left (by omega), BitVec.ofInt_toInt]

theorem ite_ult_eq_min (x y : Word) : (if x.ult y then x else y) = BitVec.ofNat 64 (min x.toNat y.toNat) := by
  simp only [BitVec.ult, decide_eq_true_eq]
  split
  · rw [min_eq_left (by omega), BitVec.ofNat_toNat, BitVec.setWidth_eq]
  · rw [min_eq_right (by omega), BitVec.ofNat_toNat, BitVec.setWidth_eq]

theorem ite_ult_eq_max (x y : Word) : (if x.ult y then y else x) = BitVec.ofNat 64 (max x.toNat y.toNat) := by
  simp only [BitVec.ult, decide_eq_true_eq]
  split
  · rw [max_eq_right (by omega), BitVec.ofNat_toNat, BitVec.setWidth_eq]
  · rw [max_eq_left (by omega), BitVec.ofNat_toNat, BitVec.setWidth_eq]

/-! ### The bit counts, by what they count -/

theorem clzNat_le (x n : Nat) : clzNat x n ≤ n := by
  unfold clzNat
  split <;> omega

theorem lt_two_pow_sub_clzNat {x n : Nat} (hx : x < 2 ^ n) : x < 2 ^ (n - clzNat x n) := by
  unfold clzNat
  split
  next h0 => exact h0 ▸ Nat.two_pow_pos _
  next h0 =>
    have hlog : x.log2 < n := (Nat.log2_lt h0).2 hx
    rw [show n - (n - 1 - x.log2) = x.log2 + 1 by omega]
    exact Nat.lt_log2_self

theorem two_pow_le_of_clzNat_lt {x n : Nat} (hx : x < 2 ^ n) (hn : clzNat x n < n) : 2 ^ (n - 1 - clzNat x n) ≤ x := by
  have h0 : x ≠ 0 := by
    rintro rfl
    exact absurd hn (Nat.lt_irrefl n)
  have hlog : x.log2 < n := (Nat.log2_lt h0).2 hx
  rw [clzNat, if_neg h0, show n - 1 - (n - 1 - x.log2) = x.log2 by omega]
  exact Nat.log2_self_le h0

theorem bits_one_eq_one_iff (x i : Nat) : bits x i 1 = 1 ↔ x.testBit i = true := by
  rw [bits, Nat.testBit_eq_decide_div_mod_eq, decide_eq_true_eq, pow_one]

/-- Where `ctzFrom` stops: no bit is set from `i` on up to there, and unless it ran out, the bit there is set. -/
theorem ctzFrom_spec (x i n : Nat) :
    ctzFrom x i n ≤ i + n ∧ (∀ j, i ≤ j → j < ctzFrom x i n → x.testBit j = false) ∧
      (ctzFrom x i n < i + n → x.testBit (ctzFrom x i n) = true) := by
  induction n generalizing i with
  | zero => exact ⟨Nat.le_refl i, fun j h1 h2 => absurd h2 (Nat.not_lt.2 h1), fun h => absurd h (Nat.lt_irrefl i)⟩
  | succ n ih =>
    rw [ctzFrom]
    split
    next hb =>
      exact ⟨Nat.le_add_right .., fun j h1 h2 => absurd h2 (Nat.not_lt.2 h1), fun _ => (bits_one_eq_one_iff x i).1 hb⟩
    next hb =>
      obtain ⟨hle, hlow, hset⟩ := ih (i + 1)
      refine ⟨by omega, fun j h1 h2 => ?_, fun h => hset (by omega)⟩
      obtain rfl | h1 := Nat.eq_or_lt_of_le h1
      · exact Bool.eq_false_iff.2 (mt (bits_one_eq_one_iff x i).2 hb)
      · exact hlow j h1 h2

theorem popNat_eq_length_filter (x n : Nat) : popNat x n = ((List.range n).filter x.testBit).length := by
  induction n with
  | zero => rfl
  | succ n ih =>
    rw [popNat, ih, List.range_succ, List.filter_append, List.length_append, Nat.add_comm, List.filter_singleton]
    congr 1
    cases hb : x.testBit n with
    | true => exact (bits_one_eq_one_iff x n).2 hb
    | false =>
      have : bits x n 1 < 2 := Nat.mod_lt _ (by decide)
      have : bits x n 1 ≠ 1 := by rw [Ne, bits_one_eq_one_iff, hb]; decide
      simp only [cond_false, List.length_nil]
      omega

end Sys2Proof.Machine

/-! R87: the scalar arithmetic, shifts, counts, selection and extension. -/

namespace Sys2Proof.Machine

/-- Settles O1: each row is `sRRR`, `sRR` or a slot of its own, and its value is the row's function of the operands. -/
theorem scalarArithmetic : Obligations.ScalarArithmetic := by
  unfold Obligations.ScalarArithmetic
  refine ⟨fun s h d a b ha hr => ?registers, fun s h d a i ks ha hr => ?immediates, fun s h d a ha =>
    ⟨fun hr => ?counts, fun b m hr => ?sel⟩⟩
  case registers =>
    simp only [exec_add, exec_sub, exec_and, exec_or, exec_xor, exec_andn, exec_shl, exec_shr, exec_sra, exec_rotl, exec_min,
      exec_max, exec_minn, exec_maxn]
    exact ⟨State.sRRR_ready ha hr rfl, State.sRRR_ready ha hr rfl, State.sRRR_ready ha hr rfl, State.sRRR_ready ha hr rfl,
      State.sRRR_ready ha hr rfl, State.sRRR_ready ha hr rfl, State.sRRR_ready ha hr rfl, State.sRRR_ready ha hr rfl,
      State.sRRR_ready ha hr rfl, State.sRRR_ready ha hr (rotateLeft_eq_shifts _ _),
      State.sRRR_ready ha hr (ite_slt_eq_min _ _), State.sRRR_ready ha hr (ite_slt_eq_max _ _),
      State.sRRR_ready ha hr (ite_ult_eq_min _ _), State.sRRR_ready ha hr (ite_ult_eq_max _ _)⟩
  case immediates =>
    simp only [exec_addi, exec_andi, exec_ori, exec_xori, exec_shli, exec_shri, exec_srai, exec_sext, exec_zext]
    exact ⟨State.sRR_ready ha hr rfl, State.sRR_ready ha hr rfl, State.sRR_ready ha hr rfl, State.sRR_ready ha hr rfl,
      State.sRR_ready ha hr rfl, State.sRR_ready ha hr rfl, State.sRR_ready ha hr rfl,
      fun h1 h64 => State.sRR_ready ha hr (signExt_eq_ofInt_bmod _ h1 h64), State.sRR_ready ha hr rfl⟩
  case counts =>
    simp only [exec_clz, exec_ctz, exec_popc]
    obtain ⟨hle, hlow, hset⟩ := ctzFrom_spec (s.me.s a).toNat 0 64
    refine ⟨⟨_, State.sRR_ready ha hr rfl, clzNat_le _ _, lt_two_pow_sub_clzNat (s.me.s a).isLt,
      two_pow_le_of_clzNat_lt (s.me.s a).isLt⟩,
      ⟨_, State.sRR_ready ha hr rfl, hle, fun i => hlow i (Nat.zero_le i), hset⟩,
      State.sRR_ready ha hr (congrArg _ (popNat_eq_length_filter _ _))⟩
  case sel =>
    rw [exec_sel]
    exact State.slotDo_writes_s ha hr rfl

end Sys2Proof.Machine

/-! R90 and R93: bit fields and immediate moves. -/

namespace Sys2Proof.Machine

theorem bitField_eq (c : Word) : bitField c = (c.toNat % 64, min (c.toNat / 256 % 128) (64 - c.toNat % 64)) := by
  rw [bitField, bits_zero_lo]
  rfl

section
variable {x c : Word} {pos len : Nat} (hf : bitField c = (pos, len))
include hf

theorem bfxVal_false : bfxVal false x c = BitVec.ofNat 64 (x.toNat / 2 ^ pos % 2 ^ len) := by
  rw [bfxVal, hf]
  rfl

theorem bfxVal_true_of_len_zero (h0 : len = 0) : bfxVal true x c = 0 := by
  subst h0
  rw [bfxVal, hf]
  exact congrArg (BitVec.ofNat 64) (Nat.mod_one _)

theorem bfxVal_true (h0 : 0 < len) (h64 : len ≤ 64) :
    bfxVal true x c = BitVec.ofInt 64 (Int.bmod (BitVec.ofNat 64 (x.toNat / 2 ^ pos % 2 ^ len)).toNat (2 ^ len)) := by
  have hlt : x.toNat / 2 ^ pos % 2 ^ len < 2 ^ 64 :=
    (Nat.mod_lt _ (Nat.two_pow_pos _)).trans_le (Nat.pow_le_pow_right (by decide) h64)
  rw [bfxVal, hf, BitVec.toNat_ofNat, Nat.mod_eq_of_lt hlt]
  simp only [Bool.true_and, decide_eq_true_eq]
  rw [if_pos h0, signExt_eq_ofInt_bmod _ h0 h64]
  rfl

theorem bfiVal_eq (old : Word) :
    bfiVal old x c = (old &&& ~~~BitVec.ofNat 64 ((2 ^ len - 1) * 2 ^ pos)) |||
      ((x <<< pos) &&& BitVec.ofNat 64 ((2 ^ len - 1) * 2 ^ pos)) := by
  rw [bfiVal, hf]

end

/-- Settles O2: BFX and BFI by the field that the control word names, MOVI and MOVHI by KImm. -/
theorem scalarFields : Obligations.ScalarFields := by
  unfold Obligations.ScalarFields
  refine fun s h d ha => ⟨fun a b hr => ?fields, fun i ks hr => ?moves⟩
  case fields =>
    have hf := bitField_eq (s.me.s b)
    simp only [exec_bfx, exec_bfi]
    exact ⟨State.sRRR_ready ha hr (bfxVal_false hf),
      fun h0 => State.sRRR_ready ha hr (bfxVal_true_of_len_zero hf h0),
      fun h0 => State.sRRR_ready ha hr (bfxVal_true hf h0 (by omega)),
      State.slotDo_writes_s ha hr (by rw [bfiVal_eq hf])⟩
  case moves =>
    simp only [exec_movi, exec_movhi]
    exact ⟨State.slotDo_writes_s ha hr rfl, State.slotDo_writes_s ha hr rfl⟩

end Sys2Proof.Machine

/-! R91 and R92: compares and predicate operations. -/

namespace Sys2Proof.Machine

/-- The outcome of a compare with the old predicate, as m says (05 R91). -/
def cmpComb (m : BitVec 2) (t old : Bool) : Bool := if m = 0 then t else if m = 1 then t && old else t || old

section
variable {s : State} {h : Head} {d a b : BitVec 5} {v : Bool}

theorem State.sCmp_ready {touch : List RegId} {t : Ctx → Bool} (m : BitVec 2) (ha : s.alone)
    (hr : s.ready h (s.me.rP d :: touch)) (hv : t s.me = v) :
    s.sCmp h d touch m.toNat t = .next (s.wrote (.p (s.me.r.physPred d.toNat) (cmpComb m v (s.me.pr d)))) := by
  subst hv
  refine State.slotDo_flyP ha hr ?_
  match m with
  | 0 => rfl
  | 1 => rfl
  | 2 => rfl
  | 3 => rfl

theorem State.sCmpRR_ready {f : Word → Word → Bool} (m : BitVec 2) (ha : s.alone)
    (hr : s.ready h [s.me.rP d, rS a, rS b]) (hv : f (s.me.s a) (s.me.s b) = v) :
    s.sCmpRR h d a b m f = .next (s.wrote (.p (s.me.r.physPred d.toNat) (cmpComb m v (s.me.pr d)))) :=
  State.sCmp_ready m ha hr hv

theorem State.sPred_ready {f : Bool → Bool → Bool} (ha : s.alone) (hr : s.ready h [s.me.rP d, s.me.rP a, s.me.rP b])
    (hv : f (s.me.pr a) (s.me.pr b) = v) :
    s.sPred h d a b f = .next (s.wrote (.p (s.me.r.physPred d.toNat) v)) :=
  State.slotDo_flyP ha hr (by rw [hv])

end

theorem not_slt_eq_decide_le (x y : Word) : (!x.slt y) = decide (y.toInt ≤ x.toInt) := by
  rw [BitVec.slt, ← decide_not, decide_eq_decide, not_lt]

theorem not_ult_eq_decide_le (x y : Word) : (!x.ult y) = decide (y.toNat ≤ x.toNat) := by
  rw [BitVec.ult, ← decide_not, decide_eq_decide, not_lt]

theorem bne_eq_ite_not (x : Bool) (m : BitVec 2) : (x != (m == 1)) = if m = 1 then !x else x := by
  by_cases hm : m = 1
  · subst hm
    cases x <;> rfl
  · rw [if_neg hm, beq_eq_false_iff_ne.2 hm, Bool.bne_false]

/-- Settles O3: each operation is `sCmp`, `sPred` or a slot that writes the physical predicate of its field. -/
theorem scalarPredicates : Obligations.ScalarPredicates := by
  unfold Obligations.ScalarPredicates
  refine fun s h d a b ha => ⟨fun hr m => ?compares, fun hr i ks => ?immediates, fun hr => ?combines, fun hr m => ?moves⟩
  case compares =>
    simp only [exec_cmpeq, exec_cmpne, exec_cmplt, exec_cmpltn, exec_cmpge, exec_cmpgen]
    exact ⟨State.sCmpRR_ready m ha hr rfl, State.sCmpRR_ready m ha hr rfl, State.sCmpRR_ready m ha hr rfl,
      State.sCmpRR_ready m ha hr rfl, State.sCmpRR_ready m ha hr (not_slt_eq_decide_le _ _),
      State.sCmpRR_ready m ha hr (not_ult_eq_decide_le _ _)⟩
  case immediates =>
    simp only [exec_cmpeqi, exec_cmplti]
    exact ⟨State.sCmp_ready 0 ha hr rfl, State.sCmp_ready 0 ha hr rfl⟩
  case combines =>
    simp only [exec_pand, exec_por, exec_pxor, exec_pandn]
    exact ⟨State.sPred_ready ha hr rfl, State.sPred_ready ha hr rfl, State.sPred_ready ha hr rfl,
      State.sPred_ready ha hr rfl⟩
  case moves =>
    rw [exec_pmov]
    exact State.slotDo_flyP ha hr (by rw [bne_eq_ite_not])

end Sys2Proof.Machine

/-! R88: products. -/

namespace Sys2Proof.Machine

theorem setWidth_signExtend (x : Word) : (x.signExtend 128).setWidth 64 = x := by
  ext i hi
  rw [BitVec.getElem_setWidth, BitVec.getLsbD_signExtend, if_pos hi, decide_eq_true (by omega), Bool.true_and,
    BitVec.getLsbD_eq_getElem hi]

theorem extractLsb'_zero_mul_signExtend (x y : Word) :
    (x.signExtend 128 * y.signExtend 128).extractLsb' 0 64 = x * y := by
  rw [← BitVec.setWidth_eq_extractLsb' (by decide), BitVec.setWidth_mul _ _ (by decide), setWidth_signExtend,
    setWidth_signExtend]

theorem extractLsb'_zero_mul_zeroExtend (x y : Word) :
    (x.zeroExtend 128 * y.zeroExtend 128).extractLsb' 0 64 = x * y := by
  rw [← BitVec.setWidth_eq_extractLsb' (by decide), BitVec.setWidth_mul _ _ (by decide),
    BitVec.setWidth_setWidth_of_le _ (by decide), BitVec.setWidth_setWidth_of_le _ (by decide), BitVec.setWidth_eq,
    BitVec.setWidth_eq]

theorem mulh_eq_extractLsb' (x y : Word) :
    BitVec.ofInt 64 (x.toInt * y.toInt / 2 ^ 64) = (x.signExtend 128 * y.signExtend 128).extractLsb' 64 64 := by
  apply BitVec.eq_of_toNat_eq
  rw [BitVec.signExtend, BitVec.signExtend, ← BitVec.ofInt_mul, BitVec.extractLsb'_toNat, BitVec.toNat_ofInt,
    BitVec.toNat_ofInt, Nat.shiftRight_eq_div_pow]
  generalize x.toInt * y.toInt = p
  omega

theorem mulhn_eq_extractLsb' (x y : Word) :
    BitVec.ofNat 64 (x.toNat * y.toNat / 2 ^ 64) = (x.zeroExtend 128 * y.zeroExtend 128).extractLsb' 64 64 := by
  apply BitVec.eq_of_toNat_eq
  rw [BitVec.extractLsb'_toNat, BitVec.toNat_mul, BitVec.toNat_ofNat, Nat.shiftRight_eq_div_pow,
    BitVec.toNat_setWidth_of_le (by decide), BitVec.toNat_setWidth_of_le (by decide)]
  generalize x.toNat * y.toNat = p
  omega

/-- Settles O4: the four products stay in flight, and the halves of the wide product are the model's values. -/
theorem scalarProducts : Obligations.ScalarProducts := by
  unfold Obligations.ScalarProducts
  intro s h d a b ha hr
  have hlow := extractLsb'_zero_mul_signExtend (s.me.s a) (s.me.s b)
  simp only [exec_mul, exec_mulh, exec_mulhn, exec_madd]
  exact ⟨State.sRRR_launches ha hr hlow.symm, State.sRRR_launches ha hr (mulh_eq_extractLsb' _ _),
    State.sRRR_launches ha hr (mulhn_eq_extractLsb' _ _), State.slotDo_launches ha hr (by rw [hlow]), hlow,
    extractLsb'_zero_mul_zeroExtend _ _⟩

end Sys2Proof.Machine

/-! R96: the special moves, and the words of MOVS that stand for nothing. -/

namespace Sys2Proof.Machine

/-! ### The values that move -/

theorem bits_eq_div {x lo n : Nat} (h : x < 2 ^ (lo + n)) : bits x lo n = x / 2 ^ lo :=
  Nat.mod_eq_of_lt (Nat.div_lt_of_lt_mul (by rwa [← pow_add]))

/-- The number whose bit i is `f i`, for the first `n` bits. -/
def sumBits (f : Nat → Bool) (n : Nat) : Nat := ((List.range n).map fun i => (f i).toNat * 2 ^ i).sum

theorem sumBits_succ (f : Nat → Bool) (n : Nat) : sumBits f (n + 1) = 2 ^ n * (f n).toNat + sumBits f n := by
  simp only [sumBits, List.range_succ, List.map_append, List.sum_append, List.map_cons, List.map_nil, List.sum_cons,
    List.sum_nil]
  ring

theorem sumBits_lt (f : Nat → Bool) (n : Nat) : sumBits f n < 2 ^ n := by
  induction n with
  | zero => exact Nat.one_pos
  | succ n ih =>
    rw [sumBits_succ, Nat.pow_succ']
    cases f n <;> simp only [Bool.toNat_true, Bool.toNat_false] <;> omega

theorem testBit_sumBits (f : Nat → Bool) (n i : Nat) : (sumBits f n).testBit i = (decide (i < n) && f i) := by
  induction n with
  | zero => exact Nat.zero_testBit i
  | succ n ih =>
    rw [sumBits_succ, Nat.testBit_two_pow_mul_add _ (sumBits_lt f n), ih, Nat.testBit_bool_toNat]
    obtain hi | rfl | hi := Nat.lt_trichotomy i n
    · simp [hi, Nat.lt_succ_of_lt hi]
    · simp
    · simp [Nat.not_lt.2 hi.le, Nat.not_lt.2 (Nat.succ_le_of_lt hi), Nat.sub_ne_zero_of_lt hi]

theorem getLsbD_ofNat_sumBits (f : Nat → Bool) {n : Nat} (hn : n ≤ 64) (i : Nat) :
    (BitVec.ofNat 64 (sumBits f n)).getLsbD i = (decide (i < n) && f i) := by
  rw [BitVec.getLsbD_ofNat, testBit_sumBits, ← Bool.and_assoc, ← Bool.decide_and]
  exact congrArg (· && f i) (decide_eq_decide.2 (and_iff_right_of_imp fun h => Nat.lt_of_lt_of_le h hn))

/-! ### The words of MOVS -/

/-- The register fields of a word of MOVS as its selector has them (05 R96). -/
def movsFieldsOk (w : Nat) : Prop :=
  bits w 0 7 ≤ 7 ∧ (bits w 0 7 = 0 ∨ bits w 0 7 = 2 → bits w 7 5 = 0) ∧
    (bits w 0 7 = 1 ∨ bits w 0 7 = 3 → bits w 12 5 = 0)

theorem decodeSlot_movs_eq_none {w : Nat} {ks : List (BitVec 28)} (hc : bits w 28 3 = 1) (hop : bits w 22 6 = 57)
    (hw : ¬movsFieldsOk w) : decodeSlot w ks = none := by
  have hlow : bits w 0 12 = bits w 0 7 + 128 * bits w 7 5 := by
    simp only [bits]
    omega
  rw [movsFieldsOk] at hw
  simp only [decodeSlot, hc, decodeS, hop, whenFixed, Bool.and_eq_true, beq_iff_eq, hlow]
  rw [if_neg (by omega), if_neg (by omega), if_neg (by omega), if_neg (by omega), if_neg (by omega), if_neg (by omega),
    if_neg (by omega), if_neg (by omega)]
  rfl

/-! ### The moves -/

section
variable {s : State} {h : Head} {d a : BitVec 5} (ha : s.alone)
include ha

theorem execMovsSFromF_ready (hr : s.ready h [rS d, .f]) :
    execMovsSFromF h d s = .next (s.wrote (.s d.toNat (BitVec.ofNat 64 s.me.r.f.toNat))) :=
  State.slotDo_writes_s ha hr (by rw [BitVec.ofNat_toNat])

theorem execMovsFFromS_ready (hr : s.ready h [.f, rS a]) :
    execMovsFFromS h a s =
      .next (s.wrote (.f (BitVec.allOnes 17) (BitVec.ofNat 17 ((s.me.s a).toNat % 2 ^ 17)))) := by
  refine State.slotDo_writes ha hr ?_ (Res.keepsRunLimit_f _ _)
  rw [← BitVec.toNat_setWidth, BitVec.ofNat_toNat, BitVec.setWidth_eq]

theorem execMovsSFromP_ready (hr : s.ready h (rS d :: (List.range 16).map .p)) :
    execMovsSFromP h d s = .next (s.wrote (.s d.toNat (BitVec.ofNat 64 (sumBits s.me.r.readPred 16)))) :=
  State.slotDo_writes_s ha hr rfl

theorem execMovsPFromS_ready (hr : s.ready h (rS a :: (List.range 16).map .p)) :
    execMovsPFromS h a s =
      .next (s.wroteAll ((List.range 15).map fun i =>
        .p (s.me.r.physPred (i + 1)) ((s.me.s a).getLsbD (i + 1)))) := by
  rw [execMovsPFromS, s.slotDo_ready h _ _ hr, ← State.retire_flies ha, List.map_map]
  · rfl
  · intro r hmem
    obtain ⟨i, -, rfl⟩ := List.mem_map.1 hmem
    exact Res.keepsRunLimit_p _ _

theorem State.movsFromHalf_ready (hi : Bool) (hr : s.ready h [rS d, .l a.toNat]) :
    s.movsFromHalf h d a hi =
      .next (s.wrote (.s d.toNat (BitVec.ofNat 64 (bits (s.me.r.rl a.toNat).toNat (if hi then 64 else 0) 64)))) :=
  State.slotDo_writes_s ha hr rfl

theorem State.movsHalf_ready (hi : Bool) (hr : s.ready h [.l d.toNat, rS a]) :
    s.movsHalf h d a hi =
      .next (s.wrote (.l d.toNat (halfMask hi)
        (BitVec.ofNat 128 (if hi then (s.me.s a).toNat * 2 ^ 64 else (s.me.s a).toNat)))) :=
  State.slotDo_writes ha hr rfl (Res.keepsRunLimit_l _ _ _)

end

/-- Settles O8: each selector writes what its move reads, and a word whose fields its selector does not allow decodes to
nothing. -/
theorem specialMoves : Obligations.SpecialMoves := by
  unfold Obligations.SpecialMoves
  refine ⟨fun s h d a ha => ?moves, fun w ks hc hop => ?words⟩
  case moves =>
    simp only [exec_movsSFromF, exec_movsFFromS, exec_movsSFromP, exec_movsPFromS, exec_movsSFromLLo, exec_movsSFromLHi,
      exec_movsLLoFromS, exec_movsLHiFromS]
    refine ⟨execMovsSFromF_ready ha, execMovsFFromS_ready ha,
      fun hr => ⟨_, execMovsSFromP_ready ha hr, getLsbD_ofNat_sumBits _ (by decide)⟩, execMovsPFromS_ready ha,
      fun hr => ⟨?low, ?high⟩, fun hr => ⟨State.movsHalf_ready ha false hr, State.movsHalf_ready ha true hr⟩⟩
    case low =>
      rw [← bits_zero_lo]
      exact State.movsFromHalf_ready ha false hr
    case high =>
      rw [← bits_eq_div (n := 64) (s.me.r.rl a.toNat).isLt]
      exact State.movsFromHalf_ready ha true hr
  case words =>
    refine ⟨fun hsel hfld => ?_, fun hsel hfld => ?_, fun hsel => ?_⟩
    · exact decodeSlot_movs_eq_none hc hop fun ⟨_, ha, _⟩ => hfld (ha hsel)
    · exact decodeSlot_movs_eq_none hc hop fun ⟨_, _, hd⟩ => hfld (hd hsel)
    · exact decodeSlot_movs_eq_none hc hop fun ⟨hle, _, _⟩ => absurd hsel (Nat.not_lt.2 hle)

end Sys2Proof.Machine

/-! The movement instructions (08 R170): a V slot that moves elements, or moves one to a scalar register, and stands alone. -/

namespace Sys2Proof.Machine

section
variable {s : State} {h : Head} {d a b : BitVec 5} {m : BitVec 2} {touch : List RegId} {md : Option (BitVec 28)}

theorem elem_eq_div_mod (v : Vec) (w j : Nat) : elem v w j = v.toNat / 2 ^ (w * j) % 2 ^ w := rfl

theorem State.vMove_ready {op w lat : Nat} (f : Ctx → Nat → Nat) (ha : s.alone)
    (hr : s.ready h (rV d :: (Mod.of md).reg :: touch)) (hl : 1 < lat) :
    s.vMove h d touch md op w lat f = .next (s.vDone d md op w lat fun j => plainEl (f s.me j)) :=
  s.vElems_done h d touch md op w lat false _ ha hr hl

/-- The scalar result of a V slot is in flight for two bundles (08 R152). -/
theorem State.vScalar_ready (f : Ctx → Word) (ha : s.alone) (hr : s.ready h (rS d :: touch)) :
    s.vScalar h d touch f = .next (s.launched [] [⟨.s d.toNat (f s.me), s.me.bseq + 2, false, s.me.bseq, s.iss.slot,
      none, [], none, s.iss.unit, none, 0, []⟩]) := by
  rw [State.vScalar, s.vslot_ready h _ _ _ ha hr]
  refine congrArg _ (s.retire_stay _ [_] ha rfl fun f hf => Or.inr ?_)
  rw [List.mem_singleton.1 hf]
  exact Nat.add_lt_add_left Nat.one_lt_two _

/-! ### VMOV by its selector: v to v, q to v, v to q -/

theorem execVmov_zero : execVmov h d a 0 md s = s.vMove h d [rV a] md 43 32 2 fun c j => c.ve a 32 j := rfl

theorem execVmov_one :
    execVmov h d a 1 md s = s.vMove h d [.q a.toNat] md 43 32 2 fun c j => elem (c.r.rq a.toNat) 32 j := rfl

/-- A q register takes the active lanes of its source with latency 2. -/
theorem execVmov_two_ready (ha : s.alone) (hr : s.ready h [.q d.toNat, rV a, (Mod.of md).reg]) :
    let els := elsOf 32 (s.me.lanes (Mod.of md)) fun j => plainEl (s.me.ve a 32 j)
    let r := elemRes 32 (s.me.lanes (Mod.of md)) (Mod.of md).zi els
    execVmov h d a 2 md s = .next (s.vWhole 2 43 (.q d.toNat r.1 r.2) els) :=
  s.vslot_whole h _ _ .none false 2 43 _ _ _ ha hr rfl Nat.one_lt_two

/-! ### Whole results: VINS writes the bits of one element, VCOMP all of its destination -/

theorem execVins_ready (ha : s.alone) (hr : s.ready h [rV d, rS a, rS b]) :
    let w := widthType m
    let j := (s.me.s b).toNat % (4096 / w)
    execVins h d a b m s = .next (s.vWhole 2 38 (.v d.toNat (BitVec.ofNat 4096 ((2 ^ w - 1) * 2 ^ (w * j)))
      (BitVec.ofNat 4096 ((s.me.s a).toNat % 2 ^ w * 2 ^ (w * j)))) []) :=
  s.vslot_whole h _ _ .none false 2 38 _ _ _ ha hr rfl Nat.one_lt_two

theorem execVcomp_ready (ha : s.alone) (hr : s.ready h [rV d, rV a, (Mod.of md).reg]) :
    execVcomp h d a m md s = .next (s.vWhole 3 44 (.v d.toNat (BitVec.allOnes 4096)
      (compress (s.me.r.rv a.toNat) (s.me.lanes (Mod.of md)) (widthType m))) []) :=
  s.vslot_whole h _ _ .none false 3 44 _ _ _ ha hr rfl (by decide)

end

/-- Settles O31: VPERM, VBCAST, VIOTA, VSLIDE and VMOV to v are element moves, VEXT a scalar result, and VMOV to q, VINS and
VCOMP whole results; an element is its bits of the register. -/
theorem vectorMoves : Obligations.VectorMoves := by
  unfold Obligations.VectorMoves
  intro s h d a b m i md ha
  simp only [exec_vperm, exec_vbcast, exec_viota, exec_vslide, exec_vmov, exec_vins, exec_vcomp, exec_vext,
    ← elem_eq_div_mod, execVmov_zero, execVmov_one]
  refine ⟨fun hr => ?perm, fun hr => ?bcast, fun hr => ?iota, fun hr => ⟨?slide, ?movV⟩, fun hr => ?movFromQ,
    execVmov_two_ready ha, execVins_ready ha, execVcomp_ready ha, fun hr => ⟨?ext32, ?ext64, ?ext32signed⟩⟩
  case perm => exact State.vMove_ready _ ha hr (by decide)
  case bcast => exact State.vMove_ready _ ha hr Nat.one_lt_two
  case iota => exact State.vMove_ready _ ha hr Nat.one_lt_two
  case slide => exact State.vMove_ready _ ha hr (by decide)
  case movV => exact State.vMove_ready _ ha hr Nat.one_lt_two
  case movFromQ => exact State.vMove_ready _ ha hr Nat.one_lt_two
  case ext32 => exact State.vScalar_ready _ ha hr
  case ext64 => exact State.vScalar_ready _ ha hr
  case ext32signed => exact State.vScalar_ready _ ha hr

end Sys2Proof.Machine
